-- ==== Sys2Proof/Word.lean ====
section
/-!
DEFINITION. The bit-vector types of the KZ-2410's bus: 32-bit words of four byte lanes (spec 00, section
3.1; Table 0.2, "Word"), 22-bit word addresses (R151), and the 40-bit code words of the serial
configuration memory (R174, R185).
-/

namespace Sys2Proof

/-- A 32-bit bus word (Table 0.2). -/
abbrev Word := BitVec 32

/-- One byte lane of a word; also a tag (R95, R135). -/
abbrev Byte := BitVec 8

/-- A word address: the part presents 22 bits to memory (R151). -/
abbrev WordAddr := BitVec 22

/-- The four byte-lane enables of a transfer (R151); bit i enables lane i, bits 8i + 7 to 8i of the word. -/
abbrev Lanes := BitVec 4

/-- A code word of the Layout Image (R174): bits 31:0 the image word, bits 39:32 the check byte. -/
abbrev CodeWord := BitVec 40

/-- An order slot index, 0 to 31 (R135). -/
abbrev SlotIx := Fin 32

/-- A report slot index, 0 to 15 (R95). -/
abbrev ReportIx := Fin 16

/-- A cross-lane number, 0 to 3 (R64). -/
abbrev LaneIx := Fin 4

/-- A berth index, 0 to 7 (R64, R2). -/
abbrev BerthIx := Fin 8

/-- Bits lo + n - 1 down to lo of a word, as a number. -/
def field {w : Nat} (x : BitVec w) (lo n : Nat) : Nat :=
  x.toNat / 2 ^ lo % 2 ^ n

end Sys2Proof
end

