-- ==== Sys2Proof/Config.lean ====
section
/-!
DEFINITION. What the KZ-2410 fixes for every part (table sizes, the part code, the default TIMING values) and
the one free value of the model, the order in which the part's own due steps are taken.
-/

namespace Sys2Proof.Config

/-- The Move Table holds at most 24 live moves (R22, R29). -/
def moveTableSize : Nat := 24

/-- The Pending Queue holds at most 6 orders (R29). -/
def pendingQueueSize : Nat := 6

/-- The extension stack holds at most 8 entries (R49, R50). -/
def stackSize : Nat := 8

/-- The override token table has 4 entries (R20). -/
def tokenTableSize : Nat := 4

/-- The wait-chain check follows at most 24 moves (R55). -/
def chainDepth : Nat := 24

/-- The most requests of the arbiter that one visit takes after its first: 11 grants, the settling and the 24 links of
the wait-chain check (R44, R46, R55, R22). -/
def visitRequests : Nat := 36

/-- The fixed part code of header word 3 (R171, Table 11.9). -/
def partCode : Nat := 0x5C1

/-- The greatest count of the guard capture (R154). -/
def guardCountMax : Nat := 15

/-- What a byte of memory that nothing has written reads as. DESIGN CHOICE, unsafe (assumption 10): the spec
does not say what the static RAM holds at power-on (R155). -/
def unwrittenByte : Byte := 0

/-- Milliseconds in one second, and in one step of 0.1 s (spec 00, section 5, "Numbers"). -/
def msPerSecond : Nat := 1000

/-- Milliseconds in one step of 0.1 s. -/
def msPerTenth : Nat := 100

/-- FREE VALUE (assumption 3): which of the part's own due steps is taken next, where the spec leaves the order
open (R10, R93). The n-th such choice takes the due step at index freePick n, modulo how many are due. No
body: nothing is known of it. -/
opaque freePick : Nat → Nat

end Sys2Proof.Config
end

