-- ==== Sys2Proof/Syntax.lean ====
section
/-!
DEFINITION. The commands of the KZ-2410: one constructor of Instr for each row of spec/opcode_table.json. A
bus command carries its transfer word, so that the path judges it as R151 to R159 say (assumption 1).
-/

namespace Sys2Proof

/-- The two bus masters (Table 0.2, R151). -/
inductive Master where
  | planner
  | field
  deriving DecidableEq, Repr

/-- The burst lengths of a transfer (R151). -/
inductive BurstLen where
  | one
  | two
  | four
  | eight
  deriving DecidableEq, Repr

/-- The number of words of a burst (R151). -/
def BurstLen.words : BurstLen → Nat
  | .one => 1
  | .two => 2
  | .four => 4
  | .eight => 8

/-- One word of a write transfer (R151): the words of a burst are judged each on its own, so a burst write is a
run of these at consecutive addresses. -/
structure WriteWord where
  master : Master
  addr : WordAddr
  lanes : Lanes
  data : Word
  deriving DecidableEq, Repr

/-- One word of a read transfer (R151): word `index` of the burst of `len` words that begins at `start`. The
burst is carried because the snapshot of R158 and R159 lasts as long as it does. No byte lanes are carried: within
the rings a read disregards them (R157), and elsewhere the model reads all four (assumption 29). -/
structure ReadWord where
  master : Master
  start : WordAddr
  len : BurstLen
  index : Nat
  deriving DecidableEq, Repr

/-- The commands and events of the part, each one whole and indivisible step (spec 95). -/
inductive Instr where
  /-- MOVE (R25): the PLANNER writes a whole word of tag at an order slot's word 7, handing in a MOVE. -/
  | move (addr : WordAddr) (tag : Word)
  /-- CANCEL (R126). -/
  | cancel (addr : WordAddr) (tag : Word)
  /-- FENCE (R17). -/
  | fence (addr : WordAddr) (tag : Word)
  /-- UNFENCE (R17). -/
  | unfence (addr : WordAddr) (tag : Word)
  /-- VOUCH (R18). -/
  | vouch (addr : WordAddr) (tag : Word)
  /-- TOKEN (R20). -/
  | token (addr : WordAddr) (tag : Word)
  /-- LANE_CLEAR (R89). -/
  | laneClear (addr : WordAddr) (tag : Word)
  /-- STOP_ALL (R130). -/
  | stopAll (addr : WordAddr) (tag : Word)
  /-- RESUME (R133). -/
  | resume (addr : WordAddr) (tag : Word)
  /-- NOTICE_MASK (R142). -/
  | noticeMask (addr : WordAddr) (tag : Word)
  /-- ARRIVED (R100): the FIELD writes a whole word of tag at a report slot's word 3, handing in an ARRIVED. -/
  | arrived (addr : WordAddr) (tag : Word)
  /-- LEFT (R107). -/
  | left (addr : WordAddr) (tag : Word)
  /-- STALLED (R110). -/
  | stalled (addr : WordAddr) (tag : Word)
  /-- HALTED (R111). -/
  | halted (addr : WordAddr) (tag : Word)
  /-- SEEN (R112). -/
  | seen (addr : WordAddr) (tag : Word)
  /-- EMPTY (R114). -/
  | empty (addr : WordAddr) (tag : Word)
  /-- ORDER_RECORD_WRITE (R136): the PLANNER writes lanes of an order slot's word 0 to 4. -/
  | orderRecordWrite (addr : WordAddr) (lanes : Lanes) (data : Word)
  /-- REPORT_RECORD_WRITE (R156): the FIELD writes lanes of a report slot's word 0 or 1. -/
  | reportRecordWrite (addr : WordAddr) (lanes : Lanes) (data : Word)
  /-- PARTIAL_TAG_WRITE (R156): a write to a tag word that does not enable all four lanes. -/
  | partialTagWrite (w : WriteWord)
  /-- BUS_WRITE (R152): any other write. -/
  | busWrite (w : WriteWord)
  /-- DENIED_READ (R153): a word of a read that a guard window denies. -/
  | deniedRead (r : ReadWord)
  /-- NOTICE_WORD_READ (R168): header word 0 within a read burst. -/
  | noticeWordRead (r : ReadWord)
  /-- GUARD_CAPTURE_READ (R172): header word 4 within a read burst. -/
  | guardCaptureRead (r : ReadWord)
  /-- GRIDLOCK_CAPTURE_READ (R62): header word 5 within a read burst. -/
  | gridlockCaptureRead (r : ReadWord)
  /-- SILENCE_EXPIRY (R37) of the silence timer of the live move in a slot. -/
  | silenceExpiry (slot : SlotIx)
  /-- BACKOFF_EXPIRY (R123) of the back-off timer of the live move in a slot. -/
  | backoffExpiry (slot : SlotIx)
  /-- OFFER_LAPSE (R72): the offer timer of a lane expires in OFFERING. -/
  | offerLapse (lane : LaneIx)
  /-- ENTRY_DEADLINE_LAPSE (R74): the offer timer of a lane expires in CROSSING before entry. -/
  | entryDeadlineLapse (lane : LaneIx)
  /-- CROSSING_LIMIT_EXPIRY (R86): the crossing timer of a lane expires. -/
  | crossingLimitExpiry (lane : LaneIx)
  /-- SETTLE_EXPIRY (R84): the settle timer of a lane expires. -/
  | settleExpiry (lane : LaneIx)
  /-- RELEASE_EXPIRY (R88): the release timer of a lane expires. -/
  | releaseExpiry (lane : LaneIx)
  /-- POWER_ON (R182). -/
  | powerOn
  /-- LINE_RESET (R183): the reset input is asserted. -/
  | lineReset
  /-- IMAGE_LOAD_END (R181): the load ends; `code` is what the serial port delivered, from code word 0 on. -/
  | imageLoadEnd (code : List CodeWord)
  /-- EXTENSION_PASS (R41): a trigger reaches the Extension Arbiter. -/
  | extensionPass
  /-- EXTENSION_VISIT (R44): the next turn of the pass in progress. -/
  | extensionVisit
  /-- OFFER_CHECK (R70) of a lane. -/
  | offerCheck (lane : LaneIx)
  /-- ORDER_OF_UNKNOWN_KIND (R141): a take of an order whose kind code names no kind. -/
  | orderOfUnknownKind (addr : WordAddr) (tag : Word)
  /-- REPORT_OF_UNKNOWN_KIND (R99): a take of a report whose kind code names no kind. -/
  | reportOfUnknownKind (addr : WordAddr) (tag : Word)
  deriving DecidableEq, Repr

end Sys2Proof
end

