-- ==== Sys2Proof/WellFormed.lean ====
section
/-!
DEFINITION. The checks on a command that its types do not already make: a word of a read burst is one of the
burst's words and lies in the address space (R151), a partial tag write is partial (R138, R156), and a
load delivers no more code words than the three zones can hold (R175, section 11.5).
-/

namespace Sys2Proof

/-- All four byte lanes enabled (R137, R96). -/
def allLanes : Lanes := 0xF#4

/-- A read word is one of its burst's words, and the burst does not run past the last word address (R151). -/
def ReadWord.wf (r : ReadWord) : Bool :=
  r.index < r.len.words && r.start.toNat + r.len.words ≤ 2 ^ 22

/-- The most code words a load reads: three zone words and the greatest zone lengths, 466, 14 and 1. -/
def maxCodeWords : Nat := 484

/-- A command is well formed. -/
def Instr.wf : Instr → Bool
  | .move _ _ => true
  | .cancel _ _ => true
  | .fence _ _ => true
  | .unfence _ _ => true
  | .vouch _ _ => true
  | .token _ _ => true
  | .laneClear _ _ => true
  | .stopAll _ _ => true
  | .resume _ _ => true
  | .noticeMask _ _ => true
  | .arrived _ _ => true
  | .left _ _ => true
  | .stalled _ _ => true
  | .halted _ _ => true
  | .seen _ _ => true
  | .empty _ _ => true
  | .orderRecordWrite _ _ _ => true
  | .reportRecordWrite _ _ _ => true
  | .partialTagWrite w => w.lanes != allLanes
  | .busWrite _ => true
  | .deniedRead r => r.wf
  | .noticeWordRead r => r.wf
  | .guardCaptureRead r => r.wf
  | .gridlockCaptureRead r => r.wf
  | .silenceExpiry _ => true
  | .backoffExpiry _ => true
  | .offerLapse _ => true
  | .entryDeadlineLapse _ => true
  | .crossingLimitExpiry _ => true
  | .settleExpiry _ => true
  | .releaseExpiry _ => true
  | .powerOn => true
  | .lineReset => true
  | .imageLoadEnd code => code.length ≤ maxCodeWords
  | .extensionPass => true
  | .extensionVisit => true
  | .offerCheck _ => true
  | .orderOfUnknownKind _ _ => true
  | .reportOfUnknownKind _ _ => true

end Sys2Proof
end

