-- ==== Sys2Proof/Decode.lean ====
section
/-!
DEFINITION. The command a word spells by the bits of spec/opcode_table.json. No row of the table gives bits (each
row's "fields" is empty), so no word spells a command. The fields of the order and report records, which
the spec does give, are read in Machine/Operands.lean.
-/

namespace Sys2Proof

/-- The command that the nbits-bit word w spells: none, since no row of the table gives bits. -/
def decodeTableWord (_nbits _w : Nat) : Option Instr := none

end Sys2Proof
end

