-- ==== Sys2Proof/Machine/State.lean ====
section
/-!
DEFINITION. Everything the spec gives the KZ-2410 to hold, as plain data: windows and snapshot latch, order and
report slots, the Segment Table, the Move Table and Pending Queue, tokens, the arbiter, the lanes, the
timing values, notices, captures and health; the board memory behind the part; and the queue of commands.
-/

namespace Sys2Proof.Machine

/-- The part modes (Table 10.4). -/
inductive Mode where
  | starting
  | running
  | halted
  | blocking
  deriving DecidableEq, Repr

/-- A timer (Tables 2.1 and 4.2): stopped, running with a time left, or frozen with a time left, in ms. -/
inductive Timer where
  | stopped
  | running (left : Nat)
  | frozen (left : Nat)
  deriving DecidableEq, Repr

/-- The sixteen notice causes, in the order of Table 9.1. -/
inductive Notice where
  | restarted
  | imageWarning
  | imageFault
  | orderRefused
  | slotOverrun
  | partialTag
  | moveDone
  | moveStopped
  | stall
  | intrusion
  | vanished
  | gridlock
  | laneFault
  | laneStandoff
  | guardDenied
  | reportRejected
  deriving DecidableEq, Repr

/-! ### The memory path (chapter 8) -/

/-- A window: an address matches when it equals the base in every bit the mask does not mark (R152). -/
structure Window where
  base : WordAddr
  mask : WordAddr
  deriving DecidableEq, Repr

/-- A guard window with its four permissions, true where allowed (R153). -/
structure Guard where
  window : Window
  plannerRead : Bool
  plannerWrite : Bool
  fieldRead : Bool
  fieldWrite : Bool
  deriving DecidableEq, Repr

/-- The windows a load established (R152, R180). -/
structure Windows where
  orderRing : Window
  reportRing : Window
  guards : List Guard
  deriving DecidableEq, Repr

/-- The direction of a transfer (R151). -/
inductive Direction where
  | read
  | write
  deriving DecidableEq, Repr

/-- The guard capture (R154, R172); count 0 marks it empty. -/
structure GuardCapture where
  addr : WordAddr
  master : Master
  dir : Direction
  count : Nat
  deriving DecidableEq, Repr

/-- An empty guard capture (R172). -/
def GuardCapture.empty : GuardCapture := ⟨0, .planner, .read, 0⟩

/-- The gridlock capture (R62); length 0 marks it empty. -/
structure GridlockCapture where
  slot : SlotIx
  length : Nat
  unresolved : Bool
  deriving DecidableEq, Repr

/-- An empty gridlock capture (R62). -/
def GridlockCapture.empty : GridlockCapture := ⟨0, 0, false⟩

/-- The snapshot of one order slot: its verdict and authority words at one moment (R158). -/
structure OrderSnap where
  slot : SlotIx
  verdict : Word
  authority : Word
  deriving DecidableEq, Repr

/-- The snapshot of one report slot: its acceptance word (R158). -/
structure ReportSnap where
  slot : ReportIx
  acceptance : Word
  deriving DecidableEq, Repr

/-- The per-burst snapshot latch (R158, R159): what has been snapshotted for the burst in progress. -/
structure Latch where
  header : Option (Vector Word 8)
  orders : List OrderSnap
  reports : List ReportSnap
  deriving DecidableEq, Repr

/-- An empty snapshot latch. -/
def Latch.empty : Latch := ⟨none, [], []⟩

/-! ### Order and report slots (chapters 5 and 7) -/

/-- The reasons a REFUSED verdict carries (Table 7.4, first group). -/
inductive RefuseReason where
  | imageFault
  | badKind
  | badRoute
  | badSegment
  | benchBusy
  | unlocated
  | notAtRest
  | notAtStart
  | heldSegment
  | full
  | notLive
  | tokenHeld
  | tokenFull
  | notFaulted
  | laneOccupied
  | laneBusyStranded
  deriving DecidableEq, Repr

/-- The reasons a STOPPED verdict carries (R39, Table 7.4, second group). -/
inductive StopReason where
  | silent
  | intrusion
  | sequence
  | vanished
  | stallLimit
  | driveHalted
  deriving DecidableEq, Repr

/-- The verdict of a slot that no queued or live move is linked to (R144, Table 7.3). A linked slot shows its
queue entry or move instead (R145), computed where the word is built (assumption 12). -/
inductive Verdict where
  | free
  | applied
  | refused (reason : RefuseReason)
  | done (front : Nat)
  | cancelled (front : Nat)
  | stopped (front : Nat) (reason : StopReason)
  deriving DecidableEq, Repr

/-- The record of one order slot (R135, Table 7.1). -/
structure OrderSlot where
  shadow : Vector Word 8
  lastTag : Byte
  verdict : Verdict
  overrun : Bool
  deriving DecidableEq, Repr

/-- An order slot after a start (Table 7.1). -/
def OrderSlot.fresh : OrderSlot := ⟨Vector.replicate 8 0, 0, .free, false⟩

/-- The reasons of a REJECTED report (Table 5.4). -/
inductive RejectReason where
  | imageFault
  | badKind
  | badSegment
  | overlength
  | sequence
  | emptyBench
  deriving DecidableEq, Repr

/-- The acceptance code of a report slot (R98, Table 5.3). -/
inductive Acceptance where
  | free
  | accepted
  | unmanaged
  | rejected (reason : RejectReason)
  deriving DecidableEq, Repr

/-- The record of one report slot (R95). -/
structure ReportSlot where
  shadow : Vector Word 4
  lastTag : Byte
  acceptance : Acceptance
  judgedTag : Byte
  deriving DecidableEq, Repr

/-- A report slot after a start (R95). -/
def ReportSlot.fresh : ReportSlot := ⟨Vector.replicate 4 0, 0, .free, 0⟩

/-! ### The Segment Table (chapter 1) -/

/-- Segment kinds, with lane and index where the kind has them (R2). -/
inductive SegKind where
  | plain
  | berth (lane : LaneIx) (index : BerthIx)
  | laneCell (lane : LaneIx) (pos : Fin 6)
  deriving DecidableEq, Repr

/-- Fence causes (R3). -/
inductive FenceCause where
  | host
  | image
  | intrusion
  | vanished
  deriving DecidableEq, Repr

/-- What a segment records as standing on it, when anything does (R3). -/
inductive Occupant where
  | bench (id : Nat)
  | unknown
  deriving DecidableEq, Repr

/-- A segment record (R1, Table 1.1). The holder is named by the order slot of its move (R3). -/
structure Segment where
  id : Nat
  kind : SegKind
  links : List Nat
  surveyed : Bool
  fence : Option FenceCause
  holder : Option SlotIx
  occupant : Option Occupant
  deriving DecidableEq, Repr

/-! ### Moves (chapters 2, 3 and 6) -/

/-- Move classes, in falling priority (R42). -/
inductive MoveClass where
  | dispatch
  | restock
  | service
  deriving DecidableEq, Repr

/-- The six states of a live move (R33, Table 2.3). -/
inductive MoveState where
  | moving
  | blocked
  | laneWait
  | crossing
  | stalled
  | stopping
  deriving DecidableEq, Repr

/-- The end reason pending of a STOPPING move (R35, Table 2.6). -/
inductive EndReason where
  | cancel
  | silent
  | intrusion
  | sequence
  | vanished
  | stallLimit
  deriving DecidableEq, Repr

/-- The yield mark (R57, R58): clear; set, and no pass has begun since; set, and a pass has begun since. R58
clears it at the end of the first pass that begins after the shedding, so the model tells the last two apart. -/
inductive Yield where
  | clear
  | beforePass
  | inPass
  deriving DecidableEq, Repr

/-- A Move Table entry (R22, Table 2.1). The stack has its top entry first (R49). `extending` is the arbiter's mark on
the move it is visiting: this visit has granted to it, and its top stack entry is the visit's (R45). -/
structure Move where
  slot : SlotIx
  tag : Byte
  bench : Nat
  cls : MoveClass
  admission : Nat
  retries : Nat
  route : List Nat
  t : Nat
  f : Nat
  h : Nat
  stack : List Nat
  state : MoveState
  token : Bool
  gridlocked : Bool
  shed : Bool
  yield : Yield
  extending : Bool
  lane : Option LaneIx
  endReason : Option EndReason
  silence : Timer
  backoff : Timer
  deriving DecidableEq, Repr

/-- A Pending Queue entry: a MOVE order as it was taken (R30). -/
structure QueuedOrder where
  slot : SlotIx
  tag : Byte
  bench : Nat
  cls : MoveClass
  retries : Nat
  route : List Nat
  deriving DecidableEq, Repr

/-- A wait-chain check in progress (R55): the chain of moves so far, and the segment whose holder it reads next. -/
structure WaitCheck where
  chain : List SlotIx
  segment : Nat
  deriving DecidableEq, Repr

/-- The Extension Arbiter (R41): the pass in progress as the moves still to have their turn, the one being visited at
the head; the wait-chain check that runs before the next visit; the further-pass mark; and the model's own mark that a
trigger has been taken whose pass has not yet begun (assumption 5). -/
structure Arbiter where
  pass : Option (List SlotIx)
  check : Option WaitCheck
  further : Bool
  due : Bool
  deriving DecidableEq, Repr

/-- The arbiter after a start (R41). -/
def Arbiter.idle : Arbiter := ⟨none, none, false, false⟩

/-! ### Lanes (chapter 4) -/

/-- The five lane states (R66, Table 4.3). -/
inductive LaneState where
  | quiet
  | offering
  | crossing
  | settling
  | faulted
  deriving DecidableEq, Repr

/-- Fault causes (section 4.7). -/
inductive FaultCause where
  | crossingLimit
  | intrusion
  | stranded
  deriving DecidableEq, Repr

/-- A lane's crossing record (R65): the slot of the crossing move and the entered mark. -/
structure CrossingRecord where
  slot : SlotIx
  entered : Bool
  deriving DecidableEq, Repr

/-- The cells by position and the berths by index of a configured lane (R64). -/
structure LaneLayout where
  cells : List Nat
  berths : List Nat
  deriving DecidableEq, Repr

/-- The record of one Lane Controller (R65, Table 4.2); layout none where the image configures no such lane. -/
structure Lane where
  layout : Option LaneLayout
  state : LaneState
  berth : BerthIx
  cause : Option FaultCause
  crossing : Option CrossingRecord
  lists : Vector (List SlotIx) 8
  runCounter : Nat
  offered : Bool
  crossed : Bool
  standoff : Bool
  offerTimer : Timer
  crossingTimer : Timer
  settleTimer : Timer
  releaseTimer : Timer
  deriving DecidableEq, Repr

/-- A lane after a start, with its cells and berths if it is configured (R92, Table 4.2). -/
def Lane.fresh (layout : Option LaneLayout) : Lane :=
  ⟨layout, .quiet, 0, none, none, Vector.replicate 8 [], 0, false, false, false,
    .stopped, .stopped, .stopped, .stopped⟩

/-! ### Timing values and health (chapter 10) -/

/-- The TIMING values of one lane (Tables 4.1 and 10.2), in the units of the image. -/
structure LaneTiming where
  offerWindow : Nat
  crossingLimit : Nat
  settleTime : Nat
  releaseDelay : Nat
  runLimit : Nat
  strictOrder : Bool
  autoRelease : Bool
  deriving DecidableEq, Repr

/-- The default lane values: 5.0 s, 90 s, 3.0 s, 2.0 s, 0, off, off (Table 10.2). -/
def LaneTiming.default : LaneTiming := ⟨50, 90, 30, 20, 0, false, false⟩

/-- The TIMING values (R177, Table 10.2): prescale in clock cycles per ms, limits in s, the enable set of the
image, and the four lane groups. -/
structure Timing where
  prescale : Nat
  silenceLimit : Nat
  stallBackoff : Nat
  reach : Nat
  enable : BitVec 16
  lanes : Vector LaneTiming 4
  deriving DecidableEq, Repr

/-- The defaults of Table 10.2. -/
def Timing.default : Timing := ⟨8000, 20, 10, 3, 0xFFFF, Vector.replicate 4 .default⟩

/-- Zone status (R176). -/
inductive ZoneStatus where
  | ok
  | warning
  | error
  deriving DecidableEq, Repr

/-- What the last load found (R171): zone health, structure check code, image revision. -/
structure Health where
  layout : ZoneStatus
  timing : ZoneStatus
  label : ZoneStatus
  code : Nat
  revision : Byte
  deriving DecidableEq, Repr

/-! ### The state -/

/-- The state of the part, of the board memory behind it, and of the queue of commands. -/
structure State where
  /-- The commands that wait, first in, first out. -/
  pending : List Instr
  /-- The part mode (Table 10.4). -/
  mode : Mode
  /-- Clock cycles counted toward the next millisecond (R178). -/
  clockCount : Nat
  /-- The windows established by the last load; none while no window is known (R160, R162). -/
  windows : Option Windows
  /-- The per-burst snapshot latch (R158). -/
  latch : Latch
  /-- The word returned to the last read (R151, R157). -/
  readData : Word
  /-- The static RAM: byte key 4 * word address + lane (R151). -/
  mem : List Host.Cell
  /-- The 32 order slots (R135). -/
  orders : Vector OrderSlot 32
  /-- The 16 report slots (R95). -/
  reports : Vector ReportSlot 16
  /-- The Segment Table (R1); empty where there is none. -/
  segs : List Segment
  /-- The Move Table (R22). -/
  moves : List Move
  /-- The Pending Queue, oldest at the head (R30). -/
  queue : List QueuedOrder
  /-- The admission counter (R24). -/
  admissionCounter : Nat
  /-- The benches the override token table holds (R20). -/
  tokens : List Nat
  /-- The Extension Arbiter (R41). -/
  arbiter : Arbiter
  /-- The four Lane Controllers (R64). -/
  lanes : Vector Lane 4
  /-- The lanes whose controller has yet to make its request for the rest of a resumed crossing (R78, R91; assumption
  7). -/
  crossingAsks : Vector Bool 4
  /-- The TIMING values in force (R177). -/
  timing : Timing
  /-- The notice set, cause n at bit n - 1 (R164). -/
  notices : BitVec 16
  /-- The enable set, cause n at bit n - 1 (R166). -/
  enable : BitVec 16
  /-- The guard capture (R154). -/
  guardCapture : GuardCapture
  /-- The gridlock capture (R62). -/
  gridlock : GridlockCapture
  /-- Zone health and load status; none before the first load has ended (R182). -/
  health : Option Health
  /-- The model's own: how many choices among due steps have been made (assumption 3). -/
  picks : Nat
  deriving DecidableEq, Repr

/-- The part just after power-on: STARTING, a load in progress, and no other state (R182, R173), over a memory
that lists nothing. The values no rule gives are in assumptions 8, 10 and 11. -/
def State.reset : State where
  pending := []
  mode := .starting
  clockCount := 0
  windows := none
  latch := .empty
  readData := 0
  mem := []
  orders := Vector.replicate 32 .fresh
  reports := Vector.replicate 16 .fresh
  segs := []
  moves := []
  queue := []
  admissionCounter := 0
  tokens := []
  arbiter := .idle
  lanes := Vector.replicate 4 (.fresh none)
  crossingAsks := Vector.replicate 4 false
  timing := .default
  notices := 0
  enable := 0
  guardCapture := .empty
  gridlock := .empty
  health := none
  picks := 0

/-- The machine stops with no fault: every transfer completes and the part gives no error response (R151). -/
inductive Fault where
  deriving DecidableEq, Repr

/-- What the model refuses. -/
inductive Refusal where
  /-- A command that exec's arm rejects by name because it has no meaning yet. Safe. No arm does. -/
  | notModelled (mnemonic : String)
  deriving DecidableEq, Repr

end Sys2Proof.Machine
end

