-- ==== Sys2Proof/Machine/Ops.lean ====
section
/-!
DEFINITION. The operations every block shares: the board memory by byte lanes, timers, notices and denials,
look-ups and updates of the tables, the requests of the Segment Table (chapter 1), the extension stack
(section 3.3), and the trigger of the Extension Arbiter (R41).
-/

namespace Sys2Proof.Machine

/-! ### Board memory -/

/-- Byte lane i of a word (R151, R156). -/
def byteOf (w : Word) (i : Nat) : Byte := w.extractLsb' (8 * i) 8

/-- The byte a memory holds at a byte key; what nothing has written is `Config.unwrittenByte` (assumption 10). -/
def memByte (mem : List Host.Cell) (key : Nat) : Byte :=
  match mem.find? (fun c => c.1 == key) with
  | some c => c.2
  | none => Config.unwrittenByte

/-- Store a byte in canonical form: keys rise, and no cell holds what an unlisted key reads as. -/
def memInsert : List Host.Cell → Nat → Byte → List Host.Cell
  | [], key, b => if b = Config.unwrittenByte then [] else [(key, b)]
  | c :: rest, key, b =>
    if c.1 < key then c :: memInsert rest key b
    else if c.1 = key then (if b = Config.unwrittenByte then rest else (key, b) :: rest)
    else (if b = Config.unwrittenByte then c :: rest else (key, b) :: c :: rest)

/-- The canonical form of a memory: keys strictly rising, no cell equal to what an unlisted key reads as. -/
def Memory.wf : List Host.Cell → Bool
  | [] => true
  | [c] => c.2 != Config.unwrittenByte
  | c :: d :: rest => c.2 != Config.unwrittenByte && c.1 < d.1 && Memory.wf (d :: rest)

/-- The byte key of lane i of a word address. -/
def byteKey (a : WordAddr) (i : Nat) : Nat := 4 * a.toNat + i

/-- The word memory holds at an address, lane 0 in bits 7:0. -/
def memWord (mem : List Host.Cell) (a : WordAddr) : Word :=
  memByte mem (byteKey a 3) ++ memByte mem (byteKey a 2) ++ memByte mem (byteKey a 1) ++ memByte mem (byteKey a 0)

/-- Store lane i of a word if the lanes enable it. -/
def memWriteLane (mem : List Host.Cell) (a : WordAddr) (lanes : Lanes) (data : Word) (i : Nat) : List Host.Cell :=
  if lanes.getLsbD i then memInsert mem (byteKey a i) (byteOf data i) else mem

/-- Store the enabled lanes of a word (R151). -/
def memWrite (mem : List Host.Cell) (a : WordAddr) (lanes : Lanes) (data : Word) : List Host.Cell :=
  memWriteLane (memWriteLane (memWriteLane (memWriteLane mem a lanes data 0) a lanes data 1) a lanes data 2)
    a lanes data 3

/-- A write passes to memory (R151). -/
def State.store (s : State) (a : WordAddr) (lanes : Lanes) (data : Word) : State :=
  { s with mem := memWrite s.mem a lanes data }

/-- The mask of the enabled lanes. -/
def laneMask (lanes : Lanes) : Word :=
  (if lanes.getLsbD 0 then 0x000000FF#32 else 0) ||| (if lanes.getLsbD 1 then 0x0000FF00#32 else 0)
    ||| (if lanes.getLsbD 2 then 0x00FF0000#32 else 0) ||| (if lanes.getLsbD 3 then 0xFF000000#32 else 0)

/-- Merge the enabled lanes of a written word into a shadow word (R136, R156). -/
def mergeLanes (lanes : Lanes) (data old : Word) : Word :=
  (data &&& laneMask lanes) ||| (old &&& ~~~ laneMask lanes)

/-- The address the part decodes and presents to memory: bits 18 to 21 of a FIELD address are regarded as zero, in
every mode (R151). -/
def effAddr : Master → WordAddr → WordAddr
  | .planner, a => a
  | .field, a => a &&& 0x03FFFF#22

/-! ### Timers -/

/-- STOP_ALL freezes a running timer with the time it has left (R90, R130). -/
def Timer.freeze : Timer → Timer
  | .running n => .frozen n
  | .frozen n => .frozen n
  | .stopped => .stopped

/-- RESUME restarts a frozen timer from its full value (R91, R133). -/
def Timer.thaw (full : Nat) : Timer → Timer
  | .frozen _ => .running full
  | .running n => .running n
  | .stopped => .stopped

/-- A running timer restarts from its full value; a stopped or frozen one is left (R36, R115). -/
def Timer.restart (full : Nat) : Timer → Timer
  | .running _ => .running full
  | .frozen n => .frozen n
  | .stopped => .stopped

/-- One millisecond passes (R178). -/
def Timer.tick : Timer → Timer
  | .running n => .running (n - 1)
  | .frozen n => .frozen n
  | .stopped => .stopped

/-- The timer runs. -/
def Timer.isRunning : Timer → Bool
  | .running _ => true
  | .frozen _ => false
  | .stopped => false

/-- The timer runs and has no time left: it expires. -/
def Timer.expired : Timer → Bool
  | .running 0 => true
  | .running (_ + 1) => false
  | .frozen _ => false
  | .stopped => false

/-- A timer that an event starts: running from its full value, or frozen at it in HALTED mode (R90, R130). -/
def State.startTimer (s : State) (full : Nat) : Timer :=
  if s.mode = .halted then .frozen full else .running full

/-- The full silence limit in ms (R36). -/
def State.silenceFull (s : State) : Nat := s.timing.silenceLimit * Config.msPerSecond

/-- The full stall back-off in ms (R119). -/
def State.backoffFull (s : State) : Nat := s.timing.stallBackoff * Config.msPerSecond

/-- The full offer window of a lane in ms (R64, R65). -/
def State.offerFull (s : State) (l : LaneIx) : Nat := s.timing.lanes[l].offerWindow * Config.msPerTenth

/-- The full crossing limit of a lane in ms (R64). -/
def State.crossingFull (s : State) (l : LaneIx) : Nat := s.timing.lanes[l].crossingLimit * Config.msPerSecond

/-- The full settle time of a lane in ms (R64). -/
def State.settleFull (s : State) (l : LaneIx) : Nat := s.timing.lanes[l].settleTime * Config.msPerTenth

/-- The full release delay of a lane in ms (R64). -/
def State.releaseFull (s : State) (l : LaneIx) : Nat := s.timing.lanes[l].releaseDelay * Config.msPerTenth

/-! ### Notices -/

/-- The bit of a cause in the notice word and the enable set: cause n of Table 9.1 at bit n - 1 (Table 11.9). -/
def Notice.bit : Notice → Nat
  | .restarted => 0
  | .imageWarning => 1
  | .imageFault => 2
  | .orderRefused => 3
  | .slotOverrun => 4
  | .partialTag => 5
  | .moveDone => 6
  | .moveStopped => 7
  | .stall => 8
  | .intrusion => 9
  | .vanished => 10
  | .gridlock => 11
  | .laneFault => 12
  | .laneStandoff => 13
  | .guardDenied => 14
  | .reportRejected => 15

/-- The set holding one cause. -/
def Notice.mask (n : Notice) : BitVec 16 := BitVec.twoPow 16 n.bit

/-- Latch a cause (R164). -/
def State.notify (s : State) (n : Notice) : State := { s with notices := s.notices ||| n.mask }

/-- A cause is latched. -/
def State.latched (s : State) (n : Notice) : Bool := s.notices.getLsbD n.bit

/-- Take a denial: latch GUARD_DENIED and count it in the guard capture (R154). -/
def State.deny (s : State) (a : WordAddr) (m : Master) (d : Direction) : State :=
  let c := s.guardCapture
  { s.notify .guardDenied with
    guardCapture :=
      if c.count = 0 then ⟨a, m, d, 1⟩
      else if c.count < Config.guardCountMax then { c with count := c.count + 1 }
      else c }

/-! ### Tables -/

/-- The record of a segment ID, if it is configured (R1). -/
def State.seg? (s : State) (g : Nat) : Option Segment := s.segs.find? (fun r => r.id == g)

/-- The ID is configured (R1). -/
def State.configured (s : State) (g : Nat) : Bool := (s.seg? g).isSome

/-- The live move of a slot (R22). -/
def State.move? (s : State) (k : SlotIx) : Option Move := s.moves.find? (fun m => m.slot == k)

/-- The live move of a bench, if it has one (R99); bench 0 has none. -/
def State.moveOfBench (s : State) (b : Nat) : Option Move :=
  if b = 0 then none else s.moves.find? (fun m => m.bench == b)

/-- The queued order of a slot (R30). -/
def State.queued? (s : State) (k : SlotIx) : Option QueuedOrder := s.queue.find? (fun q => q.slot == k)

/-- What a slot's link names (R135), computed from the tables (assumption 12). -/
inductive Link where
  | absent
  | queueEntry (q : QueuedOrder)
  | tableEntry (m : Move)
  deriving DecidableEq, Repr

/-- The link of a slot (R135). -/
def State.link (s : State) (k : SlotIx) : Link :=
  match s.move? k, s.queued? k with
  | some m, _ => .tableEntry m
  | none, some q => .queueEntry q
  | none, none => .absent

/-- A slot is live while its link names an entry (R135). -/
def State.live (s : State) (k : SlotIx) : Bool := (s.move? k).isSome || (s.queued? k).isSome

/-- Change the live move of a slot. -/
def State.updateMove (s : State) (k : SlotIx) (u : Move → Move) : State :=
  { s with moves := s.moves.map fun m => if m.slot = k then u m else m }

/-- Change the records of the listed segments. -/
def State.updateSegs (s : State) (ids : List Nat) (u : Segment → Segment) : State :=
  { s with segs := s.segs.map fun g => if g.id ∈ ids then u g else g }

/-- Change the record of a lane. -/
def State.updateLane (s : State) (l : LaneIx) (u : Lane → Lane) : State :=
  { s with lanes := s.lanes.set l (u s.lanes[l]) }

/-- Change the record of an order slot. -/
def State.updateOrder (s : State) (k : SlotIx) (u : OrderSlot → OrderSlot) : State :=
  { s with orders := s.orders.set k (u s.orders[k]) }

/-- Change the record of a report slot. -/
def State.updateReport (s : State) (j : ReportIx) (u : ReportSlot → ReportSlot) : State :=
  { s with reports := s.reports.set j (u s.reports[j]) }

/-! ### Segments: conditions, holds, occupants, fences (chapter 1) -/

/-- Surveyed, with no holder and no occupant: the state a segment opens into (R9). -/
def Segment.isOpen (g : Segment) : Bool := g.surveyed && g.holder.isNone && g.occupant.isNone

/-- The conditions of Table 1.2 (R4). -/
def Segment.unsurveyed (g : Segment) : Bool := !g.surveyed

/-- FENCED (R4). -/
def Segment.fenced (g : Segment) : Bool := g.fence.isSome

/-- OCCUPIED (R4). -/
def Segment.occupied (g : Segment) : Bool := g.occupant.isSome

/-- HELD (R4). -/
def Segment.held (g : Segment) : Bool := g.holder.isSome && g.occupant.isNone

/-- FREE (R4). -/
def Segment.free (g : Segment) : Bool := g.surveyed && g.fence.isNone && g.holder.isNone && g.occupant.isNone

/-- Grantable to a move with this token state (R5). -/
def Segment.grantable (g : Segment) (token : Bool) : Bool := g.isOpen && (g.fence.isNone || token)

/-- The segment with this ID is grantable to a move with this token state (R5). -/
def State.grantable (s : State) (token : Bool) (g : Nat) : Bool :=
  match s.seg? g with
  | some r => r.grantable token
  | none => false

/-- The holder of a segment (R3). -/
def State.holder (s : State) (g : Nat) : Option SlotIx := (s.seg? g).bind (·.holder)

/-- The occupant of a segment (R3). -/
def State.occupant (s : State) (g : Nat) : Option Occupant := (s.seg? g).bind (·.occupant)

/-- The lane of which the segment is a LANE_CELL, if it is one (R2). -/
def State.cellLane (s : State) (g : Nat) : Option LaneIx :=
  match s.seg? g with
  | some r => match r.kind with
    | .laneCell l _ => some l
    | .berth _ _ => none
    | .plain => none
  | none => none

/-- The segment is a LANE_CELL (R2). -/
def State.isCell (s : State) (g : Nat) : Bool := (s.cellLane g).isSome

/-- The lane and index of which the segment is a BERTH, if it is one (R2). -/
def State.berthOf (s : State) (g : Nat) : Option (LaneIx × BerthIx) :=
  match s.seg? g with
  | some r => match r.kind with
    | .berth l i => some (l, i)
    | .laneCell _ _ => none
    | .plain => none
  | none => none

/-- The lane a segment belongs to, as a cell or a berth (R2). -/
def SegKind.lane : SegKind → Option LaneIx
  | .plain => none
  | .berth l _ => some l
  | .laneCell l _ => some l

/-- Two segments are linked (R2). -/
def State.linked (s : State) (a b : Nat) : Bool :=
  match s.seg? a with
  | some r => r.links.contains b
  | none => false

/-- Make a move the holder of the listed segments (R7). -/
def State.hold (s : State) (k : SlotIx) (ids : List Nat) : State :=
  s.updateSegs ids fun g => { g with holder := some k }

/-- Release the listed segments that the move holds (R8). -/
def State.release (s : State) (k : SlotIx) (ids : List Nat) : State :=
  s.updateSegs ids fun g => if g.holder = some k then { g with holder := none } else g

/-- The locator: the segments whose occupant is bench b (R19). -/
def State.benchAt (s : State) (b : Nat) : List Nat :=
  (s.segs.filter fun g => g.occupant = some (.bench b)).map (·.id)

/-- What an occupancy mark of segment g for bench b records (R11). -/
def State.markOf (s : State) (g b : Nat) : Occupant :=
  if b = 0 then .unknown
  else match (s.benchAt b).filter (fun x => x ≠ g) with
    | [] => .bench b
    | [x] => if s.linked x g then .bench b else .unknown
    | _ :: _ :: _ => .unknown

/-- The occupancy mark (R11). -/
def State.mark (s : State) (g b : Nat) : State :=
  let o := s.markOf g b
  s.updateSegs [g] fun r => { r with occupant := some o }

/-- The vacate request (R12). -/
def State.vacate (s : State) (g b : Nat) : State :=
  s.updateSegs [g] fun r => if r.occupant = some (.bench b) then { r with occupant := none } else r

/-- The clear request (R12). -/
def State.clear (s : State) (g : Nat) : State :=
  s.updateSegs [g] fun r => { r with occupant := none }

/-- Set a fence (R15). -/
def State.setFence (s : State) (ids : List Nat) (c : FenceCause) : State :=
  s.updateSegs ids fun r => { r with fence := some c }

/-- Remove the fences of the listed segments (R15, R17). -/
def State.removeFence (s : State) (ids : List Nat) : State :=
  s.updateSegs ids fun r => { r with fence := none }

/-- Mark a segment surveyed (R13). -/
def State.survey (s : State) (g : Nat) : State :=
  s.updateSegs [g] fun r => { r with surveyed := true }

/-- The fenced count (R4). -/
def State.fencedCount (s : State) : Nat := (s.segs.filter (·.fenced)).length

/-- The unsurveyed count (R4). -/
def State.unsurveyedCount (s : State) : Nat := (s.segs.filter (·.unsurveyed)).length

/-! ### Moves: route positions and the extension stack -/

/-- The segment at a route position; 0, which means no segment, beyond the route (R1, R22). -/
def Move.seg (m : Move) (i : Nat) : Nat := m.route.getD i 0

/-- The segments at route positions i to j. -/
def Move.span (m : Move) (i j : Nat) : List Nat := (m.route.drop i).take (j + 1 - i)

/-- Merge the two bottom entries of a stack, the last of the list (R50). -/
def mergeBottom : List Nat → List Nat
  | [] => []
  | [a] => [a]
  | [a, b] => [a + b]
  | a :: b :: c :: rest => a :: mergeBottom (b :: c :: rest)

/-- Push an entry, merging the two bottom entries first when the stack is full (R50). -/
def pushEntry (n : Nat) (stack : List Nat) : List Nat :=
  if stack.length < Config.stackSize then n :: stack else n :: mergeBottom stack

/-- Add n segments to the top entry (R45). -/
def addTop (n : Nat) : List Nat → List Nat
  | [] => []
  | a :: rest => (a + n) :: rest

/-- Take one segment off the bottom entry (R51). -/
def dropBottom : List Nat → List Nat
  | [] => []
  | [a] => if a ≤ 1 then [] else [a - 1]
  | a :: b :: rest => a :: dropBottom (b :: rest)

/-- Pop the entries that lie beyond position f, from a top entry that ends at h, and shrink the one that covers
f (R52, steps 1 and 2). -/
def popTo (f : Nat) : Nat → List Nat → List Nat
  | _, [] => []
  | h, c :: rest => if f + c ≤ h then popTo f (h - c) rest else (c - (h - f)) :: rest

/-- The pop-to-occupied restore of a move entry (R52): the horizon returns to the front, and the silence timer
stops as R36 and R53 give. A move with h = f is left as it is. -/
def Move.restored (m : Move) : Move :=
  if m.h = m.f then m
  else { m with stack := popTo m.f m.h m.stack, h := m.f, silence := .stopped }

/-- The pop-to-occupied restore: one release of route positions f + 1 to h, with the entry's change (R52). -/
def State.restore (s : State) (k : SlotIx) : State :=
  match s.move? k with
  | some m => (s.release k (m.span (m.f + 1) m.h)).updateMove k Move.restored
  | none => s

/-- The move is MOVING or BLOCKED, the states the arbiter visits (R42). -/
def Move.eligible (m : Move) : Bool := m.state = .moving || m.state = .blocked

/-- The state Table 3.2 gives a move (R46). -/
def State.tableState (s : State) (m : Move) : MoveState :=
  if m.route.length ≤ m.h + 1 then .moving
  else if s.isCell (m.seg (m.h + 1)) then
    (if m.t = m.f ∧ m.f = m.h then .laneWait else .moving)
  else if m.f < m.h then .moving
  else .blocked

/-- The state R48 gives a move after its indices changed: Table 3.2 with BLOCKED for LANE_WAIT. -/
def State.indexState (s : State) (m : Move) : MoveState :=
  if s.tableState m = .laneWait then .blocked else s.tableState m

/-- Set a move's state by R48. -/
def State.settleByIndices (s : State) (k : SlotIx) : State :=
  s.updateMove k fun m => { m with state := s.indexState m }

/-- Start the silence timer of a move from the full limit (R36). -/
def State.startSilence (s : State) (k : SlotIx) : State :=
  s.updateMove k fun m => { m with silence := s.startTimer s.silenceFull }

/-- An accepted report restarts the silence timer of its bench's move while it runs (R36, R98). -/
def State.heard (s : State) (b : Nat) : State :=
  match s.moveOfBench b with
  | some m => s.updateMove m.slot fun x => { x with silence := x.silence.restart s.silenceFull }
  | none => s

/-! ### The trigger of the arbiter (R41) -/

/-- A trigger reaches the arbiter: outside RUNNING mode it is discarded; during a pass it sets the further-pass
mark; otherwise a pass is due (R41, assumption 5). -/
def State.trigger (s : State) : State :=
  match s.mode with
  | .running => match s.arbiter.pass with
    | some _ => { s with arbiter := { s.arbiter with further := true } }
    | none => { s with arbiter := { s.arbiter with due := true } }
  | .starting => s
  | .halted => s
  | .blocking => s

end Sys2Proof.Machine
end

