-- ==== Sys2Proof/Machine/Operands.lean ====
section
/-!
DEFINITION. The fields of the order and report records, read from the slots' shadows at the bit positions of
Tables 11.1, 11.2, 11.3 and 11.4 (R184).
-/

namespace Sys2Proof.Machine

/-- The ten order kinds (Table 11.2). -/
inductive OrderKind where
  | move
  | cancel
  | fence
  | unfence
  | vouch
  | token
  | laneClear
  | stopAll
  | resume
  | noticeMask
  deriving DecidableEq, Repr

/-- The kind an order's kind code names (Table 11.2); 0 and 11 to 255 name none (R184). -/
def orderKind : Nat → Option OrderKind
  | 1 => some .move
  | 2 => some .cancel
  | 3 => some .fence
  | 4 => some .unfence
  | 5 => some .vouch
  | 6 => some .token
  | 7 => some .laneClear
  | 8 => some .stopAll
  | 9 => some .resume
  | 10 => some .noticeMask
  | _ => none

/-- The class a class code names (Table 11.1); 0 and 4 to 15 name none (R184). -/
def moveClass : Nat → Option MoveClass
  | 1 => some .dispatch
  | 2 => some .restock
  | 3 => some .service
  | _ => none

/-- The fields of an order record (Table 11.1). `target` is word 4 bits 7:0, which CANCEL and LANE_CLEAR read. -/
structure OrderRecord where
  kindCode : Nat
  classCode : Nat
  retries : Nat
  bench : Nat
  length : Nat
  entries : List Nat
  target : Nat
  mask : BitVec 16
  deriving DecidableEq, Repr

/-- Byte i of a word, as a number. -/
def byteField (w : Word) (i : Nat) : Nat := field w (8 * i) 8

/-- Read the order record of a shadow (R184, Table 11.1). -/
def orderRecord (sh : Vector Word 8) : OrderRecord where
  kindCode := field sh[0] 0 8
  classCode := field sh[0] 8 4
  retries := field sh[0] 12 3
  bench := field sh[0] 16 10
  length := field sh[1] 0 8
  entries := [byteField sh[1] 1, byteField sh[1] 2, byteField sh[1] 3,
    byteField sh[2] 0, byteField sh[2] 1, byteField sh[2] 2, byteField sh[2] 3,
    byteField sh[3] 0, byteField sh[3] 1, byteField sh[3] 2, byteField sh[3] 3,
    byteField sh[4] 0]
  target := byteField sh[4] 0
  mask := sh[4].setWidth 16

/-- The route or list of a record: the entries before the length field's value (R16, R26, R184). -/
def OrderRecord.ids (o : OrderRecord) : List Nat := o.entries.take o.length

/-- The six report kinds (Table 11.3). -/
inductive ReportKind where
  | arrived
  | left
  | stalled
  | halted
  | seen
  | empty
  deriving DecidableEq, Repr

/-- The kind a report's kind code names (Table 11.3); 0 and 7 to 255 name none (R184). -/
def reportKind : Nat → Option ReportKind
  | 1 => some .arrived
  | 2 => some .left
  | 3 => some .stalled
  | 4 => some .halted
  | 5 => some .seen
  | 6 => some .empty
  | _ => none

/-- The fields of a report record (Table 11.4). -/
structure ReportRecord where
  kindCode : Nat
  bench : Nat
  segment : Nat
  deriving DecidableEq, Repr

/-- Read the report record of a shadow (R184, Table 11.4). -/
def reportRecord (sh : Vector Word 4) : ReportRecord where
  kindCode := field sh[0] 0 8
  bench := field sh[0] 16 10
  segment := field sh[1] 0 8

/-- The tag field of a tag word (R184): bits 7:0. -/
def tagOf (w : Word) : Byte := w.setWidth 8

/-- A tag write takes a record: the new tag is neither 0 nor the last-taken tag (R96, R137). -/
def takes (w : Word) (last : Byte) : Bool := tagOf w != 0 && tagOf w != last

end Sys2Proof.Machine
end

