-- ==== Sys2Proof/Machine/Flags.lean ====
section
/-!
DEFINITION. The words the part supplies (section 11.3 and 11.4): verdict, authority and acceptance words, the ring
header, and the level of the interrupt output. Each is computed from the state as it stands (R145, R147, R159).
-/

namespace Sys2Proof.Machine

/-- The reason codes of Table 11.8 that a REFUSED verdict shows. -/
def RefuseReason.code : RefuseReason → Nat
  | .imageFault => 1
  | .badKind => 2
  | .badRoute => 3
  | .badSegment => 4
  | .notAtStart => 5
  | .unlocated => 6
  | .notAtRest => 7
  | .benchBusy => 8
  | .full => 9
  | .notLive => 10
  | .heldSegment => 11
  | .tokenHeld => 12
  | .tokenFull => 13
  | .notFaulted => 14
  | .laneOccupied => 15
  | .laneBusyStranded => 16

/-- The reason codes of Table 11.8 that a STOPPED verdict shows. -/
def StopReason.code : StopReason → Nat
  | .silent => 17
  | .intrusion => 18
  | .sequence => 19
  | .vanished => 20
  | .stallLimit => 21
  | .driveHalted => 22

/-- The reason codes of Table 11.8 that an acceptance word shows. -/
def RejectReason.code : RejectReason → Nat
  | .imageFault => 1
  | .badKind => 2
  | .badSegment => 4
  | .sequence => 19
  | .overlength => 23
  | .emptyBench => 24

/-- The state codes of Table 11.5 for a live move. -/
def MoveState.code : MoveState → Nat
  | .moving => 2
  | .blocked => 3
  | .laneWait => 4
  | .crossing => 5
  | .stalled => 6
  | .stopping => 7

/-- The five things a verdict carries (R144). -/
structure VerdictView where
  state : Nat
  reason : Nat
  front : Nat
  horizon : Nat
  overrun : Bool
  token : Bool
  gridlocked : Bool
  deriving DecidableEq, Repr

/-- What a slot that no entry is linked to shows (Table 7.3). -/
def Verdict.view (v : Verdict) (overrun : Bool) : VerdictView :=
  match v with
  | .free => ⟨0, 0, 0, 0, overrun, false, false⟩
  | .applied => ⟨12, 0, 0, 0, overrun, false, false⟩
  | .refused r => ⟨11, r.code, 0, 0, overrun, false, false⟩
  | .done f => ⟨8, 0, f, f, overrun, false, false⟩
  | .cancelled f => ⟨9, 0, f, f, overrun, false, false⟩
  | .stopped f r => ⟨10, r.code, f, f, overrun, false, false⟩

/-- The verdict of a slot (R144, R145): its linked move's own state, QUEUED, or its kept verdict. -/
def State.verdictView (s : State) (k : SlotIx) : VerdictView :=
  match s.link k with
  | .tableEntry m => ⟨m.state.code, 0, m.f, m.h, s.orders[k].overrun, m.token, m.gridlocked⟩
  | .queueEntry _ => ⟨1, 0, 0, 0, s.orders[k].overrun, false, false⟩
  | .absent => s.orders[k].verdict.view s.orders[k].overrun

/-- The verdict word, order slot word 5 (Table 11.5). -/
def VerdictView.word (v : VerdictView) : Word :=
  BitVec.ofNat 32 (v.state + v.reason * 2 ^ 8 + v.front * 2 ^ 16 + v.horizon * 2 ^ 20
    + v.overrun.toNat * 2 ^ 24 + v.token.toNat * 2 ^ 25 + v.gridlocked.toNat * 2 ^ 26)

/-- The verdict word of a slot. -/
def State.verdictWord (s : State) (k : SlotIx) : Word := (s.verdictView k).word

/-- The authority codes (Table 2.5), GO with its horizon index and horizon segment (R34). -/
inductive Authority where
  | none
  | hold
  | go (horizon segment : Nat)
  | stop
  deriving DecidableEq, Repr

/-- The authority of a live move (Table 2.5). -/
def Move.authority (mode : Mode) (m : Move) : Authority :=
  match mode with
  | .starting => .none
  | .blocking => .none
  | .running => match m.state with
    | .stopping => .stop
    | .stalled => .hold
    | .moving => .go m.h (m.seg m.h)
    | .blocked => .go m.h (m.seg m.h)
    | .laneWait => .go m.h (m.seg m.h)
    | .crossing => .go m.h (m.seg m.h)
  | .halted => match m.state with
    | .stopping => .stop
    | .stalled => .hold
    | .moving => .hold
    | .blocked => .hold
    | .laneWait => .hold
    | .crossing => .hold

/-- The authority of a slot (R34, R147, Table 2.5). -/
def State.authority (s : State) (k : SlotIx) : Authority :=
  match s.link k with
  | .tableEntry m => m.authority s.mode
  | .queueEntry _ => match s.mode with
    | .running => .hold
    | .halted => .hold
    | .starting => .none
    | .blocking => .none
  | .absent => .none

/-- The authority word, order slot word 6 (Table 11.6). -/
def Authority.word : Authority → Word
  | .none => 0
  | .hold => 1
  | .go h g => BitVec.ofNat 32 (2 + h * 2 ^ 8 + g * 2 ^ 16)
  | .stop => 3

/-- The authority word of a slot. -/
def State.authorityWord (s : State) (k : SlotIx) : Word := (s.authority k).word

/-- The code and reason fields of an acceptance word (Table 11.7). -/
def Acceptance.bits : Acceptance → Nat
  | .free => 0
  | .accepted => 1
  | .unmanaged => 2
  | .rejected r => 3 + r.code * 2 ^ 8

/-- The acceptance word, report slot word 2 (Table 11.7). -/
def State.acceptanceWord (s : State) (j : ReportIx) : Word :=
  BitVec.ofNat 32 (s.reports[j].acceptance.bits + s.reports[j].judgedTag.toNat * 2 ^ 16)

/-- The mode field of header word 1 (Table 11.9); 0 is not shown by the part (R169). -/
def Mode.code : Mode → Nat
  | .starting => 0
  | .running => 1
  | .halted => 2
  | .blocking => 3

/-- Header word 1, the summary (R169). -/
def State.summaryWord (s : State) : Word :=
  BitVec.ofNat 32 (s.mode.code + s.moves.length * 2 ^ 3 + s.queue.length * 2 ^ 8
    + s.fencedCount * 2 ^ 12 + s.unsurveyedCount * 2 ^ 20)

/-- The seven state values of a lane group (R170, Table 11.9). -/
def Lane.stateCode (ln : Lane) : Nat :=
  match ln.state with
  | .quiet => 0
  | .offering => 1
  | .crossing => 2
  | .settling => 3
  | .faulted => match ln.cause with
    | some .crossingLimit => 4
    | some .intrusion => 5
    | some .stranded => 6
    | none => 4

/-- A lane's group of header word 2 (R94, R170): all clear for a lane that is not configured. -/
def Lane.group (ln : Lane) : Nat :=
  match ln.layout with
  | none => 0
  | some _ => 1 + ln.stateCode * 2 + ln.berth.val * 2 ^ 4 + ln.standoff.toNat * 2 ^ 7

/-- Header word 2, the lanes (R170). -/
def State.laneWord (s : State) : Word :=
  BitVec.ofNat 32 (s.lanes[0].group + s.lanes[1].group * 2 ^ 8 + s.lanes[2].group * 2 ^ 16
    + s.lanes[3].group * 2 ^ 24)

/-- The status codes of header word 3 (Table 11.9). -/
def ZoneStatus.code : ZoneStatus → Nat
  | .ok => 0
  | .warning => 1
  | .error => 2

/-- Header word 3, health (R171). -/
def State.healthWord (s : State) : Word :=
  match s.health with
  | none => 0
  | some x => BitVec.ofNat 32 (x.layout.code + x.timing.code * 2 ^ 2 + x.label.code * 2 ^ 4
      + x.code * 2 ^ 8 + x.revision.toNat * 2 ^ 12 + Config.partCode * 2 ^ 20)

/-- The master bit of header word 4 (Table 11.9). -/
def Master.bit : Master → Nat
  | .planner => 0
  | .field => 1

/-- The direction bit of header word 4 (Table 11.9). -/
def Direction.bit : Direction → Nat
  | .read => 0
  | .write => 1

/-- Header word 4, the guard capture (R172). -/
def GuardCapture.word (c : GuardCapture) : Word :=
  BitVec.ofNat 32 (c.addr.toNat + Master.bit c.master * 2 ^ 22 + c.dir.bit * 2 ^ 23 + c.count * 2 ^ 24)

/-- Header word 5, the gridlock capture (R62). -/
def GridlockCapture.word (c : GridlockCapture) : Word :=
  BitVec.ofNat 32 (c.slot.val + c.length * 2 ^ 8 + c.unresolved.toNat * 2 ^ 16)

/-- The eight header words of one snapshot (R159, Table 11.9); words 6 and 7 read as zero (R157). -/
def State.headerWords (s : State) : Vector Word 8 :=
  #v[s.notices.setWidth 32, s.summaryWord, s.laneWord, s.healthWord, s.guardCapture.word, s.gridlock.word, 0, 0]

/-- The interrupt output is asserted exactly when the notice set and the enable set have a cause in common (R167). -/
def State.interruptLine (s : State) : Bool := s.notices &&& s.enable != 0

end Sys2Proof.Machine
end

