-- ==== Sys2Proof/Machine/Lanes.lean ====
section
/-!
DEFINITION. The Lane Controllers (chapter 4): rounds and berth lists, offers, crossing grants, entry and end of a
crossing, withdrawal, stand-off, resumed crossings, settling and faults.
-/

namespace Sys2Proof.Machine

/-! ### Rounds (R67, R68) -/

/-- How many berths a lane has (R64). -/
def Lane.berthCount (ln : Lane) : Nat :=
  match ln.layout with
  | some y => y.berths.length
  | none => 0

/-- The head of the list of the lane's current berth (R69). -/
def Lane.head? (ln : Lane) : Option SlotIx := ln.lists[ln.berth].head?

/-- The first berth at or after an index whose list holds a move (R67). -/
def Lane.nextBerth (ln : Lane) (start : Nat) : Option BerthIx :=
  ([0, 1, 2, 3, 4, 5, 6, 7] : List BerthIx).find? fun j =>
    start ≤ j.val && j.val < ln.berthCount && !ln.lists[j].isEmpty

/-- The lane enters OFFERING(k): the offered mark is set and the offer timer starts; the offer check is a step of
its own (R70, assumption 6). -/
def State.enterOffering (s : State) (l : LaneIx) (k : BerthIx) : State :=
  s.updateLane l fun ln =>
    { ln with state := .offering, berth := k, offered := true, offerTimer := s.startTimer (s.offerFull l) }

/-- The lane enters QUIET (R67). -/
def State.enterQuiet (s : State) (l : LaneIx) : State :=
  s.updateLane l fun ln => { ln with state := .quiet }

/-- Judge stand-off at the end of a round (R80). -/
def State.judgeRound (s : State) (l : LaneIx) : State :=
  if s.lanes[l].offered && !s.lanes[l].crossed && !s.lanes[l].standoff then
    (s.updateLane l fun ln => { ln with standoff := true }).notify .laneStandoff
  else s

/-- Clear the round marks and the run counter, as a round start does (R67, R80). -/
def State.clearRound (s : State) (l : LaneIx) : State :=
  s.updateLane l fun ln => { ln with offered := false, crossed := false, runCounter := 0 }

/-- The current berth after visits that run from berth 0 beyond the last berth, n - 1 (R67). -/
def Lane.lastBerth (ln : Lane) : BerthIx :=
  if ln.berthCount = 0 then ln.berth else Fin.ofNat 8 (ln.berthCount - 1)

/-- The current berth after visits that run from the next berth beyond the last one (R67). -/
def Lane.lastVisited (ln : Lane) : BerthIx := if ln.berth.val + 1 < ln.berthCount then ln.lastBerth else ln.berth

/-- The current berth after a round start that finds every list empty: the last berth in normal order, whose visits run
from berth 0 to the end; the berth as it stands in strict order, which visits none (R67, R68, assumption 16). -/
def State.emptyRoundBerth (s : State) (l : LaneIx) : BerthIx :=
  if s.timing.lanes[l].strictOrder then s.lanes[l].berth else s.lanes[l].lastBerth

/-- A round starts: the first berth whose list holds a move is offered, in either order; with every list empty the
lane enters QUIET at once (R67, R68, assumption 16). -/
def State.startRound (s : State) (l : LaneIx) : State :=
  match s.lanes[l].nextBerth 0 with
  | some k => (s.clearRound l).enterOffering l k
  | none => ((s.clearRound l).updateLane l fun ln => { ln with berth := s.emptyRoundBerth l }).enterQuiet l

/-- The lane advances in normal order (R67). -/
def State.advanceNormal (s : State) (l : LaneIx) : State :=
  match s.lanes[l].nextBerth (s.lanes[l].berth.val + 1) with
  | some k => (s.updateLane l fun ln => { ln with runCounter := 0 }).enterOffering l k
  | none =>
    let s1 := (s.updateLane l fun ln => { ln with runCounter := 0, berth := ln.lastVisited }).judgeRound l
    match s1.lanes[l].nextBerth 0 with
    | some _ => s1.startRound l
    | none => s1.enterQuiet l

/-- The lane advances in strict order: the lowest-numbered berth whose list holds a move; a berth not higher than
the one last offered ends the round (R68). -/
def State.advanceStrict (s : State) (l : LaneIx) : State :=
  match s.lanes[l].nextBerth 0 with
  | some k =>
    if k ≤ s.lanes[l].berth then ((s.judgeRound l).clearRound l).enterOffering l k
    else s.enterOffering l k
  | none => (s.judgeRound l).enterQuiet l

/-- The lane advances (R67, R68). -/
def State.advanceLane (s : State) (l : LaneIx) : State :=
  if s.timing.lanes[l].strictOrder then s.advanceStrict l else s.advanceNormal l

/-- A move joins the tail of a berth list; a join to a QUIET lane starts a round (R47, R69). -/
def State.joinList (s : State) (l : LaneIx) (b : BerthIx) (k : SlotIx) : State :=
  let s1 := s.updateLane l fun ln => { ln with lists := ln.lists.set b (ln.lists[b] ++ [k]) }
  if s.lanes[l].state = .quiet then s1.startRound l else s1

/-- A move leaves its berth list for a reason other than a grant. When it was the head of the berth holding the
offer and the list is now empty, the offer ends as after a lapse (R69). -/
def State.leaveList (s : State) (l : LaneIx) (k : SlotIx) : State :=
  let s1 := s.updateLane l fun ln => { ln with lists := ln.lists.map fun q => q.filter (· ≠ k) }
  if s.lanes[l].state = .offering ∧ s.lanes[l].head? = some k ∧ s1.lanes[l].head? = none then
    (s1.updateLane l fun ln => { ln with offerTimer := .stopped }).advanceLane l
  else s1

/-! ### Crossing grants (R70, R71) -/

/-- The first route position at or after i that is not a lane cell. -/
def State.pastCells (s : State) (m : Move) (i : Nat) : Nat :=
  i + ((m.route.drop i).takeWhile s.isCell).length

/-- The route position of the exit berth of the crossing that begins beyond the horizon (R64). -/
def State.exitBeyond (s : State) (m : Move) : Nat := s.pastCells m (m.h + 1)

/-- The route position of the exit berth of an entered crossing: f itself once the bench is on it (R78). -/
def State.exitEntered (s : State) (m : Move) : Nat :=
  if s.isCell (m.seg m.f) then s.pastCells m m.f else m.f

/-- One request for route positions h + 1 to e: every segment is grantable to the move (R7). -/
def State.grantableTo (s : State) (m : Move) (e : Nat) : Bool :=
  e < m.route.length && (m.span (m.h + 1) e).all (s.grantable m.token)

/-- The head move of the berth that holds the offer, with the exit position of its crossing, when the offer check
is made and its request would be granted (R70). -/
def State.offerGrant (s : State) (l : LaneIx) : Option (Move × Nat) :=
  if s.mode = .running ∧ s.lanes[l].state = .offering then
    match s.lanes[l].head? with
    | some k => match s.move? k with
      | some m => if s.grantableTo m (s.exitBeyond m) then some (m, s.exitBeyond m) else none
      | none => none
    | none => none
  else none

/-- A push of route positions h + 1 to e onto a move, granted (R45, R50, R61). -/
def Move.pushed (m : Move) (e : Nat) : Move :=
  { m with stack := pushEntry (e - m.h) m.stack, h := e, gridlocked := false }

/-- A granted crossing request, on the move and on the lane (R71). -/
def State.grantCrossing (s : State) (l : LaneIx) (m : Move) (e : Nat) : State :=
  ((s.hold m.slot (m.span (m.h + 1) e)).updateMove m.slot fun x =>
      { x.pushed e with state := .crossing, silence := s.startTimer s.silenceFull }).updateLane l fun ln =>
    { ln with
      lists := ln.lists.map fun q => q.filter (· ≠ m.slot)
      state := .crossing
      crossing := some ⟨m.slot, false⟩
      offerTimer := s.startTimer (s.offerFull l)
      standoff := false }

/-- The offer check of a lane (R70); a refused request changes nothing. -/
def State.offerCheck (s : State) (l : LaneIx) : State :=
  match s.offerGrant l with
  | some (m, e) => s.grantCrossing l m e
  | none => s

/-! ### Entry, end, resumption of a crossing -/

/-- The lane's crossing record names the slot. -/
def Lane.crosses (ln : Lane) (k : SlotIx) : Bool :=
  match ln.crossing with
  | some r => r.slot = k
  | none => false

/-- The lane's crossing record names the slot, with the entered mark yes. -/
def Lane.entered (ln : Lane) (k : SlotIx) : Bool :=
  match ln.crossing with
  | some r => r.slot = k && r.entered
  | none => false

/-- The crossing is entered (R73). -/
def State.enterCrossing (s : State) (l : LaneIx) (k : SlotIx) : State :=
  if s.lanes[l].state = .crossing ∧ s.lanes[l].crosses k = true ∧ s.lanes[l].entered k = false then
    s.updateLane l fun ln =>
      { ln with
        crossing := some ⟨k, true⟩
        offerTimer := .stopped
        crossingTimer := s.startTimer (s.crossingFull l)
        crossed := true }
  else s

/-- The lane's next offer after a crossing ends in CROSSING(k) (R76). -/
def State.offerNext (s : State) (l : LaneIx) : State :=
  let ln := s.lanes[l]
  if !s.timing.lanes[l].strictOrder && ln.runCounter < s.timing.lanes[l].runLimit && ln.head?.isSome then
    (s.updateLane l fun x => { x with runCounter := x.runCounter + 1 }).enterOffering l ln.berth
  else s.advanceLane l

/-- The lane's step after a crossing ends in FAULTED (R88). -/
def State.releaseAfterFault (s : State) (l : LaneIx) : State :=
  if s.lanes[l].cause = some .crossingLimit ∧ s.timing.lanes[l].autoRelease then
    s.updateLane l fun ln => { ln with releaseTimer := s.startTimer (s.releaseFull l) }
  else s

/-- The end of a crossing, on the lane and on the move; a move in CROSSING returns to MOVING and triggers the
arbiter (R75, R76, R88). -/
def State.endCrossing (s : State) (l : LaneIx) (k : SlotIx) : State :=
  let was := s.lanes[l].state
  let s1 := (s.updateLane l fun ln => { ln with crossing := none, crossingTimer := .stopped }).updateMove k fun m =>
    { m with lane := none, state := if m.state = .crossing then .moving else m.state }
  let s2 := if (s.move? k).map (·.state) = some .crossing then s1.trigger else s1
  match was with
  | .crossing => s2.offerNext l
  | .faulted => s2.releaseAfterFault l
  | .quiet => s2
  | .offering => s2
  | .settling => s2

/-- The move that waits for the rest of its entered crossing on a lane, with its exit position, when the request for it
is made: RUNNING mode, and the lane in CROSSING or FAULTED with CROSSING_LIMIT (R78). -/
def State.awaitsRest (s : State) (l : LaneIx) : Option (Move × Nat) :=
  let ln := s.lanes[l]
  if s.mode = .running ∧ (ln.state = .crossing ∨ (ln.state = .faulted ∧ ln.cause = some .crossingLimit)) then
    match ln.crossing with
    | some ⟨k, true⟩ => match s.move? k with
      | some m =>
        if m.state = .crossing ∧ m.h = m.f ∧ m.f < s.exitEntered m then some (m, s.exitEntered m) else none
      | none => none
    | some ⟨_, false⟩ => none
    | none => none
  else none

/-- The resumed request for route positions f + 1 through the exit berth (R78). A refused one changes nothing. -/
def State.resumeCrossing (s : State) (l : LaneIx) : State :=
  match s.awaitsRest l with
  | some (m, e) =>
    if s.grantableTo m e then
      (s.hold m.slot (m.span (m.h + 1) e)).updateMove m.slot fun x =>
        { x.pushed e with silence := s.startTimer s.silenceFull }
    else s
  | none => s

/-- The lane's controller is to ask again for the rest of the crossing that waits for it, if one does (R78); it asks in a
step of its own, before or after the arbiter's requests (R10, R91, assumption 7). -/
def State.askRest (s : State) (l : LaneIx) : State :=
  if (s.awaitsRest l).isSome then { s with crossingAsks := s.crossingAsks.set l true } else s

/-- The lane's controller makes the request it is to make (R78). -/
def State.makeAsk (s : State) (l : LaneIx) : State :=
  { s with crossingAsks := s.crossingAsks.set l false }.resumeCrossing l

/-! ### Withdrawal and faults -/

/-- The lane's part in the withdrawal of a grant not entered (R77). -/
def State.withdrawGrant (s : State) (l : LaneIx) : State :=
  (s.updateLane l fun ln => { ln with offerTimer := .stopped, crossing := none }).advanceLane l

/-- A lane event takes back a grant not entered: the move is restored, waits again at the tail of berth k's list,
and the record is removed (R74 steps 1 to 4, R82 steps 1 to 3, R85). An entered crossing is left. -/
def State.revokeGrant (s : State) (l : LaneIx) : State :=
  match s.lanes[l].crossing with
  | some ⟨k, false⟩ =>
    ((s.restore k).updateMove k fun m => { m with state := .laneWait }).updateLane l fun ln =>
      { ln with
        crossing := none
        offerTimer := .stopped
        lists := ln.lists.set ln.berth (ln.lists[ln.berth] ++ [k]) }
  | some ⟨_, true⟩ => s
  | none => s

/-- Entry to FAULTED (R85). -/
def State.faultLane (s : State) (l : LaneIx) (c : FaultCause) : State :=
  ((s.revokeGrant l).updateLane l fun ln =>
    { ln with
      state := .faulted
      cause := some c
      runCounter := 0
      offerTimer := .stopped
      settleTimer := .stopped
      crossingTimer := .stopped
      releaseTimer := .stopped }).notify .laneFault

/-- A faulted lane takes a cause; its release and crossing timers stop (R83, R84, R87). -/
def State.changeCause (s : State) (l : LaneIx) (c : FaultCause) : State :=
  s.updateLane l fun ln =>
    { ln with cause := some c, releaseTimer := .stopped, crossingTimer := .stopped }

/-- The lane enters FAULTED with a cause, or takes the cause if it was FAULTED already; LANE_FAULT is latched (R83,
R87, assumption 18). -/
def State.putInFault (s : State) (l : LaneIx) (c : FaultCause) : State :=
  if s.lanes[l].state = .faulted then (s.changeCause l c).notify .laneFault else s.faultLane l c

/-- The lane enters SETTLING (R81, R82). -/
def State.settleLane (s : State) (l : LaneIx) : State :=
  s.updateLane l fun ln =>
    { ln with
      state := .settling
      runCounter := 0
      offerTimer := .stopped
      settleTimer := s.startTimer (s.settleFull l) }

/-- The segment is a cell of the lane (R2). -/
def Segment.isCellOf (g : Segment) (l : LaneIx) : Bool :=
  match g.kind with
  | .laneCell x _ => x = l
  | .berth _ _ => false
  | .plain => false

/-- The benches and unknowns that a lane's cells record. -/
def State.cellOccupants (s : State) (l : LaneIx) : List Occupant :=
  (s.segs.filter (·.isCellOf l)).filterMap (·.occupant)

/-- Bench b is recorded on a cell of the lane (R87). -/
def State.benchOnLane (s : State) (b : Nat) (l : LaneIx) : Bool := (s.cellOccupants l).contains (.bench b)

/-- Strand the lane if the bench is recorded on one of its cells (R87). -/
def State.strandIf (s : State) (b : Nat) (l : LaneIx) : State :=
  if s.benchOnLane b l then s.putInFault l .stranded else s

/-- Strand every lane on a cell of which the bench is recorded (R39, R87). -/
def State.strandAll (s : State) (b : Nat) : State :=
  (((s.strandIf b 0).strandIf b 1).strandIf b 2).strandIf b 3

end Sys2Proof.Machine
end

