-- ==== Sys2Proof/Machine/Moves.lean ====
section
/-!
DEFINITION. The Move Controller (chapters 2 and 6): the route and admission checks, admission and the Pending Queue,
the entry to STOPPING, stalls, the advance and the tail release, lane intrusions, the end of a move, and the
announcement of the openings of a change (R9).
-/

namespace Sys2Proof.Machine

/-! ### Verdicts -/

/-- Set the kept verdict of a slot (R144). -/
def State.setVerdict (s : State) (k : SlotIx) (v : Verdict) : State :=
  s.updateOrder k fun o => { o with verdict := v }

/-- A refusal sets the verdict to REFUSED with its reason and latches ORDER_REFUSED (R143). -/
def State.refuse (s : State) (k : SlotIx) (r : RefuseReason) : State :=
  (s.setVerdict k (.refused r)).notify .orderRefused

/-- An immediate order carried out sets the verdict to APPLIED (R143). -/
def State.applied (s : State) (k : SlotIx) : State := s.setVerdict k .applied

/-! ### Route and admission checks (R26, R27) -/

/-- Two consecutive route entries: linked, and a lane run is entered from and left to a berth of its lane (R26). -/
def State.stepOk (s : State) (a b : Nat) : Bool :=
  s.linked a b &&
    match s.cellLane a, s.cellLane b with
    | none, none => true
    | none, some l => (s.berthOf a).map (·.1) = some l
    | some l, none => (s.berthOf b).map (·.1) = some l
    | some l, some l' => l = l'

/-- Every pair of consecutive entries passes. -/
def State.stepsOk (s : State) : List Nat → Bool
  | [] => true
  | [_] => true
  | a :: b :: rest => s.stepOk a b && s.stepsOk (b :: rest)

/-- No entry appears twice. -/
def noRepeats : List Nat → Bool
  | [] => true
  | a :: rest => !rest.contains a && noRepeats rest

/-- The route check (R26): `len` is the route-length field, `route` that many entries. -/
def State.routeOk (s : State) (len : Nat) (route : List Nat) : Bool :=
  2 ≤ len && len ≤ 12 && route.length = len && route.all s.configured && noRepeats route && s.stepsOk route
    && !(s.isCell (route.headD 0)) && !(s.isCell (route.getLastD 0))

/-- The admission checks of Table 2.2 (R27), the start segment's holder tested where an entry is free. -/
def State.admissionFault (s : State) (bench start : Nat) (entryFree : Bool) : Option RefuseReason :=
  if s.moves.any (fun m => m.bench == bench) || s.queue.any (fun q => q.bench == bench) then some .benchBusy
  else match s.benchAt bench with
    | [] => some .unlocated
    | _ :: _ :: _ => some .notAtRest
    | [g] =>
      if g ≠ start then some .notAtStart
      else if entryFree && (s.holder start).isSome then some .heldSegment
      else none

/-! ### Admission and the queue (R24, R28 to R31) -/

/-- How many live moves are older than m. -/
def State.olderThan (s : State) (m : Move) : Nat := (s.moves.filter fun x => x.admission < m.admission).length

/-- Give the live moves the numbers 0 to k - 1 in their order of age (R24). -/
def State.renumber (s : State) : State :=
  { s with
    moves := s.moves.map fun m => { m with admission := s.olderThan m }
    admissionCounter := s.moves.length }

/-- Renumber before an admission that would give the counter the value 65536 (R24). -/
def State.readyCounter (s : State) : State := if s.admissionCounter + 1 < 65536 then s else s.renumber

/-- The entry an admission creates (R28, Table 2.1). -/
def State.newMove (s : State) (q : QueuedOrder) : Move where
  slot := q.slot
  tag := q.tag
  bench := q.bench
  cls := q.cls
  admission := s.admissionCounter
  retries := q.retries
  route := q.route
  t := 0
  f := 0
  h := 0
  stack := [1]
  state := if s.mode = .halted then .blocked else .moving
  token := s.tokens.contains q.bench
  gridlocked := false
  shed := false
  yield := .clear
  extending := false
  lane := none
  endReason := none
  silence := .stopped
  backoff := .stopped

/-- Admit an order: the start segment is granted, the entry created, the bench's token moved onto the move, and the
arbiter told (R28, R21, R24). -/
def State.admitOrder (s : State) (q : QueuedOrder) : State :=
  let s1 := s.readyCounter
  let s2 :=
    { s1 with
      moves := s1.moves ++ [s1.newMove q]
      admissionCounter := s1.admissionCounter + 1
      tokens := s1.tokens.filter (· ≠ q.bench) }
  (s2.hold q.slot (q.route.take 1)).trigger

/-- Try queue heads until one is admitted or the queue is empty (R31); `q` is the queue still to try. -/
def State.tryHeads : List QueuedOrder → State → State
  | [], s => { s with queue := [] }
  | q :: rest, s =>
    match { s with queue := rest }.admissionFault q.bench (q.route.headD 0) true with
    | none => { s with queue := rest }.admitOrder q
    | some r => tryHeads rest ({ s with queue := rest }.refuse q.slot r)

/-- The Pending Queue head is tried when a Move Table entry frees (R31). -/
def State.tryQueue (s : State) : State := s.tryHeads s.queue

/-! ### STOPPING and stalls (R35, R120 to R122) -/

/-- The lane business of a move that stalls or stops: it leaves its berth list, or its grant not entered is withdrawn,
and its lane reference becomes absent; an entered crossing is kept (R35 steps 3 to 5, R77, R120, R121). -/
def State.leaveLane (s : State) (k : SlotIx) : State :=
  match (s.move? k).bind (·.lane) with
  | none => s
  | some l =>
    if s.lanes[l].entered k then s
    else
      let s1 := s.updateMove k fun m => { m with lane := none }
      if s.lanes[l].crosses k then s1.withdrawGrant l else s1.leaveList l k

/-- A move enters STOPPING (R35). A move already in STOPPING is not changed. -/
def State.enterStopping (s : State) (k : SlotIx) (r : EndReason) : State :=
  match s.move? k with
  | none => s
  | some m =>
    if m.state = .stopping then s
    else
      ((s.restore k).updateMove k fun x =>
        { x with
          state := .stopping
          endReason := some r
          yield := .clear
          extending := false
          backoff := .stopped
          silence := s.startTimer s.silenceFull }).leaveLane k

/-- A STALLED report holds a move that is not yet STALLED (R120, R121). -/
def State.stallMove (s : State) (k : SlotIx) : State :=
  (((s.restore k).updateMove k fun x =>
    { x with
      state := .stalled
      yield := .clear
      extending := false
      silence := .stopped
      backoff := s.startTimer s.backoffFull }).leaveLane k).notify .stall

/-- A repeated STALLED report restarts the back-off (R122). -/
def State.stallAgain (s : State) (k : SlotIx) : State :=
  (s.updateMove k fun x => { x with backoff := s.startTimer s.backoffFull }).notify .stall

/-! ### The end of a move (R39) -/

/-- The lane business of a move that ends: it leaves its list, its grant not entered is withdrawn, or the record of
its entered crossing is removed and the crossing timer stopped (R39 step 3, R77, R79). -/
def State.endLane (s : State) (k : SlotIx) : State :=
  match (s.move? k).bind (·.lane) with
  | none => s
  | some l =>
    if s.lanes[l].entered k then
      s.updateLane l fun ln => { ln with crossing := none, crossingTimer := .stopped }
    else if s.lanes[l].crosses k then s.withdrawGrant l
    else s.leaveList l k

/-- A wait-chain check without a move of its chain that ends: the moves before it lead to nothing any more, and with
none after it the check ends (R55, R63, assumption 28). -/
def WaitCheck.forget (c : WaitCheck) (k : SlotIx) : Option WaitCheck :=
  if k ∈ c.chain then
    match (c.chain.dropWhile (· ≠ k)).tail with
    | [] => none
    | x :: rest => some { c with chain := x :: rest }
  else some c

/-- The arbiter without a move that ends: its turn in the pass in progress goes, and its place in a wait-chain check
(R39 step 5, R42, R55). -/
def Arbiter.forget (a : Arbiter) (k : SlotIx) : Arbiter :=
  { a with pass := a.pass.map fun p => p.filter (· ≠ k), check := a.check.bind (·.forget k) }

/-- Remove the entry of a slot, from the arbiter too (R39 step 5, R42). -/
def State.removeMove (s : State) (k : SlotIx) : State :=
  { s with moves := s.moves.filter fun m => m.slot ≠ k, arbiter := s.arbiter.forget k }

/-- The end of a move, in the order of R39, with the final verdict its front index gives and the notice. -/
def State.endMove (s : State) (k : SlotIx) (final : Nat → Verdict) (n : Notice) : State :=
  match s.move? k with
  | none => s
  | some m =>
    let s1 := (((s.release k (m.span m.t m.h)).endLane k).strandAll m.bench).removeMove k
    ((((s1.setVerdict k (final m.f)).notify n).tryQueue).trigger)

/-- The final verdict of a STOPPING move that its HALTED report ends (R129). -/
def EndReason.verdict (r : Option EndReason) (f : Nat) : Verdict :=
  match r with
  | some .cancel => .cancelled f
  | some .silent => .stopped f .silent
  | some .intrusion => .stopped f .intrusion
  | some .sequence => .stopped f .sequence
  | some .vanished => .stopped f .vanished
  | some .stallLimit => .stopped f .stallLimit
  | none => .stopped f .driveHalted

/-! ### Progress: the advance and the tail release (R101, R51, R48) -/

/-- A move in MOVING or BLOCKED whose indices changed takes its state by R48 and triggers the arbiter; another move
keeps its state (R48, R101, R107). -/
def State.settleProgress (s : State) (k : SlotIx) : State :=
  match s.move? k with
  | some m => if m.eligible then (s.settleByIndices k).trigger else s
  | none => s

/-- The advance of a move's front onto segment g (R101). -/
def State.advance (s : State) (m : Move) (g : Nat) : State :=
  let s1 := (s.mark g m.bench).updateMove m.slot fun x =>
    { x with
      f := x.f + 1
      shed := false
      silence := if x.f + 1 < x.h then x.silence.restart s.silenceFull else .stopped }
  let s2 := match m.lane with
    | some l => if s.isCell g && !s.isCell (m.seg m.f) then s1.enterCrossing l m.slot else s1
    | none => s1
  s2.settleProgress m.slot

/-- After a tail release: DONE when tail and front have both reached the last position and the move is not in STOPPING
(R38), else the state by R48. -/
def State.afterTail (s : State) (k : SlotIx) : State :=
  match s.move? k with
  | some m =>
    if m.t = m.f ∧ m.f + 1 = m.route.length ∧ m.state ≠ .stopping then s.endMove k .done .moveDone
    else s.settleProgress k
  | none => s

/-- The tail release (R51), with the crossing end it may carry (R75). -/
def State.tailRelease (s : State) (m : Move) : State :=
  let g := m.seg m.t
  let s1 := ((s.vacate g m.bench).release m.slot [g]).updateMove m.slot fun x =>
    { x with t := x.t + 1, stack := dropBottom x.stack }
  let s2 := match m.lane with
    | some l =>
      if s.isCell g && !s.isCell (m.seg (m.t + 1)) && s.lanes[l].crosses m.slot then s1.endCrossing l m.slot
      else s1
    | none => s1
  s2.afterTail m.slot

/-! ### Intrusion on a lane (R81 to R84) -/

/-- The slot of the lane's crossing move, when its crossing is entered. -/
def Lane.enteredSlot (ln : Lane) : Option SlotIx :=
  match ln.crossing with
  | some ⟨k, true⟩ => some k
  | some ⟨_, false⟩ => none
  | none => none

/-- An intrusion beside an entered crossing: the lane is put in fault and its crossing move stopped (R83). -/
def State.intrudeEntered (s : State) (l : LaneIx) (k : SlotIx) : State :=
  (s.putInFault l .intrusion).enterStopping k .intrusion

/-- An intrusion in FAULTED with no entered crossing (R84). -/
def State.intrudeFaulted (s : State) (l : LaneIx) : State :=
  let s1 := s.changeCause l .intrusion
  if s.lanes[l].cause = some .intrusion then s1 else s1.notify .laneFault

/-- The Lane Controller takes an intrusion by its state (R81 to R84); INTRUSION is latched. -/
def State.intrudeLane (s : State) (l : LaneIx) : State :=
  let s1 := match s.lanes[l].state with
    | .quiet => s.settleLane l
    | .offering => s.settleLane l
    | .settling => s.settleLane l
    | .crossing => match s.lanes[l].enteredSlot with
      | some k => s.intrudeEntered l k
      | none => (s.revokeGrant l).settleLane l
    | .faulted => match s.lanes[l].enteredSlot with
      | some k => s.intrudeEntered l k
      | none => s.intrudeFaulted l
  s1.notify .intrusion

/-! ### Announcements (R9, R17) -/

/-- The change from record r to record g is announced: it opens the segment, or removes the fence of one that is
surveyed, unheld and unoccupied (R9, R17). -/
def Segment.announcedBy (r g : Segment) : Bool := g.isOpen && (!r.isOpen || (r.fenced && !g.fenced))

/-- The records a change has announced (R9, R17). A change keeps the records of the table in their places. -/
def announced (before after : List Segment) : List Segment :=
  ((before.zip after).filter fun x => x.1.announcedBy x.2).map (·.2)

/-- On an announcement of a cell or berth of a lane its controller asks again for its waiting crossing (R78). -/
def State.announceLane (s : State) (a : List Segment) (l : LaneIx) : State :=
  if a.any (fun g => g.kind.lane = some l) then s.askRest l else s

/-- Deliver together the announcements of the change from `before` to `s`: to the lanes concerned and, as one trigger,
to the arbiter (R9). The requests they bring are steps of their own (assumptions 6 and 7). -/
def State.announce (before s : State) : State :=
  let a := announced before.segs s.segs
  if a.isEmpty then s
  else ((((s.announceLane a 0).announceLane a 1).announceLane a 2).announceLane a 3).trigger

end Sys2Proof.Machine
end

