-- ==== Sys2Proof/Machine/Arbiter.lean ====
section
/-!
DEFINITION. The Extension Arbiter (chapter 3): passes in priority order, visits, the wait-chain check, shedding and
unresolved rings.
-/

namespace Sys2Proof.Machine

/-! ### Priority (R42) -/

/-- The rank of a class: DISPATCH before RESTOCK before SERVICE (R42). -/
def MoveClass.rank : MoveClass → Nat
  | .dispatch => 0
  | .restock => 1
  | .service => 2

/-- Move a comes before move b in priority order (R42). -/
def Move.before (a b : Move) : Bool :=
  a.cls.rank < b.cls.rank || (a.cls.rank = b.cls.rank && a.admission < b.admission)

/-- Insert a move into a list in priority order. -/
def insertByPriority (m : Move) : List Move → List Move
  | [] => [m]
  | x :: rest => if x.before m then x :: insertByPriority m rest else m :: x :: rest

/-- The moves in priority order, highest first (R42). -/
def byPriority : List Move → List Move
  | [] => []
  | m :: rest => insertByPriority m (byPriority rest)

/-! ### Passes (R41, R42, R58) -/

/-- A yield mark when a pass begins. -/
def Yield.onPassStart : Yield → Yield
  | .clear => .clear
  | .beforePass => .inPass
  | .inPass => .inPass

/-- A yield mark when a pass ends: it clears if a pass has begun since the shedding (R58). -/
def Yield.onPassEnd : Yield → Yield
  | .clear => .clear
  | .beforePass => .beforePass
  | .inPass => .clear

/-- A pass ends: yield marks clear, which is a trigger, and a set further-pass mark is cleared and asks for one
further pass (R41, R58). -/
def State.endPass (s : State) : State :=
  let asked := s.arbiter.further || s.moves.any (fun m => m.yield = .inPass)
  let s1 :=
    { s with
      moves := s.moves.map fun m => { m with yield := m.yield.onPassEnd }
      arbiter := { s.arbiter with pass := none, check := none, further := false } }
  if asked then s1.trigger else s1

/-- Begin a pass: list the MOVING and BLOCKED moves in priority order (R42). -/
def State.beginPass (s : State) : State :=
  { s with
    moves := s.moves.map fun m => { m with yield := m.yield.onPassStart }
    arbiter := ⟨some ((byPriority (s.moves.filter (·.eligible))).map (·.slot)), none, false, false⟩ }

/-- A trigger reaches the arbiter (R41): in RUNNING mode it starts a pass, or asks for a further one during a pass; in
any other mode it is discarded. A pass that lists no move ends at once. -/
def State.startPass (s : State) : State :=
  match s.mode with
  | .running => match s.arbiter.pass with
    | some _ => { s with arbiter := { s.arbiter with further := true } }
    | none => if s.moves.any (·.eligible) then s.beginPass else s.beginPass.endPass
  | .starting => s
  | .halted => s
  | .blocking => s

/-! ### One visit (R44 to R47) -/

/-- Position i may be granted in a visit of m: within the reach, no lane cell, grantable (R44). -/
def State.mayExtend (s : State) (m : Move) (i : Nat) : Bool :=
  i < m.route.length && !s.isCell (m.seg i) && i ≤ m.f + s.timing.reach && s.grantable m.token (m.seg i)

/-- The next position of the visited move is granted: the first grant of a visit pushes an entry, a further one adds
to it, and the gridlocked flag clears (R45, R50, R61). -/
def Move.extended (m : Move) : Move :=
  { m with
    stack := if m.extending then addTop 1 m.stack else pushEntry 1 m.stack
    h := m.h + 1
    gridlocked := false
    extending := true }

/-- One grant of a visit, of position h + 1; a move with h = f starts its silence timer (R44, R45, R36). -/
def State.grantNext (s : State) (m : Move) : State :=
  (s.hold m.slot [m.seg (m.h + 1)]).updateMove m.slot fun x =>
    { x.extended with silence := if m.h = m.f then s.startTimer s.silenceFull else x.silence }

/-- Join the list of the berth the move stands on (R47). -/
def State.joinBerth (s : State) (m : Move) : State :=
  match s.berthOf (m.seg m.h) with
  | some (l, b) => (s.updateMove m.slot fun x => { x with lane := some l }).joinList l b m.slot
  | none => s

/-! ### The wait-chain check (R54 to R60) -/

/-- The segment a move is held up on, if it is held up (R54). -/
def State.heldUpOn (s : State) (m : Move) : Option Nat :=
  if m.eligible && m.h + 1 < m.route.length && !s.isCell (m.seg (m.h + 1)) && m.h + 1 ≤ m.f + s.timing.reach
      && !s.grantable m.token (m.seg (m.h + 1))
  then some (m.seg (m.h + 1)) else none

/-- The members of a ring, lowest priority first (R56). -/
def State.ringMembers (s : State) (ring : List SlotIx) : List Move :=
  (byPriority (s.moves.filter fun m => m.slot ∈ ring)).reverse

/-- Shed a chosen move (R57). -/
def State.shedMove (s : State) (k : SlotIx) (len : Nat) : State :=
  let s1 := (s.restore k).updateMove k fun m =>
    { m with shed := true, yield := .beforePass, state := .blocked, silence := .stopped }
  { s1 with gridlock := ⟨k, len, false⟩ }.notify .gridlock

/-- Report an unresolved ring (R60). -/
def State.reportRing (s : State) (ring : List SlotIx) (members : List Move) : State :=
  let s1 := { s with moves := s.moves.map fun m => if m.slot ∈ ring then { m with gridlocked := true } else m }
  match members with
  | [] => s1
  | m :: _ =>
    if members.all (·.gridlocked) then s1
    else { s1 with gridlock := ⟨m.slot, ring.length, true⟩ }.notify .gridlock

/-- Act on a ring: shed the first member that holds ahead and bears no shed mark, or report it (R56). -/
def State.breakRing (s : State) (ring : List SlotIx) : State :=
  let members := s.ringMembers ring
  match members.find? (fun m => m.f < m.h && !m.shed) with
  | some m => s.shedMove m.slot ring.length
  | none => s.reportRing ring members

/-- The wait-chain check begins with the move alone, at its next segment (R55). -/
def State.beginCheck (s : State) (m : Move) : State :=
  { s with arbiter := { s.arbiter with check := some ⟨[m.slot], m.seg (m.h + 1)⟩ } }

/-- The wait-chain check ends. -/
def State.endCheck (s : State) : State := { s with arbiter := { s.arbiter with check := none } }

/-- Every member of a ring is still MOVING or BLOCKED: through one that a report or an order has since stalled or
stopped there is no ring (R63). -/
def State.ringStands (s : State) (ring : List SlotIx) : Bool := ring.all fun k => (s.move? k).any (·.eligible)

/-- One link of the wait-chain check: what the holder of its segment is, as it then stands (R55, R63). -/
def State.followChain (s : State) (c : WaitCheck) : State :=
  match s.holder c.segment with
  | none => s.endCheck
  | some k =>
    if k ∈ c.chain then
      let ring := c.chain.dropWhile (· ≠ k)
      if s.ringStands ring then s.endCheck.breakRing ring else s.endCheck
    else match (s.move? k).bind s.heldUpOn with
      | none => s.endCheck
      | some g =>
        if c.chain.length < Config.chainDepth then
          { s with arbiter := { s.arbiter with check := some ⟨c.chain ++ [k], g⟩ } }
        else s.endCheck

/-! ### A turn of the pass -/

/-- Settle the visited move's state by Table 3.2, with the join or the check it brings (R46, R47, R55). -/
def State.settleVisit (s : State) (m : Move) : State :=
  let s1 := s.updateMove m.slot fun x => { x with state := s.tableState m, extending := false }
  match s.tableState m with
  | .laneWait => s1.joinBerth m
  | .blocked => s1.beginCheck m
  | .moving => s1
  | .crossing => s1
  | .stalled => s1
  | .stopping => s1

/-- The turn of the head of the pass is over. -/
def State.dropTurn (s : State) : State := { s with arbiter := { s.arbiter with pass := s.arbiter.pass.map List.tail } }

/-- The pass ends with its last turn, the check after it included (R42, R55). -/
def State.closePass (s : State) : State := if s.arbiter.pass = some [] ∧ s.arbiter.check = none then s.endPass else s

/-- The next request in the turn of a slot: a move that has ended, is no longer MOVING or BLOCKED, or bears a yield
mark is passed over (R42); another is granted its next position, and where that is refused its visit stops and it is
settled (R44 to R47). -/
def State.turn (s : State) (k : SlotIx) : State :=
  match s.move? k with
  | none => s.dropTurn
  | some m =>
    if m.eligible && m.yield = .clear then
      (if s.mayExtend m (m.h + 1) then s.grantNext m else s.dropTurn.settleVisit m)
    else s.dropTurn

/-- In HALTED mode the arbiter asks for nothing more: a visit that has granted leaves its move in the state of R48,
and the pass ends (R41, R42, R134, assumption 28). -/
def State.cutPass (s : State) : State :=
  { s with
    moves := s.moves.map fun (m : Move) =>
      if m.extending then { m with state := s.indexState m, extending := false } else m }.endPass

/-- The next request of the pass in progress: a link of the wait-chain check, or a grant, the settling or the passing
over of the move whose turn it is (R42 to R47, R55). -/
def State.request (s : State) : State :=
  match s.arbiter.pass with
  | none => s
  | some p =>
    match s.mode with
    | .running =>
      match s.arbiter.check, p with
      | some c, _ => (s.followChain c).closePass
      | none, [] => s.endPass
      | none, k :: _ => (s.turn k).closePass
    | .starting => s.cutPass
    | .halted => s.cutPass
    | .blocking => s.cutPass

/-- A visit is under way: its move has been granted a position in it, or the check after it runs. -/
def State.midVisit (s : State) : Bool :=
  s.arbiter.check.isSome ||
    match s.arbiter.pass with
    | some (k :: _) => (s.move? k).any (·.extending)
    | some [] => false
    | none => false

/-- The rest of a visit, request after request with nothing between them; `fuel` bounds how many. -/
def State.finishVisit : Nat → State → State
  | 0, s => s
  | fuel + 1, s => if s.midVisit then State.finishVisit fuel s.request else s

/-- A whole visit, or the rest of the one under way (R44 to R47, R55). -/
def State.visit (s : State) : State := State.finishVisit Config.visitRequests s.request

/-- One request of the arbiter as a step of the part's own, so that other requests and snapshots may come between two
of one visit (R7, R43, R45, R55, assumption 23). -/
def State.requestStep (s : State) : Host.Outcome State Fault Refusal := .next (s.announce s.request)

/-- EXTENSION_PASS: a trigger reaches the arbiter, which starts a pass (R41). -/
def execExtensionPass (s : State) : Host.Outcome State Fault Refusal := .next s.startPass

/-- EXTENSION_VISIT: the next turn of the pass in progress, whole, or the rest of the one under way (R44). -/
def execExtensionVisit (s : State) : Host.Outcome State Fault Refusal := .next (s.announce s.visit)

/-- OFFER_CHECK: the Lane Controller asks for the whole crossing of the head move at the offered berth (R70, R71). -/
def execOfferCheck (l : LaneIx) (s : State) : Host.Outcome State Fault Refusal := .next (s.offerCheck l)

end Sys2Proof.Machine
end

