-- ==== Sys2Proof/Machine/Orders.lean ====
section
/-!
DEFINITION. The Order Dispatcher (chapter 7): the take of an order, the overrun of a live slot, and what each of the
ten order kinds does, from R16 to R21, R25 to R29, R89, R126 to R133 and R142.
-/

namespace Sys2Proof.Machine

/-! ### MOVE (R25 to R29) -/

/-- The queue entry a MOVE order makes (R30). -/
def queuedOrder (k : SlotIx) (tag : Byte) (c : MoveClass) (o : OrderRecord) : QueuedOrder :=
  ⟨k, tag, o.bench, c, o.retries, o.ids⟩

/-- A MOVE that passed its field and route checks: admitted, queued, or refused (R27 to R29). -/
def State.placeMove (s : State) (k : SlotIx) (q : QueuedOrder) : State :=
  let entryFree := decide (s.moves.length < Config.moveTableSize)
  match s.admissionFault q.bench (q.route.headD 0) entryFree with
  | some r => s.refuse k r
  | none =>
    if entryFree then s.admitOrder q
    else if s.queue.length < Config.pendingQueueSize then { s with queue := s.queue ++ [q] }
    else s.refuse k .full

/-- MOVE: the field checks, the route check, then placement (R25, R26). -/
def moveOrder (k : SlotIx) (o : OrderRecord) (s : State) : State :=
  match moveClass o.classCode with
  | none => s.refuse k .badKind
  | some c =>
    if o.bench = 0 then s.refuse k .badKind
    else if s.routeOk o.length o.ids then s.placeMove k (queuedOrder k s.orders[k].lastTag c o)
    else s.refuse k .badRoute

/-! ### CANCEL (R126 to R128) -/

/-- Remove a queued order from any position (R127). -/
def State.unqueue (s : State) (k : SlotIx) : State :=
  { s with queue := s.queue.filter fun q => q.slot ≠ k }

/-- CANCEL by the target slot's state (Table 6.2). -/
def cancelOrder (k : SlotIx) (o : OrderRecord) (s : State) : State :=
  if h : o.target < 32 then
    let target : SlotIx := ⟨o.target, h⟩
    match s.link target with
    | .queueEntry _ => ((s.unqueue target).setVerdict target (.cancelled 0)).applied k
    | .tableEntry _ => (s.enterStopping target .cancel).applied k
    | .absent => s.refuse k .notLive
  else s.refuse k .notLive

/-! ### FENCE, UNFENCE, VOUCH (R16 to R18) -/

/-- The list check of FENCE, UNFENCE and VOUCH (R16). -/
def State.listOk (s : State) (o : OrderRecord) : Bool :=
  1 ≤ o.length && o.length ≤ 12 && o.ids.all s.configured

/-- FENCE (R17). -/
def fenceOrder (k : SlotIx) (o : OrderRecord) (s : State) : State :=
  if s.listOk o then (s.setFence o.ids .host).applied k else s.refuse k .badSegment

/-- UNFENCE (R17). -/
def unfenceOrder (k : SlotIx) (o : OrderRecord) (s : State) : State :=
  if s.listOk o then (s.removeFence o.ids).applied k else s.refuse k .badSegment

/-- What VOUCH does to a listed segment (R18). -/
def Segment.vouched (g : Segment) : Segment :=
  if g.surveyed then g else { g with surveyed := true, occupant := none }

/-- VOUCH (R18). -/
def vouchOrder (k : SlotIx) (o : OrderRecord) (s : State) : State :=
  if s.listOk o then
    if o.ids.any (fun g => (s.holder g).isSome) then s.refuse k .heldSegment
    else (s.updateSegs o.ids Segment.vouched).applied k
  else s.refuse k .badSegment

/-! ### TOKEN (R20) -/

/-- The bench holds a token: in the table, or carried by its live move (R20 test 2). -/
def State.holdsToken (s : State) (b : Nat) : Bool :=
  s.tokens.contains b || (s.moveOfBench b).any (·.token)

/-- TOKEN (R20). -/
def tokenOrder (k : SlotIx) (o : OrderRecord) (s : State) : State :=
  if o.bench = 0 then s.refuse k .badKind
  else if s.holdsToken o.bench then s.refuse k .tokenHeld
  else match s.moveOfBench o.bench with
    | some m => ((s.updateMove m.slot fun x => { x with token := true }).applied k).trigger
    | none =>
      if s.tokens.length < Config.tokenTableSize then { s with tokens := s.tokens ++ [o.bench] }.applied k
      else s.refuse k .tokenFull

/-! ### LANE_CLEAR (R89) -/

/-- The occupant is UNKNOWN or a bench that has no live move (Table 4.4, row 4). -/
def State.unmanagedOccupant (s : State) (x : Occupant) : Bool :=
  match x with
  | .unknown => true
  | .bench b => (s.moveOfBench b).isNone

/-- The occupant is a bench of the lane's crossing move, that move being in CROSSING or STALLED (Table 4.4, row 6). -/
def State.clearableOccupant (s : State) (l : LaneIx) (x : Occupant) : Bool :=
  match x with
  | .unknown => false
  | .bench b => match s.moveOfBench b with
    | some m => s.lanes[l].crosses m.slot && m.state ≠ .stopping
    | none => false

/-- A FAULTED lane returns to CROSSING under a fresh crossing limit (Table 4.4, row 6). -/
def State.laneToCrossing (s : State) (l : LaneIx) : State :=
  s.updateLane l fun ln =>
    { ln with
      state := .crossing
      cause := none
      crossingTimer := s.startTimer (s.crossingFull l)
      offered := true
      crossed := true }

/-- A FAULTED lane leaves its fault and starts a round (Table 4.4, row 7; R88). -/
def State.leaveFault (s : State) (l : LaneIx) : State :=
  (s.updateLane l fun ln => { ln with cause := none, releaseTimer := .stopped }).startRound l

/-- A SETTLING lane starts a round (R84; Table 4.4, row 3). -/
def State.leaveSettling (s : State) (l : LaneIx) : State :=
  (s.updateLane l fun ln => { ln with settleTimer := .stopped }).startRound l

/-- LANE_CLEAR of a FAULTED lane, by what its cells record (Table 4.4, rows 4 to 7; assumption 20). -/
def State.clearFaulted (s : State) (k : SlotIx) (l : LaneIx) : State :=
  let xs := s.cellOccupants l
  if xs.any s.unmanagedOccupant then s.refuse k .laneBusyStranded
  else if xs.isEmpty then (s.leaveFault l).applied k
  else if xs.all (s.clearableOccupant l) then (s.laneToCrossing l).applied k
  else s.refuse k .laneOccupied

/-- LANE_CLEAR by the first row of Table 4.4 that fits (R89). -/
def laneClearOrder (k : SlotIx) (o : OrderRecord) (s : State) : State :=
  if h : o.target < 4 then
    let l : LaneIx := ⟨o.target, h⟩
    if s.lanes[l].layout.isNone then s.refuse k .notFaulted
    else match s.lanes[l].state with
      | .quiet => s.refuse k .notFaulted
      | .offering => s.refuse k .notFaulted
      | .crossing => s.refuse k .notFaulted
      | .settling => (s.leaveSettling l).applied k
      | .faulted => s.clearFaulted k l
  else s.refuse k .notFaulted

/-! ### STOP_ALL and RESUME (R90, R91, R130, R133) -/

/-- Freeze the two timers of a move (R130). -/
def Move.freeze (m : Move) : Move := { m with silence := m.silence.freeze, backoff := m.backoff.freeze }

/-- Freeze the four timers of a lane (R90). -/
def Lane.freeze (ln : Lane) : Lane :=
  { ln with
    offerTimer := ln.offerTimer.freeze
    crossingTimer := ln.crossingTimer.freeze
    settleTimer := ln.settleTimer.freeze
    releaseTimer := ln.releaseTimer.freeze }

/-- The part halts: the mode, the timers, the arbiter's marks, and no resumed crossing is asked for (R41, R90, R130). -/
def State.haltPart (s : State) : State :=
  { s with
    mode := .halted
    moves := s.moves.map Move.freeze
    lanes := s.lanes.map Lane.freeze
    crossingAsks := Vector.replicate 4 false
    arbiter := { s.arbiter with further := false, due := false } }

/-- STOP_ALL (R130). -/
def stopAllOrder (k : SlotIx) (_o : OrderRecord) (s : State) : State :=
  match s.mode with
  | .running => s.haltPart.applied k
  | .halted => s.applied k
  | .starting => s.applied k
  | .blocking => s.applied k

/-- Restart the frozen timers of a move in full (R133). -/
def State.thawMove (s : State) (m : Move) : Move :=
  { m with silence := m.silence.thaw s.silenceFull, backoff := m.backoff.thaw s.backoffFull }

/-- Restart the frozen timers of a lane in full (R91). -/
def State.thawLane (s : State) (l : LaneIx) : State :=
  s.updateLane l fun ln =>
    { ln with
      offerTimer := ln.offerTimer.thaw (s.offerFull l)
      crossingTimer := ln.crossingTimer.thaw (s.crossingFull l)
      settleTimer := ln.settleTimer.thaw (s.settleFull l)
      releaseTimer := ln.releaseTimer.thaw (s.releaseFull l) }

/-- What RESUME does beyond the mode and the moves: each lane's timers restart in full, each resumed crossing is to be
asked for again, and admission is triggered (R78, R91, R133). -/
def State.thawLanes (s : State) : State :=
  let s1 := (((s.thawLane 0).thawLane 1).thawLane 2).thawLane 3
  ((((s1.askRest 0).askRest 1).askRest 2).askRest 3).trigger

/-- The part resumes (R91, R133). The requests that RESUME brings are steps of their own (assumptions 6 and 7). -/
def State.resumePart (s : State) : State :=
  State.thawLanes { s with mode := .running, moves := s.moves.map s.thawMove }

/-- RESUME (R133). -/
def resumeOrder (k : SlotIx) (_o : OrderRecord) (s : State) : State :=
  match s.mode with
  | .halted => s.resumePart.applied k
  | .running => s.applied k
  | .starting => s.applied k
  | .blocking => s.applied k

/-- NOTICE_MASK: the enable set is replaced (R142). -/
def noticeMaskOrder (k : SlotIx) (o : OrderRecord) (s : State) : State :=
  { s with enable := o.mask }.applied k

/-- An order whose kind code names no kind is refused with BAD_KIND (R141). -/
def unknownOrder (k : SlotIx) (_o : OrderRecord) (s : State) : State := s.refuse k .badKind

/-! ### The take (R137, R139 to R141) -/

/-- Carry out an order by its kind (R141, Table 7.2). -/
def carryOrder (kind : Option OrderKind) : SlotIx → OrderRecord → State → State :=
  match kind with
  | some .move => moveOrder
  | some .cancel => cancelOrder
  | some .fence => fenceOrder
  | some .unfence => unfenceOrder
  | some .vouch => vouchOrder
  | some .token => tokenOrder
  | some .laneClear => laneClearOrder
  | some .stopAll => stopAllOrder
  | some .resume => resumeOrder
  | some .noticeMask => noticeMaskOrder
  | none => unknownOrder

/-- A take in a live slot: the overrun (R139). -/
def State.overrun (s : State) (k : SlotIx) : State :=
  ((s.updateOrder k fun o => { o with overrun := true }).notify .slotOverrun).notify .orderRefused

/-- A take in a slot that is not live clears the overrun flag and the reason (R140, R141 step 1). -/
def State.clearVerdict (s : State) (k : SlotIx) : State :=
  s.updateOrder k fun o => { o with overrun := false, verdict := .free }

/-- A whole-word write of the tag word is merged: shadow word 7 takes the written value (R137). -/
def State.mergeTag (s : State) (k : SlotIx) (w : Word) : State :=
  s.updateOrder k fun o => { o with shadow := o.shadow.set 7 w }

/-- The record a take in slot k reads (R137). -/
def State.orderOf (s : State) (k : SlotIx) : OrderRecord := orderRecord s.orders[k].shadow

/-- Take an order in slot k with tag word w: one change, with all the requests it makes (R137, R139, R141). -/
def State.takeOrder (s : State) (carry : SlotIx → OrderRecord → State → State) (k : SlotIx) (w : Word) : State :=
  let s1 := (s.mergeTag k w).updateOrder k fun o => { o with lastTag := tagOf w }
  if s1.live k then s1.overrun k
  else if s1.mode = .blocking then (s1.clearVerdict k).refuse k .imageFault
  else s.announce (carry k (s1.orderOf k) (s1.clearVerdict k))

/-- A permitted whole-word write to an order slot's tag word (R137). -/
def State.orderTagWrite (s : State) (carry : SlotIx → OrderRecord → State → State) (k : SlotIx) (w : Word) : State :=
  if takes w s.orders[k].lastTag then s.takeOrder carry k w else s.mergeTag k w

end Sys2Proof.Machine
end

