-- ==== Sys2Proof/Machine/Reports.lean ====
section
/-!
DEFINITION. The Report Interpreter (chapter 5): the take of a report, the checks of R99, and the judgement of each of
the six report kinds against the segments, moves and lanes.
-/

namespace Sys2Proof.Machine

/-- A judgement: the state a report leaves, and its acceptance. -/
abbrev Judgement := State × Acceptance

/-- A report out of step: its bench's move enters STOPPING with reason SEQUENCE (R102, R107, R109). -/
def State.outOfStep (s : State) (m : Move) (r : RejectReason) : Judgement :=
  (s.enterStopping m.slot .sequence, .rejected r)

/-! ### Intrusions by ARRIVED (R103 to R105) -/

/-- The bench an intrusion's occupancy mark names: 0 for a bench with a live move (R103). -/
def intruderMark (mv : Option Move) (b : Nat) : Nat :=
  match mv with
  | some _ => 0
  | none => b

/-- The intruding bench's own move, if it has one, enters STOPPING (R103 to R105). -/
def State.stopIntruder (s : State) (mv : Option Move) : State :=
  match mv with
  | some m => s.enterStopping m.slot .intrusion
  | none => s

/-- Intrusion into unheld rail (R103). -/
def State.intrudeUnheld (s : State) (mv : Option Move) (b g : Nat) : State :=
  ((((s.setFence [g] .intrusion).mark g (intruderMark mv b)).notify .intrusion).stopIntruder mv)

/-- Intrusion into rail held by the move in slot k (R104). -/
def State.intrudeHeld (s : State) (mv : Option Move) (b g : Nat) (k : SlotIx) : State :=
  let s1 := (s.enterStopping k .intrusion).setFence [g] .intrusion
  let keeps : Bool := match s.move? k with
    | some m2 => decide (s1.occupant g = some (.bench m2.bench))
    | none => false
  let s2 := if keeps then s1 else s1.mark g (intruderMark mv b)
  (s2.notify .intrusion).stopIntruder mv

/-- The segment records the bench of the lane's crossing move (R105). -/
def State.carriesCrosser (s : State) (l : LaneIx) (g : Nat) : Bool :=
  match s.lanes[l].crossing with
  | some r => match s.move? r.slot with
    | some m => decide (s.occupant g = some (.bench m.bench))
    | none => false
  | none => false

/-- Intrusion on a lane cell (R105). -/
def State.intrudeCell (s : State) (mv : Option Move) (b g : Nat) (l : LaneIx) : State :=
  let s1 := s.intrudeLane l
  let s2 := if s.carriesCrosser l g then s1 else s1.mark g (intruderMark mv b)
  (s2.notify .intrusion).stopIntruder mv

/-- An ARRIVED that is an intrusion, by what s is and who holds it (R100, R106). -/
def State.intrude (s : State) (mv : Option Move) (b g : Nat) : State :=
  match s.cellLane g with
  | some l => s.intrudeCell mv b g l
  | none => match s.holder g with
    | some k => s.intrudeHeld mv b g k
    | none => s.intrudeUnheld mv b g

/-! ### The six kinds -/

/-- ARRIVED (R100, R106). -/
def arrivedReport (b g : Nat) (s : State) : Judgement :=
  match s.moveOfBench b with
  | some m =>
    if s.holder g = some m.slot then
      if m.t = m.f then
        if g = m.seg (m.f + 1) then (s.advance m g, .accepted) else s.outOfStep m .sequence
      else s.outOfStep m .overlength
    else (s.intrude (some m) b g, .accepted)
  | none =>
    if b ≠ 0 ∧ s.occupant g = some (.bench b) then (s, .unmanaged)
    else (s.intrude none b g, .unmanaged)

/-- LEFT (R107, R108). -/
def leftReport (b g : Nat) (s : State) : Judgement :=
  match s.moveOfBench b with
  | some m =>
    if g = m.seg m.t then
      if m.f = m.t + 1 then (s.tailRelease m, .accepted) else (s, .rejected .emptyBench)
    else s.outOfStep m .sequence
  | none => (s.vacate g b, .unmanaged)

/-- The segment is one the move's bench is recorded on: route position t or f (R109). -/
def Move.standsOn (m : Move) (g : Nat) : Bool := g = m.seg m.t || g = m.seg m.f

/-- What a STALLED report that passes R109 does, by the move's state (R110). -/
def State.takeStall (s : State) (m : Move) : State :=
  match m.state with
  | .moving => s.stallMove m.slot
  | .blocked => s.stallMove m.slot
  | .laneWait => s.stallMove m.slot
  | .crossing => s.stallMove m.slot
  | .stalled => s.stallAgain m.slot
  | .stopping => s

/-- STALLED (R109, R110). -/
def stalledReport (b g : Nat) (s : State) : Judgement :=
  match s.moveOfBench b with
  | some m => if m.standsOn g then (s.takeStall m, .accepted) else s.outOfStep m .sequence
  | none => (s, .unmanaged)

/-- The end a HALTED report gives a move (R111, R129). -/
def State.takeHalt (s : State) (m : Move) : State :=
  if m.state = .stopping then s.endMove m.slot (EndReason.verdict m.endReason) .moveStopped
  else s.endMove m.slot (fun f => .stopped f .driveHalted) .moveStopped

/-- HALTED (R109, R111). -/
def haltedReport (b g : Nat) (s : State) : Judgement :=
  match s.moveOfBench b with
  | some m => if m.standsOn g then (s.takeHalt m, .accepted) else s.outOfStep m .sequence
  | none => (s, .unmanaged)

/-- A SEEN surveys a segment: a recorded occupant is kept, and none becomes UNKNOWN (R14). -/
def Segment.seen (g : Segment) : Segment :=
  { g with surveyed := true, occupant := some (g.occupant.getD .unknown) }

/-- SEEN on a surveyed segment with no holder and no occupant (R113). -/
def State.seenIntrusion (s : State) (g : Nat) : State :=
  match s.cellLane g with
  | some l => ((s.intrudeLane l).mark g 0).notify .intrusion
  | none => ((s.setFence [g] .intrusion).mark g 0).notify .intrusion

/-- SEEN by the condition of the segment (R112, Table 5.7). The bench field is not read. -/
def seenReport (_b g : Nat) (s : State) : Judgement :=
  match s.seg? g with
  | none => (s, .rejected .badSegment)
  | some r =>
    if !r.surveyed then (s.updateSegs [g] Segment.seen, .accepted)
    else match r.occupant with
      | some (.bench b) => (s.heard b, .accepted)
      | some .unknown => (s, .accepted)
      | none => if r.holder.isSome then (s, .accepted) else (s.seenIntrusion g, .accepted)

/-- A vanished bench with no live move: one request clears the record and fences the segment (R116). -/
def State.vanishUnmanaged (s : State) (g : Nat) : State :=
  ((s.clear g).setFence [g] .vanished).notify .vanished

/-- A vanished managed bench (R117). -/
def State.vanishManaged (s : State) (m : Move) (g : Nat) : State :=
  (((s.survey g).setFence [g] .vanished).notify .vanished).enterStopping m.slot .vanished

/-- The live move of a recorded occupant, if it is a bench that has one (Table 5.8). -/
def State.moveOfOccupant (s : State) (x : Option Occupant) : Option Move :=
  match x with
  | some (.bench b) => s.moveOfBench b
  | some .unknown => none
  | none => none

/-- EMPTY by the first row of Table 5.8 that fits (R114). The bench field is not read. -/
def emptyReport (_b g : Nat) (s : State) : Judgement :=
  match s.seg? g with
  | none => (s, .rejected .badSegment)
  | some r =>
    match s.moveOfOccupant r.occupant with
    | some m => (s.vanishManaged m g, .accepted)
    | none =>
      if !r.surveyed then ((s.survey g).clear g, .accepted)
      else match r.occupant with
        | some .unknown => (s.clear g, .accepted)
        | some (.bench _) => (s.vanishUnmanaged g, .accepted)
        | none => (s, .accepted)

/-! ### The checks and the take (R96 to R99) -/

/-- Checks 3 and 4 of R99, then the judgement; an accepted report of a named bench restarts its move's silence (R36,
R98, assumption 24). -/
def checkedReport (judge : Nat → Nat → State → Judgement) (namesBench : Bool) (r : ReportRecord) (s : State) :
    Judgement :=
  if namesBench && r.bench = 0 then (s, .rejected .badKind)
  else if s.configured r.segment then judge r.bench r.segment s
  else (s, .rejected .badSegment)

/-- The move of a bench named by an accepted report has been heard of (R36, R98). -/
def hearing (judge : Nat → Nat → State → Judgement) (b g : Nat) (s : State) : Judgement :=
  let j := judge b g s
  if j.2 = .accepted then (j.1.heard b, j.2) else j

/-- A report of a kind, from its record (R99 to R114). -/
def carryArrived (r : ReportRecord) (s : State) : Judgement := checkedReport (hearing arrivedReport) false r s

/-- LEFT from its record. -/
def carryLeft (r : ReportRecord) (s : State) : Judgement := checkedReport (hearing leftReport) true r s

/-- STALLED from its record. -/
def carryStalled (r : ReportRecord) (s : State) : Judgement := checkedReport (hearing stalledReport) true r s

/-- HALTED from its record. -/
def carryHalted (r : ReportRecord) (s : State) : Judgement := checkedReport (hearing haltedReport) true r s

/-- SEEN from its record. -/
def carrySeen (r : ReportRecord) (s : State) : Judgement := checkedReport seenReport false r s

/-- EMPTY from its record. -/
def carryEmpty (r : ReportRecord) (s : State) : Judgement := checkedReport emptyReport false r s

/-- A report whose kind code names no kind (R99 check 2). -/
def carryUnknownReport (_r : ReportRecord) (s : State) : Judgement := (s, .rejected .badKind)

/-- Carry out a report by its kind (R99). -/
def carryReport (kind : Option ReportKind) : ReportRecord → State → Judgement :=
  match kind with
  | some .arrived => carryArrived
  | some .left => carryLeft
  | some .stalled => carryStalled
  | some .halted => carryHalted
  | some .seen => carrySeen
  | some .empty => carryEmpty
  | none => carryUnknownReport

/-- A rejection latches REPORT_REJECTED (R98). -/
def State.noteRejection (s : State) (x : Acceptance) : State :=
  match x with
  | .rejected _ => s.notify .reportRejected
  | .accepted => s
  | .unmanaged => s
  | .free => s

/-- Shadow word 3 takes the written value (R96). -/
def State.mergeReportTag (s : State) (j : ReportIx) (w : Word) : State :=
  s.updateReport j fun r => { r with shadow := r.shadow.set 3 w }

/-- The judgement of a taken report: BLOCKING mode first (R99 check 1), then its kind. -/
def State.judge (s : State) (carry : ReportRecord → State → Judgement) (j : ReportIx) : Judgement :=
  if s.mode = .blocking then (s, .rejected .imageFault) else carry (reportRecord s.reports[j].shadow) s

/-- Take a report in slot j with tag word w: one change, with the acceptance set in it (R96, R97). -/
def State.takeReport (s : State) (carry : ReportRecord → State → Judgement) (j : ReportIx) (w : Word) : State :=
  let s1 := (s.mergeReportTag j w).updateReport j fun r => { r with lastTag := tagOf w }
  let v := s1.judge carry j
  s.announce ((v.1.updateReport j fun r => { r with acceptance := v.2, judgedTag := tagOf w }).noteRejection v.2)

/-- A permitted whole-word write to a report slot's tag word (R96). -/
def State.reportTagWrite (s : State) (carry : ReportRecord → State → Judgement) (j : ReportIx) (w : Word) : State :=
  if takes w s.reports[j].lastTag then s.takeReport carry j w else s.mergeReportTag j w

end Sys2Proof.Machine
end

