-- ==== Sys2Proof/Machine/Path.lean ====
section
/-!
DEFINITION. The Bus Passage Unit and the Slot Capture Unit (chapter 8): windows, guards and denials, ring writes by
Table 8.1, ring reads by Table 8.2 with the per-burst snapshot, and the meanings of the bus rows.
-/

namespace Sys2Proof.Machine

/-! ### Windows and regions (R152, R153) -/

/-- The window matches the address (R152). -/
def Window.covers (w : Window) (a : WordAddr) : Bool := (a ^^^ w.base) &&& ~~~ w.mask == 0

/-- What a permitted word is, by its place in the rings (R152). -/
inductive Region where
  | outside
  | header (word : Fin 8)
  | orderWord (slot : SlotIx) (word : Fin 8)
  | orderPlain
  | reportWord (slot : ReportIx) (word : Fin 4)
  deriving DecidableEq, Repr

/-- The region of an Order Ring offset, 0 to 511 (R152). -/
def orderRegion (offset : Nat) : Region :=
  if offset < 8 then .header (Fin.ofNat 8 offset)
  else if offset < 264 then .orderWord (Fin.ofNat 32 (offset / 8 - 1)) (Fin.ofNat 8 offset)
  else .orderPlain

/-- The region of a Report Ring offset, 0 to 63 (R152). -/
def reportRegion (offset : Nat) : Region := .reportWord (Fin.ofNat 16 (offset / 4)) (Fin.ofNat 4 offset)

/-- The region of an address under the established windows (R152). -/
def Windows.region (ws : Windows) (a : WordAddr) : Region :=
  if ws.orderRing.covers a then orderRegion (field a 0 9)
  else if ws.reportRing.covers a then reportRegion (field a 0 6)
  else .outside

/-- The permission a guard window gives a master in a direction (R153). -/
def Guard.allows (g : Guard) (m : Master) (d : Direction) : Bool :=
  match m, d with
  | .planner, .read => g.plannerRead
  | .planner, .write => g.plannerWrite
  | .field, .read => g.fieldRead
  | .field, .write => g.fieldWrite

/-- At least one matching guard window denies the word (R153). -/
def Windows.denies (ws : Windows) (m : Master) (d : Direction) (a : WordAddr) : Bool :=
  ws.guards.any fun g => g.window.covers a && !g.allows m d

/-! ### Writes (R153, R155, R156) -/

/-- What the path does with a written word. -/
inductive WriteCase where
  | passes
  | suppressed
  | denied
  | partialTag
  | mergeOrder (slot : SlotIx) (word : Fin 8)
  | mergeReport (slot : ReportIx) (word : Fin 4)
  | orderTag (slot : SlotIx)
  | reportTag (slot : ReportIx)
  deriving DecidableEq, Repr

/-- Table 8.1, order slot words. -/
def orderWrite (m : Master) (lanes : Lanes) (k : SlotIx) (w : Fin 8) : WriteCase :=
  if w = 5 ∨ w = 6 then .suppressed
  else match m with
    | .field => .denied
    | .planner =>
      if w = 7 then (if lanes = allLanes then .orderTag k else .partialTag) else .mergeOrder k w

/-- Table 8.1, report slot words. -/
def reportWrite (m : Master) (lanes : Lanes) (j : ReportIx) (w : Fin 4) : WriteCase :=
  if w = 2 then .suppressed
  else match m with
    | .planner => .denied
    | .field =>
      if w = 3 then (if lanes = allLanes then .reportTag j else .partialTag) else .mergeReport j w

/-- The judgement of a written word: the guards, then Table 8.1, the master before the lanes (R153, R155). -/
def Windows.writeCase (ws : Windows) (m : Master) (lanes : Lanes) (a : WordAddr) : WriteCase :=
  if ws.denies m .write a then .denied
  else match ws.region a with
    | .outside => .passes
    | .header _ => .suppressed
    | .orderWord k w => orderWrite m lanes k w
    | .orderPlain => .passes
    | .reportWord j w => reportWrite m lanes j w

/-- The judgement of a written word in this state; with no window known every word passes (R160, R162). -/
def State.writeCase (s : State) (w : WriteWord) : WriteCase :=
  match s.windows with
  | none => .passes
  | some ws => ws.writeCase w.master w.lanes (effAddr w.master w.addr)

/-- Merge written lanes into an order shadow word (R136). -/
def State.mergeOrderWord (s : State) (k : SlotIx) (i : Fin 8) (lanes : Lanes) (data : Word) : State :=
  s.updateOrder k fun o => { o with shadow := o.shadow.set i (mergeLanes lanes data o.shadow[i]) }

/-- Merge written lanes into a report shadow word (R156). -/
def State.mergeReportWord (s : State) (j : ReportIx) (i : Fin 4) (lanes : Lanes) (data : Word) : State :=
  s.updateReport j fun r => { r with shadow := r.shadow.set i (mergeLanes lanes data r.shadow[i]) }

/-- The kind the shadow of an order slot names (R141). -/
def State.kindOf (s : State) (k : SlotIx) : Option OrderKind := orderKind (s.orderOf k).kindCode

/-- The kind the shadow of a report slot names (R99). -/
def State.reportKindOf (s : State) (j : ReportIx) : Option ReportKind :=
  reportKind (reportRecord s.reports[j].shadow).kindCode

/-- The written word reaches memory (R151). -/
def State.storeWord (s : State) (w : WriteWord) : State := s.store (effAddr w.master w.addr) w.lanes w.data

/-- One word of a write transfer, whole (R151 to R156). -/
def State.busWrite (s : State) (w : WriteWord) : State :=
  match s.writeCase w with
  | .passes => s.storeWord w
  | .suppressed => s
  | .denied => s.deny (effAddr w.master w.addr) w.master .write
  | .partialTag => s.notify .partialTag
  | .mergeOrder k i => (s.storeWord w).mergeOrderWord k i w.lanes w.data
  | .mergeReport j i => (s.storeWord w).mergeReportWord j i w.lanes w.data
  | .orderTag k => (s.storeWord w).orderTagWrite (carryOrder (s.kindOf k)) k w.data
  | .reportTag j => (s.storeWord w).reportTagWrite (carryReport (s.reportKindOf j)) j w.data

/-! ### The takes of the table's rows -/

/-- A whole-word write (R137, R96). -/
def wholeWrite (m : Master) (addr : WordAddr) (tag : Word) : WriteWord := ⟨m, addr, allLanes, tag⟩

/-- The slot from which a PLANNER whole-word write takes an order of this kind, if it does (R137). -/
def State.orderTaken (s : State) (kind : Option OrderKind) (addr : WordAddr) (tag : Word) : Option SlotIx :=
  match s.writeCase (wholeWrite .planner addr tag) with
  | .orderTag k => if takes tag s.orders[k].lastTag && s.kindOf k = kind then some k else none
  | .passes => none
  | .suppressed => none
  | .denied => none
  | .partialTag => none
  | .mergeOrder _ _ => none
  | .mergeReport _ _ => none
  | .reportTag _ => none

/-- The slot from which a FIELD whole-word write takes a report of this kind, if it does (R96). -/
def State.reportTaken (s : State) (kind : Option ReportKind) (addr : WordAddr) (tag : Word) : Option ReportIx :=
  match s.writeCase (wholeWrite .field addr tag) with
  | .reportTag j => if takes tag s.reports[j].lastTag && s.reportKindOf j = kind then some j else none
  | .passes => none
  | .suppressed => none
  | .denied => none
  | .partialTag => none
  | .mergeOrder _ _ => none
  | .mergeReport _ _ => none
  | .orderTag _ => none

/-- A row that hands in an order of one kind: the tag write reaches memory and the order is taken and carried out. A
write that does not take an order of the kind is what the path finds it to be (assumption 1). -/
def State.orderRow (s : State) (kind : Option OrderKind) (carry : SlotIx → OrderRecord → State → State)
    (addr : WordAddr) (tag : Word) : State :=
  match s.orderTaken kind addr tag with
  | some k => (s.storeWord (wholeWrite .planner addr tag)).takeOrder carry k tag
  | none => s.busWrite (wholeWrite .planner addr tag)

/-- A row that hands in a report of one kind. -/
def State.reportRow (s : State) (kind : Option ReportKind) (carry : ReportRecord → State → Judgement)
    (addr : WordAddr) (tag : Word) : State :=
  match s.reportTaken kind addr tag with
  | some j => (s.storeWord (wholeWrite .field addr tag)).takeReport carry j tag
  | none => s.busWrite (wholeWrite .field addr tag)

/-! ### Reads (R153, R157 to R159) -/

/-- The address of word j of a read burst, as the part decodes it (R151). Past the last word address the burst goes
on at address 0 (assumption 9). -/
def burstAddr (r : ReadWord) (j : Nat) : WordAddr := effAddr r.master (r.start + BitVec.ofNat 22 j)

/-- The address of the word being read. -/
def readAddr (r : ReadWord) : WordAddr := burstAddr r r.index

/-- Word j of the burst is permitted and is header word w. -/
def Windows.readsHeader (ws : Windows) (r : ReadWord) (w : Fin 8) (j : Nat) : Bool :=
  !ws.denies r.master .read (burstAddr r j) && ws.region (burstAddr r j) = .header w

/-- The burst includes header word w among its permitted words not yet served (R159, R153, assumption 22). -/
def Windows.includes (ws : Windows) (r : ReadWord) (w : Fin 8) : Bool :=
  (List.range r.len.words).any fun j => r.index ≤ j && ws.readsHeader r w j

/-- The clearing that a PLANNER read makes in the change that takes the header snapshot (R159, R168, R172, R62). -/
def State.clearRead (s : State) (ws : Windows) (r : ReadWord) : State :=
  match r.master with
  | .field => s
  | .planner =>
    { s with
      notices := if ws.includes r 0 then 0 else s.notices
      guardCapture := if ws.includes r 4 then .empty else s.guardCapture
      gridlock := if ws.includes r 5 then .empty else s.gridlock }

/-- Take the header snapshot unless the burst has one (R159). -/
def State.snapHeader (s : State) (ws : Windows) (r : ReadWord) : State :=
  match s.latch.header with
  | some _ => s
  | none => { s.clearRead ws r with latch := { s.latch with header := some s.headerWords } }

/-- The header word the burst's snapshot holds (R159). -/
def State.snappedHeader (s : State) (w : Fin 8) : Word :=
  match s.latch.header with
  | some h => h[w]
  | none => s.headerWords[w]

/-- The snapshot of an order slot the latch holds (R158). -/
def Latch.order? (x : Latch) (k : SlotIx) : Option OrderSnap := x.orders.find? (fun o => o.slot == k)

/-- The snapshot of a report slot the latch holds (R158). -/
def Latch.report? (x : Latch) (j : ReportIx) : Option ReportSnap := x.reports.find? (fun o => o.slot == j)

/-- The part values of an order slot at this moment (R158). -/
def State.orderSnap (s : State) (k : SlotIx) : OrderSnap := ⟨k, s.verdictWord k, s.authorityWord k⟩

/-- The part values of a report slot at this moment (R158). -/
def State.reportSnap (s : State) (j : ReportIx) : ReportSnap := ⟨j, s.acceptanceWord j⟩

/-- Take an order slot's snapshot unless the burst has it (R158). -/
def State.snapOrder (s : State) (k : SlotIx) : State :=
  match s.latch.order? k with
  | some _ => s
  | none => { s with latch := { s.latch with orders := s.orderSnap k :: s.latch.orders } }

/-- Take a report slot's snapshot unless the burst has it (R158). -/
def State.snapReport (s : State) (j : ReportIx) : State :=
  match s.latch.report? j with
  | some _ => s
  | none => { s with latch := { s.latch with reports := s.reportSnap j :: s.latch.reports } }

/-- Table 8.2, order slot words. -/
def State.orderRead (s : State) (k : SlotIx) (w : Fin 8) (a : WordAddr) : Word :=
  if w = 5 then ((s.latch.order? k).getD (s.orderSnap k)).verdict
  else if w = 6 then ((s.latch.order? k).getD (s.orderSnap k)).authority
  else memWord s.mem a

/-- Table 8.2, report slot words. -/
def State.reportRead (s : State) (j : ReportIx) (w : Fin 4) (a : WordAddr) : Word :=
  if w = 2 then ((s.latch.report? j).getD (s.reportSnap j)).acceptance else memWord s.mem a

/-- The word returned to a read (R151). -/
def State.returns (s : State) (d : Word) : State := { s with readData := d }

/-- A permitted read word, by its region (R157, Table 8.2). A word that memory returns comes with all four byte lanes
(assumption 29). -/
def State.readRegion (s : State) (ws : Windows) (r : ReadWord) : State :=
  match ws.region (readAddr r) with
  | .outside => s.returns (memWord s.mem (readAddr r))
  | .header w => (s.snapHeader ws r).returns ((s.snapHeader ws r).snappedHeader w)
  | .orderWord k w => (s.snapOrder k).returns ((s.snapOrder k).orderRead k w (readAddr r))
  | .orderPlain => s.returns (memWord s.mem (readAddr r))
  | .reportWord j w => (s.snapReport j).returns ((s.snapReport j).reportRead j w (readAddr r))

/-- A read word under the windows in force (R153, R157, R160). A word that memory returns comes with all four byte
lanes, before the windows are known too (assumption 29). -/
def State.serveRead (s : State) (r : ReadWord) : State :=
  match s.windows with
  | none => s.returns (memWord s.mem (readAddr r))
  | some ws =>
    if ws.denies r.master .read (readAddr r) then (s.returns 0).deny (readAddr r) r.master .read else s.readRegion ws r

/-- The snapshot latch empties (R158). -/
def State.emptyLatch (s : State) : State := { s with latch := .empty }

/-- One word of a read transfer: the latch begins the burst empty, and empties when it ends (R151, R158). -/
def State.readWord (s : State) (r : ReadWord) : State :=
  let s1 := (if r.index = 0 then s.emptyLatch else s).serveRead r
  if r.len.words ≤ r.index + 1 then s1.emptyLatch else s1

/-! ### The rows of the bus -/

/-- MOVE (R25 to R29). -/
def execMove (addr : WordAddr) (tag : Word) (s : State) : Host.Outcome State Fault Refusal :=
  .next (s.orderRow (some .move) moveOrder addr tag)

/-- CANCEL (R126 to R128). -/
def execCancel (addr : WordAddr) (tag : Word) (s : State) : Host.Outcome State Fault Refusal :=
  .next (s.orderRow (some .cancel) cancelOrder addr tag)

/-- FENCE (R16, R17). -/
def execFence (addr : WordAddr) (tag : Word) (s : State) : Host.Outcome State Fault Refusal :=
  .next (s.orderRow (some .fence) fenceOrder addr tag)

/-- UNFENCE (R16, R17). -/
def execUnfence (addr : WordAddr) (tag : Word) (s : State) : Host.Outcome State Fault Refusal :=
  .next (s.orderRow (some .unfence) unfenceOrder addr tag)

/-- VOUCH (R16, R18). -/
def execVouch (addr : WordAddr) (tag : Word) (s : State) : Host.Outcome State Fault Refusal :=
  .next (s.orderRow (some .vouch) vouchOrder addr tag)

/-- TOKEN (R20). -/
def execToken (addr : WordAddr) (tag : Word) (s : State) : Host.Outcome State Fault Refusal :=
  .next (s.orderRow (some .token) tokenOrder addr tag)

/-- LANE_CLEAR (R89). -/
def execLaneClear (addr : WordAddr) (tag : Word) (s : State) : Host.Outcome State Fault Refusal :=
  .next (s.orderRow (some .laneClear) laneClearOrder addr tag)

/-- STOP_ALL (R130). -/
def execStopAll (addr : WordAddr) (tag : Word) (s : State) : Host.Outcome State Fault Refusal :=
  .next (s.orderRow (some .stopAll) stopAllOrder addr tag)

/-- RESUME (R133). -/
def execResume (addr : WordAddr) (tag : Word) (s : State) : Host.Outcome State Fault Refusal :=
  .next (s.orderRow (some .resume) resumeOrder addr tag)

/-- NOTICE_MASK (R142). -/
def execNoticeMask (addr : WordAddr) (tag : Word) (s : State) : Host.Outcome State Fault Refusal :=
  .next (s.orderRow (some .noticeMask) noticeMaskOrder addr tag)

/-- ORDER_OF_UNKNOWN_KIND (R141). -/
def execOrderOfUnknownKind (addr : WordAddr) (tag : Word) (s : State) : Host.Outcome State Fault Refusal :=
  .next (s.orderRow none unknownOrder addr tag)

/-- ARRIVED (R100). -/
def execArrived (addr : WordAddr) (tag : Word) (s : State) : Host.Outcome State Fault Refusal :=
  .next (s.reportRow (some .arrived) carryArrived addr tag)

/-- LEFT (R107). -/
def execLeft (addr : WordAddr) (tag : Word) (s : State) : Host.Outcome State Fault Refusal :=
  .next (s.reportRow (some .left) carryLeft addr tag)

/-- STALLED (R110). -/
def execStalled (addr : WordAddr) (tag : Word) (s : State) : Host.Outcome State Fault Refusal :=
  .next (s.reportRow (some .stalled) carryStalled addr tag)

/-- HALTED (R111). -/
def execHalted (addr : WordAddr) (tag : Word) (s : State) : Host.Outcome State Fault Refusal :=
  .next (s.reportRow (some .halted) carryHalted addr tag)

/-- SEEN (R112). -/
def execSeen (addr : WordAddr) (tag : Word) (s : State) : Host.Outcome State Fault Refusal :=
  .next (s.reportRow (some .seen) carrySeen addr tag)

/-- EMPTY (R114). -/
def execEmpty (addr : WordAddr) (tag : Word) (s : State) : Host.Outcome State Fault Refusal :=
  .next (s.reportRow (some .empty) carryEmpty addr tag)

/-- REPORT_OF_UNKNOWN_KIND (R99). -/
def execReportOfUnknownKind (addr : WordAddr) (tag : Word) (s : State) : Host.Outcome State Fault Refusal :=
  .next (s.reportRow none carryUnknownReport addr tag)

/-- ORDER_RECORD_WRITE (R136): a PLANNER write. -/
def execOrderRecordWrite (addr : WordAddr) (lanes : Lanes) (data : Word) (s : State) :
    Host.Outcome State Fault Refusal :=
  .next (s.busWrite ⟨.planner, addr, lanes, data⟩)

/-- REPORT_RECORD_WRITE (R156): a FIELD write. -/
def execReportRecordWrite (addr : WordAddr) (lanes : Lanes) (data : Word) (s : State) :
    Host.Outcome State Fault Refusal :=
  .next (s.busWrite ⟨.field, addr, lanes, data⟩)

/-- PARTIAL_TAG_WRITE (R138, R156). -/
def execPartialTagWrite (w : WriteWord) (s : State) : Host.Outcome State Fault Refusal := .next (s.busWrite w)

/-- BUS_WRITE (R152). -/
def execBusWrite (w : WriteWord) (s : State) : Host.Outcome State Fault Refusal := .next (s.busWrite w)

/-- DENIED_READ (R153). -/
def execDeniedRead (r : ReadWord) (s : State) : Host.Outcome State Fault Refusal := .next (s.readWord r)

/-- NOTICE_WORD_READ (R168). -/
def execNoticeWordRead (r : ReadWord) (s : State) : Host.Outcome State Fault Refusal := .next (s.readWord r)

/-- GUARD_CAPTURE_READ (R172). -/
def execGuardCaptureRead (r : ReadWord) (s : State) : Host.Outcome State Fault Refusal := .next (s.readWord r)

/-- GRIDLOCK_CAPTURE_READ (R62). -/
def execGridlockCaptureRead (r : ReadWord) (s : State) : Host.Outcome State Fault Refusal := .next (s.readWord r)

end Sys2Proof.Machine
end

