-- ==== Sys2Proof/Machine/Expiries.lean ====
section
/-!
DEFINITION. The timer expiries of moves and lanes (R37, R72, R74, R84, R86, R88, R123, R124). An expiry acts only on a
timer that runs, in the state that timer belongs to (assumption 4).
-/

namespace Sys2Proof.Machine

/-- Expiry of a move's silence timer, by the move's state (R37). -/
def State.silenceExpiry (s : State) (k : SlotIx) : State :=
  match s.move? k with
  | none => s
  | some m =>
    if m.silence.isRunning then
      if m.state = .stopping then s.endMove k (fun f => .stopped f .silent) .moveStopped
      else s.enterStopping k .silent
    else s

/-- The lane whose crossing record names the slot with the entered mark yes (R123). -/
def State.enteredLane (s : State) (k : SlotIx) : Option LaneIx :=
  ([0, 1, 2, 3] : List LaneIx).find? fun l => s.lanes[l].entered k

/-- One retry is spent and the move becomes eligible, on its lane or off it (R123, R78); either way the expiry is a
trigger of the arbiter (R41, Table 3.1). -/
def State.retryMove (s : State) (k : SlotIx) : State :=
  let s1 := s.updateMove k fun m => { m with retries := m.retries - 1, backoff := .stopped }
  match s.enteredLane k with
  | some l => ((s1.updateMove k fun m => { m with state := .crossing }).resumeCrossing l).trigger
  | none => (s1.settleByIndices k).trigger

/-- Expiry of a stalled move's back-off timer (R123, R124). -/
def State.backoffExpiry (s : State) (k : SlotIx) : State :=
  match s.move? k with
  | none => s
  | some m =>
    if m.state = .stalled && m.backoff.isRunning then
      if m.retries = 0 then s.enterStopping k .stallLimit else s.retryMove k
    else s

/-- The head of a list of more than one goes to its tail (R72). -/
def rotateHead : List SlotIx → List SlotIx
  | [] => []
  | k :: rest => rest ++ [k]

/-- Expiry of the offer timer in OFFERING (R72). -/
def State.offerLapse (s : State) (l : LaneIx) : State :=
  if s.lanes[l].state = .offering ∧ s.lanes[l].offerTimer.isRunning then
    (s.updateLane l fun ln =>
      { ln with
        offerTimer := .stopped
        lists := ln.lists.set ln.berth (rotateHead ln.lists[ln.berth]) }).advanceLane l
  else s

/-- The lane's crossing record is present with the entered mark no. -/
def Lane.awaitsEntry (ln : Lane) : Bool :=
  match ln.crossing with
  | some r => !r.entered
  | none => false

/-- Expiry of the offer timer in CROSSING before entry (R74). -/
def State.entryDeadlineLapse (s : State) (l : LaneIx) : State :=
  if s.lanes[l].state = .crossing ∧ s.lanes[l].offerTimer.isRunning ∧ s.lanes[l].awaitsEntry then
    (s.revokeGrant l).advanceLane l
  else s

/-- Expiry of the crossing timer (R86). -/
def State.crossingLimitExpiry (s : State) (l : LaneIx) : State :=
  if s.lanes[l].state = .crossing ∧ s.lanes[l].crossingTimer.isRunning then s.faultLane l .crossingLimit else s

/-- Expiry of the settle timer (R84). -/
def State.settleExpiry (s : State) (l : LaneIx) : State :=
  if s.lanes[l].state = .settling ∧ s.lanes[l].settleTimer.isRunning then s.leaveSettling l else s

/-- Expiry of the release timer (R88). -/
def State.releaseExpiry (s : State) (l : LaneIx) : State :=
  if s.lanes[l].state = .faulted ∧ s.lanes[l].releaseTimer.isRunning then s.leaveFault l else s

/-- SILENCE_EXPIRY (R37). -/
def execSilenceExpiry (k : SlotIx) (s : State) : Host.Outcome State Fault Refusal :=
  .next (s.announce (s.silenceExpiry k))

/-- BACKOFF_EXPIRY (R123, R124). -/
def execBackoffExpiry (k : SlotIx) (s : State) : Host.Outcome State Fault Refusal :=
  .next (s.announce (s.backoffExpiry k))

/-- OFFER_LAPSE (R72). -/
def execOfferLapse (l : LaneIx) (s : State) : Host.Outcome State Fault Refusal :=
  .next (s.announce (s.offerLapse l))

/-- ENTRY_DEADLINE_LAPSE (R74). -/
def execEntryDeadlineLapse (l : LaneIx) (s : State) : Host.Outcome State Fault Refusal :=
  .next (s.announce (s.entryDeadlineLapse l))

/-- CROSSING_LIMIT_EXPIRY (R86). -/
def execCrossingLimitExpiry (l : LaneIx) (s : State) : Host.Outcome State Fault Refusal :=
  .next (s.announce (s.crossingLimitExpiry l))

/-- SETTLE_EXPIRY (R84). -/
def execSettleExpiry (l : LaneIx) (s : State) : Host.Outcome State Fault Refusal :=
  .next (s.announce (s.settleExpiry l))

/-- RELEASE_EXPIRY (R88). -/
def execReleaseExpiry (l : LaneIx) (s : State) : Host.Outcome State Fault Refusal :=
  .next (s.announce (s.releaseExpiry l))

end Sys2Proof.Machine
end

