-- ==== Sys2Proof/Machine/Image.lean ====
section
/-!
DEFINITION. The Image Loader's reading of the Layout Image (chapters 10 and 11): code words, zones, the window and
structure checks, the TIMING values and the LABEL, and the outcome a load gives.
-/

namespace Sys2Proof.Machine

/-! ### Code words (R174, R185) -/

/-- The outcome of a code word (R174). -/
inductive CodeOutcome where
  | clean (w : Word)
  | corrected (w : Word)
  | uncorrectable
  deriving DecidableEq, Repr

/-- The code positions of the data bits d0 to d31 (R185). -/
def dataPositions : List Nat :=
  [3, 5, 6, 7, 9, 10, 11, 12, 13, 14, 15, 17, 18, 19, 20, 21, 22, 23, 24, 25, 26, 27, 28, 29, 30, 31,
    33, 34, 35, 36, 37, 38]

/-- The code position of bit b of a code word; the overall parity bit, bit 38, has none and counts as 0 (R185). -/
def codePosition (b : Nat) : Nat :=
  if b < 32 then dataPositions.getD b 0
  else if b < 38 then 2 ^ (b - 32)
  else if b = 39 then 39
  else 0

/-- The bits of a code word that are one. -/
def onesOf (c : CodeWord) : List Nat := (List.range 40).filter fun b => c.getLsbD b

/-- The syndrome S: bit j is the parity of the positions with bit j set in their index, which is the exclusive or of
the positions that hold a one (R185). -/
def syndrome (c : CodeWord) : Nat := (onesOf c).foldl (fun x b => x ^^^ codePosition b) 0

/-- The overall parity P is odd (R185). -/
def oddParity (c : CodeWord) : Bool := (onesOf c).length % 2 = 1

/-- The image word of a code word, bits 31:0. -/
def imageWord (c : CodeWord) : Word := c.setWidth 32

/-- The image word with the bit at position p inverted, where p is the position of a data bit (R185). -/
def correctedWord (c : CodeWord) (p : Nat) : Word :=
  if p ∈ dataPositions then imageWord c ^^^ BitVec.twoPow 32 (dataPositions.idxOf p) else imageWord c

/-- Judge a code word (R185). -/
def judgeCode (c : CodeWord) : CodeOutcome :=
  if oddParity c then
    if syndrome c = 0 then .corrected (imageWord c)
    else if syndrome c ≤ 39 then .corrected (correctedWord c (syndrome c))
    else .uncorrectable
  else if syndrome c = 0 then .clean (imageWord c)
  else .uncorrectable

/-- The word to be used, if there is one (R174). -/
def CodeOutcome.word? : CodeOutcome → Option Word
  | .clean w => some w
  | .corrected w => some w
  | .uncorrectable => none

/-- A bit was corrected (R174). -/
def CodeOutcome.wasCorrected : CodeOutcome → Bool
  | .clean _ => false
  | .corrected _ => true
  | .uncorrectable => false

/-! ### Zones (R175, R176) -/

/-- A zone whose zone word is good: its words after the zone word, and whether any word of it, the zone word
included, was corrected. -/
structure Zone where
  words : List (Option Word)
  corrected : Bool
  deriving DecidableEq, Repr

/-- Read a zone of the expected kind; none where its zone word fails (R175). Code words the memory does not give are
uncorrectable (assumption 15). -/
def readZone (kind greatest : Nat) (code : List CodeWord) : Option (Zone × List CodeWord) :=
  match code with
  | [] => none
  | c :: rest => match (judgeCode c).word? with
    | none => none
    | some z =>
      let n := field z 8 12
      if field z 0 8 = kind ∧ 1 ≤ n ∧ n ≤ greatest then
        let got := (rest.take n).map judgeCode
        some (⟨got.map (·.word?) ++ List.replicate (n - got.length) none,
          (judgeCode c).wasCorrected || got.any (·.wasCorrected)⟩, rest.drop n)
      else none

/-- The three zones of an image, each none where R175 does not let it be read. -/
structure Zones where
  layout : Option Zone
  timing : Option Zone
  label : Option Zone
  deriving DecidableEq, Repr

/-- Read the zones in their fixed order; a failed zone word ends the reading (R173, R175). -/
def readZones (code : List CodeWord) : Zones :=
  match readZone 1 466 code with
  | none => ⟨none, none, none⟩
  | some (a, rest) => match readZone 2 14 rest with
    | none => ⟨some a, none, none⟩
    | some (b, rest2) => match readZone 3 1 rest2 with
      | none => ⟨some a, some b, none⟩
      | some (c, _) => ⟨some a, some b, some c⟩

/-- Every word of the zone was read. -/
def Zone.whole (z : Zone) : Bool := z.words.all (·.isSome)

/-- Word i of a zone, 1 being the word after the zone word; none where it is uncorrectable or beyond the length. -/
def Zone.word? (z : Zone) (i : Nat) : Option Word := (z.words.getD (i - 1) none)

/-- Word i of a zone beyond its stated length (R186). -/
def Zone.lacks (z : Zone) (i : Nat) : Bool := z.words.length < i

/-- The status of a zone (R176): `failed` is what R175 or R186 marks, `replaced` what R177 or R179 replaced. -/
def zoneStatus (z : Option Zone) (failed replaced : Bool) : ZoneStatus :=
  match z with
  | none => .error
  | some z => if failed || !z.whole then .error else if z.corrected || replaced then .warning else .ok

/-! ### LAYOUT: windows (R180 checks 1 to 3, R186) -/

/-- How many guard window entries the count word gives (Table 11.11). -/
def guardCount (counts : Word) : Nat := field counts 8 4

/-- The words of the zone that hold the count, the rings and the guards (Table 11.11). -/
def Zone.windowWords (z : Zone) : List Nat :=
  match z.word? 2 with
  | some counts => List.range' 2 (5 + 2 * guardCount counts)
  | none => [2, 3, 4, 5, 6]

/-- A count word, ring entry or guard entry lies beyond the zone's stated length (R186). -/
def Zone.windowsLost (z : Zone) : Bool := z.windowWords.any z.lacks

/-- The count word and every ring and guard entry were read (R180, R186). -/
def Zone.windowsRead (z : Zone) : Bool := z.windowWords.all fun i => (z.word? i).isSome

/-- Word i of a zone, 0 where it was not read. -/
def Zone.at (z : Zone) (i : Nat) : Word := (z.word? i).getD 0

/-- The window whose base and mask stand in words i and i + 1 (Table 11.11). -/
def Zone.window (z : Zone) (i : Nat) : Window := ⟨(z.at i).setWidth 22, (z.at (i + 1)).setWidth 22⟩

/-- The guard whose entry begins at word i (Table 11.11). -/
def Zone.guard (z : Zone) (i : Nat) : Guard :=
  ⟨z.window i, (z.at i).getLsbD 28, (z.at i).getLsbD 29, (z.at i).getLsbD 30, (z.at i).getLsbD 31⟩

/-- The windows of a LAYOUT zone (Table 11.11). -/
def Zone.windows (z : Zone) : Windows :=
  ⟨z.window 3, z.window 5, (List.range (guardCount (z.at 2))).map fun g => z.guard (7 + 2 * g)⟩

/-- Check 1: a ring's mask marks its low bits, and FIELD can reach the ring (Table 10.3). -/
def Window.placed (w : Window) (low : WordAddr) : Bool :=
  w.mask &&& low == low && w.base &&& ~~~ w.mask &&& 0x3C0000#22 == 0

/-- Check 2: some address matches both windows (Table 10.3). -/
def Window.overlaps (a b : Window) : Bool := (a.base ^^^ b.base) &&& ~~~ a.mask &&& ~~~ b.mask == 0

/-- The window checks: the code of the first that fails, 0 where they pass (Table 10.3). -/
def Windows.check (ws : Windows) : Nat :=
  if !(ws.orderRing.placed 0x1FF#22 && ws.reportRing.placed 0x3F#22) then 1
  else if ws.orderRing.overlaps ws.reportRing then 2
  else if 4 < ws.guards.length then 3
  else 0

/-! ### LAYOUT: segments and lanes (R180 checks 4 to 11, R186) -/

/-- The four bytes of a word, lowest first. -/
def bytesOf (w : Word) : List Nat := [byteField w 0, byteField w 1, byteField w 2, byteField w 3]

/-- A segment entry (Table 11.11). -/
structure SegEntry where
  id : Nat
  kind : Nat
  lane : Nat
  index : Nat
  linkCount : Nat
  links : List Nat
  deriving DecidableEq, Repr

/-- A lane entry (Table 11.11). -/
structure LaneEntry where
  number : Nat
  cellCount : Nat
  berthCount : Nat
  cells : List Nat
  berths : List Nat
  deriving DecidableEq, Repr

/-- The entries of a LAYOUT zone past the windows (Table 11.11). -/
structure Entries where
  segments : List SegEntry
  lanes : List LaneEntry
  fences : List Nat
  deriving DecidableEq, Repr

/-- The segment entry at word i. -/
def Zone.segEntry (z : Zone) (i : Nat) : SegEntry :=
  let w := z.at i
  ⟨field w 0 8, field w 8 2, field w 12 2, field w 16 3, field w 24 3,
    (bytesOf (z.at (i + 1))).take (field w 24 3)⟩

/-- The lane entry at word i. -/
def Zone.laneEntry (z : Zone) (i : Nat) : LaneEntry :=
  let w := z.at i
  ⟨field w 0 8, field w 8 4, field w 12 4,
    (bytesOf (z.at (i + 1)) ++ bytesOf (z.at (i + 2))).take (field w 8 4),
    (bytesOf (z.at (i + 3)) ++ bytesOf (z.at (i + 4))).take (field w 12 4)⟩

/-- How many segment entries the count word gives. -/
def segmentCount (counts : Word) : Nat := field counts 0 8

/-- How many lane entries the count word gives. -/
def laneCount (counts : Word) : Nat := field counts 12 4

/-- How many initial-fence entries the count word gives. -/
def fenceCount (counts : Word) : Nat := field counts 16 8

/-- The zone length that the counts give (R186). -/
def countedLength (counts : Word) : Nat :=
  6 + 2 * guardCount counts + 2 * segmentCount counts + 5 * laneCount counts + (fenceCount counts + 3) / 4

/-- The entries of a LAYOUT zone, located by its counts (Table 11.11). -/
def Zone.entries (z : Zone) : Entries :=
  let c := z.at 2
  let s0 := 7 + 2 * guardCount c
  let l0 := s0 + 2 * segmentCount c
  let f0 := l0 + 5 * laneCount c
  ⟨(List.range (segmentCount c)).map fun i => z.segEntry (s0 + 2 * i),
    (List.range (laneCount c)).map fun i => z.laneEntry (l0 + 5 * i),
    (((List.range ((fenceCount c + 3) / 4)).map fun i => bytesOf (z.at (f0 + i))).flatten).take (fenceCount c)⟩

/-- The entry of a segment ID. -/
def Entries.seg? (e : Entries) (g : Nat) : Option SegEntry := e.segments.find? fun x => x.id == g

/-- The ID is configured. -/
def Entries.has (e : Entries) (g : Nat) : Bool := (e.seg? g).isSome

/-- Segment a lists b as a link. -/
def Entries.links (e : Entries) (a b : Nat) : Bool :=
  match e.seg? a with
  | some x => x.links.contains b
  | none => false

/-- Check 4: the segment count and the zone's length (Table 10.3). -/
def Zone.countsOk (z : Zone) : Bool :=
  1 ≤ segmentCount (z.at 2) && segmentCount (z.at 2) ≤ 192 && z.words.length = countedLength (z.at 2)

/-- Check 5: segment IDs (Table 10.3). -/
def Entries.idsOk (e : Entries) : Bool :=
  e.segments.all (fun x => 1 ≤ x.id && x.id ≤ 192) && noRepeats (e.segments.map (·.id))

/-- Check 6: links (Table 10.3). -/
def Entries.linksOk (e : Entries) : Bool :=
  e.segments.all fun x =>
    1 ≤ x.linkCount && x.linkCount ≤ 4 && noRepeats x.links
      && x.links.all fun b => e.has b && b != x.id && e.links b x.id

/-- Check 7: the lane set (Table 10.3). -/
def Entries.lanesOk (e : Entries) : Bool :=
  e.lanes.length ≤ 4 && e.lanes.all (fun l => l.number ≤ 3) && noRepeats (e.lanes.map (·.number))

/-- The IDs a and b, b, c and so on of a list are linked. -/
def Entries.chained (e : Entries) : List Nat → Bool
  | [] => true
  | [_] => true
  | a :: b :: rest => e.links a b && e.chained (b :: rest)

/-- The ID is a segment of this kind that names this lane and this index. -/
def Entries.isAt (e : Entries) (kind lane : Nat) (g index : Nat) : Bool :=
  match e.seg? g with
  | some x => x.kind = kind && x.lane = lane && x.index = index
  | none => false

/-- Every listed ID is of the kind, names the lane, and names the index of its place from i on. -/
def Entries.inPlace (e : Entries) (kind lane : Nat) : Nat → List Nat → Bool
  | _, [] => true
  | i, g :: rest => e.isAt kind lane g i && e.inPlace kind lane (i + 1) rest

/-- Check 8: lane cells (Table 10.3). -/
def Entries.cellsOk (e : Entries) : Bool :=
  e.lanes.all fun l =>
    1 ≤ l.cellCount && l.cellCount ≤ 6 && e.inPlace 2 l.number 0 l.cells && e.chained l.cells

/-- Check 9: lane berths (Table 10.3). -/
def Entries.berthsOk (e : Entries) : Bool :=
  e.lanes.all fun l =>
    2 ≤ l.berthCount && l.berthCount ≤ 8 && e.inPlace 1 l.number 0 l.berths
      && l.berths.all fun b => l.cells.any fun c => e.links b c

/-- Check 10, of one segment: a cell or berth is listed by the lane it names, a PLAIN segment names no lane, and
there is no other kind (Table 10.3, R186, assumption 14). -/
def Entries.kindOk (e : Entries) (x : SegEntry) : Bool :=
  match x.kind with
  | 0 => x.lane = 0
  | 1 => e.lanes.any fun l => l.number = x.lane && l.berths.contains x.id
  | 2 => e.lanes.any fun l => l.number = x.lane && l.cells.contains x.id
  | _ => false

/-- Check 10: segment kinds, and no segment listed twice over (Table 10.3). -/
def Entries.kindsOk (e : Entries) : Bool :=
  e.segments.all e.kindOk && noRepeats (e.lanes.flatMap fun l => l.cells ++ l.berths)

/-- Check 11: initial fences (Table 10.3). -/
def Entries.fencesOk (e : Entries) : Bool := e.fences.length ≤ 192 && e.fences.all e.has

/-- Structure checks 4 to 11: the code of the first that fails, 0 where all pass (Table 10.3). -/
def Zone.structureCheck (z : Zone) : Nat :=
  let e := z.entries
  if !z.countsOk then 4
  else if !e.idsOk then 5
  else if !e.linksOk then 6
  else if !e.lanesOk then 7
  else if !e.cellsOk then 8
  else if !e.berthsOk then 9
  else if !e.kindsOk then 10
  else if !e.fencesOk then 11
  else 0

/-! ### LAYOUT: what it gives (R180, R181) -/

/-- What the LAYOUT zone gives: its status, the structure check code, and the windows if they are established. -/
structure LayoutFinding where
  status : ZoneStatus
  code : Nat
  windows : Option Windows
  deriving DecidableEq, Repr

/-- Judge the LAYOUT zone (R176, R180, R186). -/
def judgeLayout (z : Option Zone) : LayoutFinding :=
  match z with
  | none => ⟨.error, 0, none⟩
  | some y =>
    let st := zoneStatus z y.windowsLost false
    if !y.windowsRead then ⟨st, 0, none⟩
    else if y.windows.check ≠ 0 then ⟨st, y.windows.check, none⟩
    else if st = .error then ⟨st, 0, some y.windows⟩
    else ⟨st, y.structureCheck, some y.windows⟩

/-- The kind of a segment entry that passed the checks (Table 11.11). -/
def SegEntry.segKind (x : SegEntry) : SegKind :=
  if x.kind = 1 then .berth (Fin.ofNat 4 x.lane) (Fin.ofNat 8 x.index)
  else if x.kind = 2 then .laneCell (Fin.ofNat 4 x.lane) (Fin.ofNat 6 x.index)
  else .plain

/-- The segment record of an entry at the end of a load (R181, R13). -/
def Entries.record (e : Entries) (x : SegEntry) : Segment :=
  ⟨x.id, x.segKind, x.links, false, if e.fences.contains x.id then some .image else none, none, none⟩

/-- The Segment Table of the entries (R1, R181). -/
def Entries.table (e : Entries) : List Segment := e.segments.map e.record

/-- The cells and berths of a lane number, if the entries configure it (R64). -/
def Entries.layoutOf (e : Entries) (n : Nat) : Option LaneLayout :=
  (e.lanes.find? fun l => l.number == n).map fun l => ⟨l.cells, l.berths⟩

/-- The lanes at the end of a load (R92, R181). -/
def Entries.laneTable (e : Entries) : Vector Lane 4 := Vector.ofFn fun i => .fresh (e.layoutOf i.val)

/-! ### TIMING (R177, R186) -/

/-- A TIMING value: what it takes, and whether it was replaced by its default. -/
abbrev Timed (α : Type) := α × Bool

/-- A number of the TIMING zone within its range, else its default (R177); beyond the length, its default (R186). -/
def Zone.number (z : Zone) (i lo n least greatest dflt : Nat) : Timed Nat :=
  match z.word? i with
  | some w => if least ≤ field w lo n ∧ field w lo n ≤ greatest then (field w lo n, false) else (dflt, true)
  | none => (dflt, true)

/-- A flag of the TIMING zone; its default is off. -/
def Zone.flag (z : Zone) (i bit : Nat) : Timed Bool :=
  match z.word? i with
  | some w => (w.getLsbD bit, false)
  | none => (false, true)

/-- The notice enable set; its default enables every cause. -/
def Zone.enableSet (z : Zone) : Timed (BitVec 16) :=
  match z.word? 2 with
  | some w => (w.extractLsb' 16 16, false)
  | none => (0xFFFF#16, true)

/-- The TIMING values of lane k (Table 11.12, Table 10.2). -/
def Zone.laneTiming (z : Zone) (k : Nat) : Timed LaneTiming :=
  let offer := z.number (3 + 3 * k) 0 10 1 255 50
  let settle := z.number (3 + 3 * k) 16 10 1 255 30
  let release := z.number (4 + 3 * k) 0 10 1 255 20
  let limit := z.number (4 + 3 * k) 16 10 1 255 90
  let run := z.number (5 + 3 * k) 0 3 0 7 0
  let strict := z.flag (5 + 3 * k) 8
  let auto := z.flag (5 + 3 * k) 9
  (⟨offer.1, limit.1, settle.1, release.1, run.1, strict.1, auto.1⟩,
    offer.2 || settle.2 || release.2 || limit.2 || run.2 || strict.2 || auto.2)

/-- The TIMING values a readable zone gives, and whether any was replaced (R177). -/
def Zone.timing (z : Zone) : Timed Timing :=
  let prescale := z.number 1 0 16 8000 40000 8000
  let reach := z.number 1 16 3 1 6 3
  let silence := z.number 2 0 8 1 255 20
  let backoff := z.number 2 8 8 1 60 10
  let enable := z.enableSet
  let lanes := (z.laneTiming 0, z.laneTiming 1, z.laneTiming 2, z.laneTiming 3)
  (⟨prescale.1, silence.1, backoff.1, reach.1, enable.1,
      #v[lanes.1.1, lanes.2.1.1, lanes.2.2.1.1, lanes.2.2.2.1]⟩,
    prescale.2 || reach.2 || silence.2 || backoff.2 || enable.2
      || lanes.1.2 || lanes.2.1.2 || lanes.2.2.1.2 || lanes.2.2.2.2)

/-- The TIMING values and status of a load (R176, R177): an unreadable zone gives every default. -/
def judgeTiming (z : Option Zone) : Timing × ZoneStatus :=
  match z with
  | none => (.default, .error)
  | some y => if y.whole then (y.timing.1, zoneStatus z false y.timing.2) else (.default, .error)

/-! ### LABEL (R179) -/

/-- The revision and status of the LABEL zone; `site` is the LAYOUT site code where it may be compared (R179). -/
def judgeLabel (z : Option Zone) (site : Option Nat) : Byte × ZoneStatus :=
  match z with
  | none => (0, .error)
  | some y => match y.word? 1 with
    | none => (0, .error)
    | some w =>
      let differs := match site with
        | some c => c != field w 0 16
        | none => false
      (w.extractLsb' 16 8, zoneStatus z false differs)

/-! ### The outcome of a load (R176, R181) -/

/-- Everything a load found. -/
structure LoadOutcome where
  mode : Mode
  windows : Option Windows
  timing : Timing
  health : Health
  segs : List Segment
  lanes : Vector Lane 4
  deriving DecidableEq, Repr

/-- The LAYOUT site code, where LAYOUT is not in ERROR (R179). -/
def siteCode (z : Option Zone) (st : ZoneStatus) : Option Nat :=
  match z with
  | some y => if st = .error then none else some (field (y.at 1) 0 16)
  | none => none

/-- The mode a load ends in (R181 step 1). -/
def LayoutFinding.mode (f : LayoutFinding) : Mode :=
  if f.status = .error ∨ f.code ≠ 0 then .blocking else .running

/-- The entries a sound LAYOUT zone sets up; none in BLOCKING mode (R181 step 3). -/
def LayoutFinding.entries (f : LayoutFinding) (z : Option Zone) : Entries :=
  match z with
  | some y => if f.mode = .running then y.entries else ⟨[], [], []⟩
  | none => ⟨[], [], []⟩

/-- What a load of these code words finds (R173 to R181). -/
def loadOutcome (code : List CodeWord) : LoadOutcome :=
  let z := readZones code
  let f := judgeLayout z.layout
  let t := judgeTiming z.timing
  let b := judgeLabel z.label (siteCode z.layout f.status)
  let e := f.entries z.layout
  ⟨f.mode, f.windows, t.1, ⟨f.status, t.2, b.2, f.code, b.1⟩, e.table, e.laneTable⟩

/-- IMAGE_WARNING is latched: a zone in WARNING, or the TIMING zone in ERROR (R176). -/
def Health.warns (h : Health) : Bool :=
  h.layout = .warning || h.timing = .warning || h.label = .warning || h.timing = .error

end Sys2Proof.Machine
end

