-- ==== Sys2Proof/Machine/Starts.lean ====
section
/-!
DEFINITION. The starts of the part (section 10.4): power-on, the reset input, and the change that ends a load.
-/

namespace Sys2Proof.Machine

/-- A full load begins: the part is STARTING and holds no state (R173, R182). The board memory, the commands that
wait, and the model's own counter of choices are no state of the part. -/
def State.beginLoad (s : State) : State :=
  { State.reset with pending := s.pending, mem := s.mem, readData := s.readData, picks := s.picks }

/-- The notices of a start (R165). -/
def startNotices (warning fault : Bool) : BitVec 16 :=
  Notice.mask .restarted ||| (if warning then Notice.mask .imageWarning else 0)
    ||| (if fault then Notice.mask .imageFault else 0)

/-- The change that ends a load (R181). -/
def State.endLoad (s : State) (o : LoadOutcome) : State :=
  { s.beginLoad with
    mode := o.mode
    windows := o.windows
    timing := o.timing
    health := some o.health
    segs := o.segs
    lanes := o.lanes
    notices := startNotices o.health.warns (o.mode = .blocking)
    enable := o.timing.enable }

/-- A segment record at a line reset: holder removed, unsurveyed, fence and occupant kept (R183). -/
def Segment.lineReset (g : Segment) : Segment := { g with surveyed := false, holder := none }

/-- A line reset taken in RUNNING or HALTED mode (R183). -/
def State.warmReset (s : State) : State :=
  { s with
    mode := .running
    latch := .empty
    orders := Vector.replicate 32 .fresh
    reports := Vector.replicate 16 .fresh
    segs := s.segs.map Segment.lineReset
    moves := []
    queue := []
    admissionCounter := 0
    tokens := []
    arbiter := .idle
    lanes := s.lanes.map fun ln => .fresh ln.layout
    crossingAsks := Vector.replicate 4 false
    notices := startNotices false false
    enable := s.timing.enable
    guardCapture := .empty
    gridlock := .empty }

/-- The reset input is asserted, by the part mode (R173, R183). -/
def State.lineReset (s : State) : State :=
  match s.mode with
  | .running => s.warmReset
  | .halted => s.warmReset
  | .blocking => s.beginLoad
  | .starting => s.beginLoad

/-- The load ends; outside STARTING no load is in progress (R181, assumption 21). -/
def State.imageLoadEnd (s : State) (code : List CodeWord) : State :=
  match s.mode with
  | .starting => s.endLoad (loadOutcome code)
  | .running => s
  | .halted => s
  | .blocking => s

/-- POWER_ON (R182). -/
def execPowerOn (s : State) : Host.Outcome State Fault Refusal := .next s.beginLoad

/-- LINE_RESET (R183). -/
def execLineReset (s : State) : Host.Outcome State Fault Refusal := .next s.lineReset

/-- IMAGE_LOAD_END (R181). -/
def execImageLoadEnd (code : List CodeWord) (s : State) : Host.Outcome State Fault Refusal :=
  .next (s.imageLoadEnd code)

end Sys2Proof.Machine
end

