-- ==== Sys2Proof/Machine/Dispatch.lean ====
section
/-! DEFINITION. The meaning of every command: one arm for each constructor of Instr. -/

namespace Sys2Proof.Machine

def exec (i : Instr) (s : State) : Host.Outcome State Fault Refusal :=
  match i with
  | .move addr tag => Sys2Proof.Machine.execMove addr tag s
  | .cancel addr tag => Sys2Proof.Machine.execCancel addr tag s
  | .fence addr tag => Sys2Proof.Machine.execFence addr tag s
  | .unfence addr tag => Sys2Proof.Machine.execUnfence addr tag s
  | .vouch addr tag => Sys2Proof.Machine.execVouch addr tag s
  | .token addr tag => Sys2Proof.Machine.execToken addr tag s
  | .laneClear addr tag => Sys2Proof.Machine.execLaneClear addr tag s
  | .stopAll addr tag => Sys2Proof.Machine.execStopAll addr tag s
  | .resume addr tag => Sys2Proof.Machine.execResume addr tag s
  | .noticeMask addr tag => Sys2Proof.Machine.execNoticeMask addr tag s
  | .arrived addr tag => Sys2Proof.Machine.execArrived addr tag s
  | .left addr tag => Sys2Proof.Machine.execLeft addr tag s
  | .stalled addr tag => Sys2Proof.Machine.execStalled addr tag s
  | .halted addr tag => Sys2Proof.Machine.execHalted addr tag s
  | .seen addr tag => Sys2Proof.Machine.execSeen addr tag s
  | .empty addr tag => Sys2Proof.Machine.execEmpty addr tag s
  | .orderRecordWrite addr lanes data => Sys2Proof.Machine.execOrderRecordWrite addr lanes data s
  | .reportRecordWrite addr lanes data => Sys2Proof.Machine.execReportRecordWrite addr lanes data s
  | .partialTagWrite w => Sys2Proof.Machine.execPartialTagWrite w s
  | .busWrite w => Sys2Proof.Machine.execBusWrite w s
  | .deniedRead r => Sys2Proof.Machine.execDeniedRead r s
  | .noticeWordRead r => Sys2Proof.Machine.execNoticeWordRead r s
  | .guardCaptureRead r => Sys2Proof.Machine.execGuardCaptureRead r s
  | .gridlockCaptureRead r => Sys2Proof.Machine.execGridlockCaptureRead r s
  | .silenceExpiry slot => Sys2Proof.Machine.execSilenceExpiry slot s
  | .backoffExpiry slot => Sys2Proof.Machine.execBackoffExpiry slot s
  | .offerLapse lane => Sys2Proof.Machine.execOfferLapse lane s
  | .entryDeadlineLapse lane => Sys2Proof.Machine.execEntryDeadlineLapse lane s
  | .crossingLimitExpiry lane => Sys2Proof.Machine.execCrossingLimitExpiry lane s
  | .settleExpiry lane => Sys2Proof.Machine.execSettleExpiry lane s
  | .releaseExpiry lane => Sys2Proof.Machine.execReleaseExpiry lane s
  | .powerOn => Sys2Proof.Machine.execPowerOn s
  | .lineReset => Sys2Proof.Machine.execLineReset s
  | .imageLoadEnd code => Sys2Proof.Machine.execImageLoadEnd code s
  | .extensionPass => Sys2Proof.Machine.execExtensionPass s
  | .extensionVisit => Sys2Proof.Machine.execExtensionVisit s
  | .offerCheck lane => Sys2Proof.Machine.execOfferCheck lane s
  | .orderOfUnknownKind addr tag => Sys2Proof.Machine.execOrderOfUnknownKind addr tag s
  | .reportOfUnknownKind addr tag => Sys2Proof.Machine.execReportOfUnknownKind addr tag s

end Sys2Proof.Machine
end

