-- ==== Sys2Proof/Machine/Step.lean ====
section
/-!
DEFINITION. One step of the part: the command at the front of the queue, or, on an empty queue, a due step of the
part itself or a cycle of its clock (assumption 2).
-/

namespace Sys2Proof.Machine

/-! ### The part's own due steps -/

/-- A step of the part's own: one of its rows of the table, one request of a visit, which is a part of such a row
(assumption 23), or a Lane Controller's request for the rest of a resumed crossing, which has no row of its own
(assumption 7). -/
inductive OwnStep where
  | command (i : Instr)
  | request
  | rest (l : LaneIx)
  deriving DecidableEq, Repr

/-- The expiries of a move's timers that run with no time left. -/
def Move.dueSteps (m : Move) : List Instr :=
  (if m.silence.expired then [.silenceExpiry m.slot] else [])
    ++ (if m.backoff.expired then [.backoffExpiry m.slot] else [])

/-- The expiries of a lane's timers that run with no time left; the offer timer has two uses (R65). -/
def State.laneDueSteps (s : State) (l : LaneIx) : List Instr :=
  let ln := s.lanes[l]
  (if ln.offerTimer.expired then (if ln.state = .offering then [.offerLapse l] else [.entryDeadlineLapse l]) else [])
    ++ (if ln.crossingTimer.expired then [.crossingLimitExpiry l] else [])
    ++ (if ln.settleTimer.expired then [.settleExpiry l] else [])
    ++ (if ln.releaseTimer.expired then [.releaseExpiry l] else [])
    ++ (if (s.offerGrant l).isSome then [.offerCheck l] else [])

/-- The arbiter's next step: a due pass begins, a pass in progress makes its next request (R41, R42, R43). -/
def State.arbiterDueSteps (s : State) : List OwnStep :=
  (if s.arbiter.due then [.command .extensionPass] else []) ++ (if s.arbiter.pass.isSome then [.request] else [])

/-- The lane's next request for the rest of a resumed crossing (R10, R78, R91). -/
def State.restDueSteps (s : State) (l : LaneIx) : List OwnStep := if s.crossingAsks[l] then [.rest l] else []

/-- The steps the part has before it, in no order that means anything (assumption 3). -/
def State.dueSteps (s : State) : List OwnStep :=
  (s.moves.flatMap Move.dueSteps
      ++ (s.laneDueSteps 0 ++ s.laneDueSteps 1 ++ s.laneDueSteps 2 ++ s.laneDueSteps 3)).map .command
    ++ (s.restDueSteps 0 ++ s.restDueSteps 1 ++ s.restDueSteps 2 ++ s.restDueSteps 3) ++ s.arbiterDueSteps

/-! ### The clock (R178) -/

/-- A move's timers lose a millisecond. -/
def Move.tick (m : Move) : Move := { m with silence := m.silence.tick, backoff := m.backoff.tick }

/-- A lane's timers lose a millisecond. -/
def Lane.tick (ln : Lane) : Lane :=
  { ln with
    offerTimer := ln.offerTimer.tick
    crossingTimer := ln.crossingTimer.tick
    settleTimer := ln.settleTimer.tick
    releaseTimer := ln.releaseTimer.tick }

/-- One cycle of the part clock; every prescale cycles the running timers lose a millisecond (R178). -/
def State.clockCycle (s : State) : State :=
  if s.timing.prescale ≤ s.clockCount + 1 then
    { s with clockCount := 0, moves := s.moves.map Move.tick, lanes := s.lanes.map Lane.tick }
  else { s with clockCount := s.clockCount + 1 }

/-! ### The step -/

/-- Take a step of the part's own. -/
def State.takeOwn (s : State) : OwnStep → Host.Outcome State Fault Refusal
  | .command i => exec i s
  | .request => s.requestStep
  | .rest l => .next (s.makeAsk l)

/-- Take the n-th of several due steps, and count the choice (assumption 3). -/
def State.takeDue (s : State) (due : List OwnStep) (n : Nat) : Host.Outcome State Fault Refusal :=
  match due[n % due.length]? with
  | some d => { s with picks := s.picks + 1 }.takeOwn d
  | none => .next s

/-- What the part does by itself: a due step if there is one, else a cycle of its clock (assumption 2). -/
def State.ownStep (s : State) : Host.Outcome State Fault Refusal :=
  match s.dueSteps with
  | [] => .next s.clockCycle
  | [d] => s.takeOwn d
  | d :: e :: rest => s.takeDue (d :: e :: rest) (Config.freePick s.picks)

/-- One step: the front command on the queue's rest, or the part's own step. -/
def step (s : State) : Host.Outcome State Fault Refusal :=
  match s.pending with
  | [] => s.ownStep
  | i :: rest => exec i { s with pending := rest }

/-- The state with the command that a table word spells put at the front of the queue; no word of the table spells
one (Decode.lean). -/
def State.withFetchWord (s : State) (nbits w : Nat) : State :=
  match decodeTableWord nbits w with
  | some i => { s with pending := i :: s.pending }
  | none => s

end Sys2Proof.Machine
end

