-- ==== Sys2Proof/Safety.lean ====
section
/-!
DEFINITION. The laws of the device (R11, R24, R29, R34, R49, R139, R155) and what each mode holds, as predicates on
a state, and the words the statements share: what a take leaves, which write or read a command carries.
-/

namespace Sys2Proof.Machine

/-! ### Tables and capacities -/

/-- The Move Table and the Pending Queue keep their capacities (R29). -/
abbrev State.CapacityLaw (s : State) : Prop := s.moves.length ≤ 24 ∧ s.queue.length ≤ 6

/-- No bench appears more than once across the Move Table and the Pending Queue (R29). -/
abbrev State.BenchLaw (s : State) : Prop := (s.moves.map (·.bench) ++ s.queue.map (·.bench)).Nodup

/-- An order slot is the slot of at most one queued or live move (R139). -/
abbrev State.SlotLaw (s : State) : Prop := (s.moves.map (·.slot) ++ s.queue.map (·.slot)).Nodup

/-- A bench has at most one token, in the table or on its live move, and the table holds at most four (R20, R21). -/
abbrev State.TokenLaw (s : State) : Prop :=
  s.tokens.length ≤ 4 ∧ s.tokens.Nodup ∧ ∀ m ∈ s.moves, m.token = true → m.bench ∉ s.tokens

/-- Two live moves do not share an admission number, and every number is below the counter (R24, R42). -/
abbrev State.AdmissionLaw (s : State) : Prop :=
  (s.moves.map (·.admission)).Nodup ∧ (∀ m ∈ s.moves, m.admission < s.admissionCounter) ∧ s.admissionCounter ≤ 65535

/-- The queue holds orders only while the Move Table is full (R30). -/
abbrev State.QueueLaw (s : State) : Prop := s.queue ≠ [] → s.moves.length = 24

/-- The laws of the Move Table, the Pending Queue and the token table (R20, R29, R30, R139). -/
abbrev State.TableLaw (s : State) : Prop := s.CapacityLaw ∧ s.BenchLaw ∧ s.SlotLaw ∧ s.QueueLaw ∧ s.TokenLaw

/-! ### Modes -/

/-- A lane that is not configured and holds nothing (R92). -/
def Lane.absent : Lane := Lane.fresh none

/-- The part holds no rail: no table, no move, no lane (R182, R181). -/
abbrev State.Bare (s : State) : Prop :=
  s.segs = [] ∧ s.moves = [] ∧ s.queue = [] ∧ s.tokens = [] ∧ s.admissionCounter = 0 ∧ s.arbiter = .idle
    ∧ s.lanes = Vector.replicate 4 Lane.absent ∧ s.gridlock = .empty

/-- In STARTING and BLOCKING there is no rail (R1, R23, R92, R181). -/
abbrev State.BareLaw (s : State) : Prop := s.mode = .starting ∨ s.mode = .blocking → s.Bare

/-- While STARTING no window is known, no slot holds anything, and the notice and enable sets are empty (R160, R165,
R182). -/
abbrev State.StartingLaw (s : State) : Prop :=
  s.mode = .starting →
    s.windows = none ∧ s.notices = 0 ∧ s.enable = 0 ∧ s.health = none ∧ s.guardCapture = .empty
      ∧ s.orders = Vector.replicate 32 .fresh ∧ s.reports = Vector.replicate 16 .fresh ∧ s.latch = .empty

/-- No timer of a move runs. -/
abbrev Move.halted (m : Move) : Prop := m.silence.isRunning = false ∧ m.backoff.isRunning = false

/-- No timer of a lane runs. -/
abbrev Lane.halted (ln : Lane) : Prop :=
  ln.offerTimer.isRunning = false ∧ ln.crossingTimer.isRunning = false ∧ ln.settleTimer.isRunning = false
    ∧ ln.releaseTimer.isRunning = false

/-- Timers run in RUNNING mode alone (R90, R130, R131). -/
abbrev State.TimerLaw (s : State) : Prop :=
  s.mode ≠ .running → (∀ m ∈ s.moves, m.halted) ∧ (∀ i : LaneIx, s.lanes[i].halted)

/-- A Lane Controller has a request for the rest of a crossing to make in RUNNING mode alone (R78, R90). -/
abbrev State.AskLaw (s : State) : Prop := s.mode ≠ .running → s.crossingAsks = Vector.replicate 4 false

/-- What the mode decides (R78, R90, R160, R165, R181). -/
abbrev State.ModeLaw (s : State) : Prop := s.StartingLaw ∧ s.BareLaw ∧ s.TimerLaw ∧ s.AskLaw

/-! ### Rail -/

/-- No segment ID is given to two records, and each is 1 to 192 (R1, Table 10.3 check 5). -/
abbrev State.SegLaw (s : State) : Prop := (s.segs.map (·.id)).Nodup ∧ ∀ g ∈ s.segs, 1 ≤ g.id ∧ g.id ≤ 192

/-- A route is one that the route check passes (R26). -/
abbrev State.RouteLaw (s : State) (route : List Nat) : Prop := s.routeOk route.length route = true

/-- The indices of a live move (R49). -/
abbrev Move.IndexLaw (m : Move) : Prop := m.t ≤ m.f ∧ m.f ≤ m.h ∧ m.h < m.route.length ∧ m.f ≤ m.t + 1

/-- The extension stack of a live move: 1 to 8 entries, each at least 1, with sum h - t + 1 (R49). -/
abbrev Move.StackLaw (m : Move) : Prop :=
  1 ≤ m.stack.length ∧ m.stack.length ≤ 8 ∧ (∀ n ∈ m.stack, 1 ≤ n) ∧ m.stack.sum + m.t = m.h + 1

/-- The move in slot k holds the segment: it lies among its route positions t to h (R49). -/
abbrev State.spans (s : State) (k : SlotIx) (g : Nat) : Prop := ∃ m ∈ s.moves, m.slot = k ∧ g ∈ m.span m.t m.h

/-- The holds of the Segment Table are exactly the runs t to h of the live moves (R49, first law, holds; R34). -/
abbrev State.HoldLaw (s : State) : Prop := ∀ g ∈ s.segs, ∀ k : SlotIx, g.holder = some k ↔ s.spans k g.id

/-- The holds, indices and stacks of the live moves agree with the Segment Table, each slot has one order, and the
routes of live and queued orders are sound (R49, R139, R26). -/
abbrev State.RunLaw (s : State) : Prop :=
  s.SegLaw ∧ s.SlotLaw ∧ (∀ m ∈ s.moves, s.RouteLaw m.route ∧ m.IndexLaw ∧ m.StackLaw)
    ∧ (∀ q ∈ s.queue, s.RouteLaw q.route) ∧ s.HoldLaw

/-- A bench is the recorded occupant of at most two segments, and of two only when they are linked (R11). -/
abbrev State.PlaceLaw (s : State) : Prop :=
  ∀ b, b ≠ 0 → match s.benchAt b with
    | [] => True
    | [_] => True
    | [x, y] => s.linked x y = true ∨ s.linked y x = true
    | _ :: _ :: _ :: _ => False

/-! ### Lanes -/

/-- The moves in the berth lists of all the lanes. -/
def State.waiting (s : State) : List SlotIx := (s.lanes.toList.flatMap fun ln => ln.lists.toList).flatten

/-- A move is in a berth list exactly when it is in LANE_WAIT, and then in one list only (R47). -/
abbrev State.ListLaw (s : State) : Prop :=
  s.waiting.Nodup ∧ ∀ k : SlotIx, k ∈ s.waiting ↔ ∃ m ∈ s.moves, m.slot = k ∧ m.state = .laneWait

/-- The move stands wholly on this berth of the lane, a cell next on its route (R47). -/
abbrev State.AtBerth (s : State) (m : Move) (l : LaneIx) (b : BerthIx) : Prop :=
  m.t = m.f ∧ s.berthOf (m.seg m.f) = some (l, b) ∧ s.isCell (m.seg (m.f + 1)) = true

/-- A move in a berth list names that lane, stands on that berth, and holds nothing ahead (R47). -/
abbrev State.BerthLaw (s : State) : Prop :=
  ∀ (l : LaneIx) (b : BerthIx), ∀ k ∈ s.lanes[l].lists[b], ∀ m ∈ s.moves, m.slot = k →
    m.lane = some l ∧ m.h = m.f ∧ s.AtBerth m l b

/-- How the crossing move of a lane stands (R64, R71, R73, R78). Before entry it is in CROSSING on its entry berth;
after entry its bench is on a cell. What it holds ahead is the rest of its run and the exit berth, every cell one of
this lane. -/
abbrev State.OnCrossing (s : State) (l : LaneIx) (entered : Bool) (m : Move) : Prop :=
  (∀ g ∈ m.span m.t m.h, ∀ x ∈ s.cellLane g, x = l)
    ∧ (entered = false → m.state = .crossing ∧ m.f < m.h ∧ s.AtBerth m l s.lanes[l].berth)
    ∧ (entered = true → (m.state = .crossing ∨ m.state = .stalled ∨ m.state = .stopping)
        ∧ (s.isCell (m.seg m.t) = true ∨ s.isCell (m.seg m.f) = true) ∧ (s.isCell (m.seg m.f) = false → m.h = m.f))
    ∧ (m.f < m.h → s.isCell (m.seg m.h) = false ∧ ∀ i < m.h, m.f < i → s.isCell (m.seg i) = true)

/-- A lane with a crossing record is in CROSSING, or FAULTED under an entered one; and its release timer is stopped
but in FAULTED with no record (R66, R85, R88). -/
abbrev State.RecordLaw (s : State) : Prop :=
  ∀ l : LaneIx, (s.lanes[l].state ≠ .faulted → s.lanes[l].releaseTimer = .stopped)
    ∧ ∀ c ∈ s.lanes[l].crossing,
      (s.lanes[l].state = .crossing ∨ (s.lanes[l].state = .faulted ∧ c.entered = true))
        ∧ s.lanes[l].releaseTimer = .stopped

/-- The crossing record of a lane names a live move that names the lane and stands as a crossing move does (R65, R71).
-/
abbrev State.CrosserLaw (s : State) : Prop :=
  ∀ l : LaneIx, ∀ c ∈ s.lanes[l].crossing, ∃ m ∈ s.moves, m.slot = c.slot ∧ m.lane = some l ∧ s.OnCrossing l c.entered m

/-- A move in CROSSING names a lane, and a move that names a lane waits in LANE_WAIT or is its crossing move (R47,
R71, R77). -/
abbrev State.ReferenceLaw (s : State) : Prop :=
  ∀ m ∈ s.moves, (m.state = .crossing → m.lane ≠ none)
    ∧ ∀ l ∈ m.lane, m.state = .laneWait ∨ s.lanes[l].crosses m.slot = true

/-- The cells of a lane are held only by the move that holds its one crossing grant (R71). -/
abbrev State.CellLaw (s : State) : Prop :=
  ∀ g ∈ s.segs, ∀ k ∈ g.holder, ∀ l ∈ s.cellLane g.id, s.lanes[l].crosses k = true

/-- The bench of every live or queued order has an ID of its own, and the bench of a live move occupies exactly its
route positions t to f (R49, first law, occupancy; R25). -/
abbrev State.OccupancyLaw (s : State) : Prop :=
  (∀ m ∈ s.moves, m.bench ≠ 0) ∧ (∀ q ∈ s.queue, q.bench ≠ 0)
    ∧ ∀ m ∈ s.moves, ∀ g ∈ s.segs, g.occupant = some (.bench m.bench) ↔ g.id ∈ m.span m.t m.f

/-- The laws of the lanes (R47, R71), with the place of each waiting and each crossing bench (R49). -/
abbrev State.LaneLaw (s : State) : Prop :=
  s.ListLaw ∧ s.BerthLaw ∧ s.RecordLaw ∧ s.CrosserLaw ∧ s.ReferenceLaw ∧ s.CellLaw ∧ s.OccupancyLaw

/-! ### The arbiter -/

/-- A move that bears a yield mark bears the shed mark, is MOVING or BLOCKED, and holds nothing ahead (R57 to R59). -/
abbrev Move.YieldLaw (m : Move) : Prop := m.yield ≠ .clear → m.shed = true ∧ m.eligible = true ∧ m.h = m.f

/-- The move a visit has granted to is the one whose turn it is, and no wait-chain check runs (R44, R45, R55). -/
abbrev State.VisitLaw (s : State) : Prop :=
  ∀ m ∈ s.moves, m.extending = true →
    m.eligible = true ∧ m.yield = .clear ∧ s.arbiter.check = none ∧ s.arbiter.pass.bind List.head? = some m.slot

/-- A wait-chain check runs within a pass, over 1 to 24 live moves, each once and each off the lanes (R54, R55). -/
abbrev State.CheckLaw (s : State) : Prop :=
  ∀ c ∈ s.arbiter.check, s.arbiter.pass ≠ none ∧ 1 ≤ c.chain.length ∧ c.chain.length ≤ 24 ∧ c.chain.Nodup
    ∧ ∀ k ∈ c.chain, ∃ m ∈ s.moves, m.slot = k ∧ m.lane = none

/-- The turns of a pass are of live moves, each once; a further pass is asked for during a pass only, and a pass is
due outside one only, each in RUNNING mode only (R41, R42). -/
abbrev State.PassLaw (s : State) : Prop :=
  (∀ p ∈ s.arbiter.pass, p.Nodup ∧ ∀ k ∈ p, ∃ m ∈ s.moves, m.slot = k)
    ∧ (s.arbiter.further = true → s.arbiter.pass ≠ none ∧ s.mode = .running)
    ∧ (s.arbiter.due = true → s.arbiter.pass = none ∧ s.mode = .running)

/-- The laws of the Extension Arbiter and of its marks on the moves (R41, R42, R44, R45, R55, R57 to R59). -/
abbrev State.ArbiterLaw (s : State) : Prop :=
  (∀ m ∈ s.moves, m.YieldLaw) ∧ s.VisitLaw ∧ s.CheckLaw ∧ s.PassLaw

/-! ### Memory and words -/

/-- The board memory is in its canonical form. -/
abbrev State.MemoryLaw (s : State) : Prop := Memory.wf s.mem = true

/-- An authority word that shows GO belongs to a live move in RUNNING mode and names a segment it holds (R34). -/
abbrev State.GoLaw (s : State) : Prop :=
  ∀ k h g, s.authority k = .go h g →
    s.mode = .running ∧ ∃ m, s.move? k = some m ∧ m.h = h ∧ m.seg h = g ∧ s.holder g = some k

/-- The address lies in a part-owned word of a ring: a header word, a verdict, an authority, an acceptance (R155). -/
def State.partOwned (s : State) (a : WordAddr) : Bool :=
  match s.windows with
  | none => false
  | some ws => match ws.region a with
    | .header _ => true
    | .orderWord _ w => w = 5 || w = 6
    | .reportWord _ w => w = 2
    | .orderPlain => false
    | .outside => false

/-! ### Transfers -/

/-- The write transfer a command carries, if it is a write (assumption 1). -/
def Instr.write? : Instr → Option WriteWord
  | .move a w => some (wholeWrite .planner a w)
  | .cancel a w => some (wholeWrite .planner a w)
  | .fence a w => some (wholeWrite .planner a w)
  | .unfence a w => some (wholeWrite .planner a w)
  | .vouch a w => some (wholeWrite .planner a w)
  | .token a w => some (wholeWrite .planner a w)
  | .laneClear a w => some (wholeWrite .planner a w)
  | .stopAll a w => some (wholeWrite .planner a w)
  | .resume a w => some (wholeWrite .planner a w)
  | .noticeMask a w => some (wholeWrite .planner a w)
  | .orderOfUnknownKind a w => some (wholeWrite .planner a w)
  | .arrived a w => some (wholeWrite .field a w)
  | .left a w => some (wholeWrite .field a w)
  | .stalled a w => some (wholeWrite .field a w)
  | .halted a w => some (wholeWrite .field a w)
  | .seen a w => some (wholeWrite .field a w)
  | .empty a w => some (wholeWrite .field a w)
  | .reportOfUnknownKind a w => some (wholeWrite .field a w)
  | .orderRecordWrite a l d => some ⟨.planner, a, l, d⟩
  | .reportRecordWrite a l d => some ⟨.field, a, l, d⟩
  | .partialTagWrite w => some w
  | .busWrite w => some w
  | .deniedRead _ => none
  | .noticeWordRead _ => none
  | .guardCaptureRead _ => none
  | .gridlockCaptureRead _ => none
  | .silenceExpiry _ => none
  | .backoffExpiry _ => none
  | .offerLapse _ => none
  | .entryDeadlineLapse _ => none
  | .crossingLimitExpiry _ => none
  | .settleExpiry _ => none
  | .releaseExpiry _ => none
  | .powerOn => none
  | .lineReset => none
  | .imageLoadEnd _ => none
  | .extensionPass => none
  | .extensionVisit => none
  | .offerCheck _ => none

/-- The read transfer a command carries, if it is a read (assumption 8). -/
def Instr.read? : Instr → Option ReadWord
  | .deniedRead r => some r
  | .noticeWordRead r => some r
  | .guardCaptureRead r => some r
  | .gridlockCaptureRead r => some r
  | _ => none

/-- The command is a start of the part or the end of its load (section 10.4). -/
def Instr.isStart : Instr → Bool
  | .powerOn => true
  | .lineReset => true
  | .imageLoadEnd _ => true
  | _ => false

/-- The command is a write that takes an order of this kind (R137, R141). -/
def State.takesKind (s : State) (c : Instr) (kind : Option OrderKind) : Bool :=
  match Instr.write? c with
  | some w => w = wholeWrite .planner w.addr w.data && (s.orderTaken kind w.addr w.data).isSome
  | none => false

/-! ### Takes: what a taken order or report leaves before and beside its own effect (R96, R137, R141) -/

/-- Orders and reports are judged by their kinds: the part is RUNNING or HALTED (R131, R141). -/
abbrev State.Works (s : State) : Prop := s.mode = .running ∨ s.mode = .halted

/-- The tag write takes an order of this kind in slot k, which is not live, in RUNNING or HALTED mode (R137, R141). -/
abbrev State.TakesOrder (s : State) (kind : Option OrderKind) (addr : WordAddr) (tag : Word) (k : SlotIx) : Prop :=
  s.orderTaken kind addr tag = some k ∧ s.live k = false ∧ s.Works

/-- The tag write takes a report of this kind in slot j, in RUNNING or HALTED mode (R96, R99). -/
abbrev State.TakesReport (s : State) (kind : Option ReportKind) (addr : WordAddr) (tag : Word) (j : ReportIx) : Prop :=
  s.reportTaken kind addr tag = some j ∧ s.Works

/-- Order slot k after a take that sets this verdict: shadow word 7 and the last-taken tag are the written ones, and
the overrun flag is clear (R137, R140, R143). -/
def State.takenSlot (s : State) (k : SlotIx) (tag : Word) (v : Verdict) : OrderSlot :=
  ⟨s.orders[k].shadow.set 7 tag, tagOf tag, v, false⟩

/-- The state with the tag word stored and slot k as a take that sets this verdict leaves it, and nothing else
changed. -/
def State.tookOrder (s : State) (addr : WordAddr) (tag : Word) (k : SlotIx) (v : Verdict) : State :=
  { s with mem := memWrite s.mem addr allLanes tag, orders := s.orders.set k (s.takenSlot k tag v) }

/-- The state a refusal at the take leaves: REFUSED with its reason, ORDER_REFUSED latched, nothing else (R143). -/
def State.refusedOrder (s : State) (addr : WordAddr) (tag : Word) (k : SlotIx) (r : RefuseReason) : State :=
  { s.tookOrder addr tag k (.refused r) with notices := s.notices ||| Notice.mask .orderRefused }

/-- Report slot j after a take that sets this acceptance (R96, R97). -/
def State.takenReport (s : State) (j : ReportIx) (tag : Word) (x : Acceptance) : ReportSlot :=
  ⟨s.reports[j].shadow.set 3 tag, tagOf tag, x, tagOf tag⟩

/-- The state with the tag word stored and report slot j as a take that sets this acceptance leaves it, and nothing
else changed. -/
def State.tookReport (s : State) (addr : WordAddr) (tag : Word) (j : ReportIx) (x : Acceptance) : State :=
  { s with mem := memWrite s.mem (effAddr .field addr) allLanes tag, reports := s.reports.set j (s.takenReport j tag x) }

/-- The state a rejection with no further effect leaves: REPORT_REJECTED is latched (R98). -/
def State.rejectedReport (s : State) (addr : WordAddr) (tag : Word) (j : ReportIx) (r : RejectReason) : State :=
  { s.tookReport addr tag j (.rejected r) with notices := s.notices ||| Notice.mask .reportRejected }

/-- The record a report slot holds (R96). -/
def State.reportOf (s : State) (j : ReportIx) : ReportRecord := reportRecord s.reports[j].shadow

/-- Lane l of t is what a round start makes of lane l of s: the first berth whose list holds a move is offered, with
fresh marks, or the lane is QUIET, its current berth the last one in normal order and kept in strict order (R67, R68;
the two berths of a QUIET lane are assumption 16). -/
abbrev State.RoundStarts (s : State) (l : LaneIx) (t : State) : Prop :=
  t.lanes[l].lists = s.lanes[l].lists ∧ t.lanes[l].runCounter = 0 ∧ t.lanes[l].crossed = false
    ∧ t.lanes[l].cause = none ∧ t.lanes[l].settleTimer = .stopped ∧ t.lanes[l].releaseTimer = .stopped
    ∧ match s.lanes[l].nextBerth 0 with
      | some k => t.lanes[l].state = .offering ∧ t.lanes[l].berth = k ∧ t.lanes[l].offered = true
          ∧ t.lanes[l].offerTimer = s.startTimer (s.offerFull l)
      | none => t.lanes[l].state = .quiet ∧ t.lanes[l].offered = false
          ∧ (s.timing.lanes[l].strictOrder = true → t.lanes[l].berth = s.lanes[l].berth)
          ∧ (s.timing.lanes[l].strictOrder = false →
              ∀ n : BerthIx, s.lanes[l].berthCount = n.val + 1 → t.lanes[l].berth = n)

/-- An advance of the lane from its current berth ends the round: no higher berth waits in normal order; in strict
order no berth waits, or the lowest that waits is not higher than the current one (R67, R68). -/
def Lane.endsRound (strict : Bool) (ln : Lane) : Bool :=
  match ln.nextBerth (if strict then 0 else ln.berth.val + 1) with
  | some j => strict && decide (j ≤ ln.berth)
  | none => true

/-- An advance ends a round of offers without a crossing while the stand-off flag is clear, so that the flag is set
and LANE_STANDOFF latched (R80). -/
def Lane.standsOff (strict : Bool) (ln : Lane) : Bool := ln.endsRound strict && ln.offered && !ln.crossed && !ln.standoff

/-- The berth an advance offers next: in normal order the next one that waits, or in a new round the first; in strict
order the lowest that waits (R67, R68). -/
def Lane.offersNext (strict : Bool) (ln : Lane) : Option BerthIx :=
  if strict then ln.nextBerth 0 else (ln.nextBerth (ln.berth.val + 1)).or (ln.nextBerth 0)

/-- Lane l of t is what an advance makes of lane ln: the offer of the next berth with a fresh window, in a new round
with fresh marks if the advance ends the round, or QUIET with the last berth visited; and stand-off is judged where
the round ends (R67, R68, R80). -/
abbrev State.Advances (s : State) (l : LaneIx) (ln : Lane) (t : State) : Prop :=
  t.lanes[l].lists = ln.lists ∧ t.lanes[l].crossing = ln.crossing
    ∧ (s.timing.lanes[l].strictOrder = false → t.lanes[l].runCounter = 0)
    ∧ t.lanes[l].standoff = (ln.standoff || ln.standsOff s.timing.lanes[l].strictOrder)
    ∧ match ln.offersNext s.timing.lanes[l].strictOrder with
      | some j => t.lanes[l].state = .offering ∧ t.lanes[l].berth = j ∧ t.lanes[l].offered = true
          ∧ t.lanes[l].crossed = (ln.crossed && !ln.endsRound s.timing.lanes[l].strictOrder)
          ∧ t.lanes[l].offerTimer = s.startTimer (s.offerFull l)
      | none => t.lanes[l].state = .quiet ∧ t.lanes[l].offerTimer = ln.offerTimer
          ∧ (s.timing.lanes[l].strictOrder = true → t.lanes[l].berth = ln.berth)
          ∧ (s.timing.lanes[l].strictOrder = false →
              ∀ n : BerthIx, ln.berthCount = n.val + 1 → ln.berth ≤ n → t.lanes[l].berth = n)

/-- Move m' is move m after an entry to STOPPING with this reason; a move already in STOPPING keeps its first reason,
and no more than its silence timer may restart (R35, R36). -/
abbrev State.Stops (s : State) (r : EndReason) (m m' : Move) : Prop :=
  (m.state ≠ .stopping →
    m'.state = .stopping ∧ m'.endReason = some r ∧ m'.t = m.t ∧ m'.f = m.f ∧ m'.h = m.f ∧ m'.backoff = .stopped
      ∧ m'.yield = .clear ∧ m'.silence = s.startTimer s.silenceFull ∧ m'.route = m.route ∧ m'.retries = m.retries
      ∧ m'.token = m.token)
  ∧ (m.state = .stopping → m' = { m with silence := m'.silence })

/-- A lane is given back by a move whose offer or grant ends without a crossing: it advances as lane ln, and a
stand-off it enters is latched (R67 to R69, R77, R80). -/
abbrev State.GivesUp (s : State) (l : LaneIx) (ln : Lane) (t : State) : Prop :=
  s.Advances l ln t ∧ (ln.standsOff s.timing.lanes[l].strictOrder = true → t.latched .laneStandoff = true)

/-- What a stall or an entry to STOPPING of move m makes of the lanes (R35, R120, R121). A move that names no lane and
one whose bench has entered its crossing leave them as they stand. Another leaves its berth list, or its grant is
withdrawn (R69, R77): the lane reference becomes absent, the lane advances from a withdrawn grant and from an offer
whose list is now empty, and otherwise only its lists change. -/
abbrev State.QuitsLane (s : State) (m : Move) (t : State) : Prop :=
  (m.lane = none → t.lanes = s.lanes)
  ∧ ∀ l, m.lane = some l →
    (s.lanes[l].entered m.slot = true → t.lanes = s.lanes ∧ ∃ m', t.move? m.slot = some m' ∧ m'.lane = some l)
    ∧ (s.lanes[l].entered m.slot = false →
      (∃ m', t.move? m.slot = some m' ∧ m'.lane = none) ∧ (∀ x : LaneIx, x ≠ l → t.lanes[x] = s.lanes[x])
      ∧ (s.lanes[l].crosses m.slot = true →
          s.GivesUp l { s.lanes[l] with offerTimer := .stopped, crossing := none } t)
      ∧ (s.lanes[l].crosses m.slot = false → ∀ ln : Lane,
          ln = { s.lanes[l] with lists := s.lanes[l].lists.map fun q => q.filter fun x => x ≠ m.slot } →
          ((ln.state = .offering ∧ s.lanes[l].head? = some m.slot ∧ ln.head? = none) →
            s.GivesUp l { ln with offerTimer := .stopped } t)
          ∧ (¬(ln.state = .offering ∧ s.lanes[l].head? = some m.slot ∧ ln.head? = none) → t.lanes[l] = ln)))

/-- What an intrusion makes of lane l, by its state; `own` is the slot of the intruding bench's own move, which stops
beside it (R81 to R84). -/
abbrev State.LaneIntruded (s : State) (l : LaneIx) (own : Option SlotIx) (t : State) : Prop :=
  ((s.lanes[l].state = .quiet ∨ s.lanes[l].state = .offering ∨ s.lanes[l].state = .settling) →
    t.lanes[l].state = .settling ∧ t.lanes[l].offerTimer = .stopped ∧ t.lanes[l].runCounter = 0
      ∧ t.lanes[l].settleTimer = s.startTimer (s.settleFull l) ∧ (own = none → t.lanes[l].lists = s.lanes[l].lists))
  ∧ (∀ k, s.lanes[l].crossing = some ⟨k, false⟩ →
      t.lanes[l].state = .settling ∧ t.lanes[l].offerTimer = .stopped ∧ t.lanes[l].runCounter = 0
      ∧ t.lanes[l].settleTimer = s.startTimer (s.settleFull l) ∧ t.lanes[l].crossing = none
      ∧ ∀ m, s.move? k = some m → own ≠ some k →
        t.lanes[l].lists[s.lanes[l].berth].getLast? = some k
        ∧ (∀ x ∈ m.span (m.f + 1) m.h, t.holder x ≠ some k)
        ∧ ∃ m', t.move? k = some m' ∧ m'.state = .laneWait ∧ m'.t = m.t ∧ m'.f = m.f ∧ m'.h = m.f
          ∧ m'.silence = .stopped ∧ m'.lane = m.lane)
  ∧ (∀ k, s.lanes[l].crossing = some ⟨k, true⟩ →
      t.lanes[l].state = .faulted ∧ t.lanes[l].cause = some .intrusion ∧ t.lanes[l].crossing = some ⟨k, true⟩
      ∧ t.lanes[l].crossingTimer = .stopped ∧ t.lanes[l].releaseTimer = .stopped ∧ t.latched .laneFault = true
      ∧ ∀ m, s.move? k = some m → ∃ m', t.move? k = some m' ∧ s.Stops .intrusion m m')
  ∧ (s.lanes[l].state = .faulted → s.lanes[l].crossing = none →
      t.lanes[l].state = .faulted ∧ t.lanes[l].cause = some .intrusion ∧ t.lanes[l].releaseTimer = .stopped
      ∧ (s.lanes[l].cause ≠ some .intrusion → t.latched .laneFault = true))
  ∧ (own = none → ∀ x : LaneIx, x ≠ l → t.lanes[x] = s.lanes[x])

/-- The segment records the bench of the move that holds it (R104, R105). -/
def State.underItsHolder (s : State) (g : Nat) : Bool :=
  match s.holder g with
  | some k => (s.move? k).any fun m => decide (s.occupant g = some (.bench m.bench))
  | none => false

/-- The fields of a verdict word (Table 11.5). -/
abbrev verdictFields (w : Word) (state reason front horizon : Nat) (overrun token gridlocked : Bool) : Prop :=
  field w 0 5 = state ∧ field w 8 5 = reason ∧ field w 16 4 = front ∧ field w 20 4 = horizon
    ∧ field w 24 1 = overrun.toNat ∧ field w 25 1 = token.toNat ∧ field w 26 1 = gridlocked.toNat

/-- The bench leaves the last cell of its crossing with its tail: the crossing ends (R75). -/
abbrev State.LeavesLane (s : State) (m : Move) : Prop :=
  s.isCell (m.seg m.t) = true ∧ s.isCell (m.seg (m.t + 1)) = false ∧ ∃ l, m.lane = some l ∧ s.lanes[l].crosses m.slot = true

/-- A trigger has reached the arbiter (R41): in RUNNING mode a pass is due, or a further one is asked for. -/
abbrev State.Triggered (s : State) : Prop := s.mode = .running → s.arbiter.due = true ∨ s.arbiter.further = true

/-- The head q of the queue is refused with this reason (R31). -/
abbrev State.HeadRefused (t : State) (q : QueuedOrder) (r : RefuseReason) : Prop :=
  t.live q.slot = false ∧ t.orders[q.slot].verdict = .refused r ∧ t.latched .orderRefused = true

/-- What the end of move m leaves besides its verdict: no entry, no hold, a trigger, and the head of the queue tried
by the admission checks (R31, R39). -/
abbrev State.Ends (s : State) (m : Move) (t : State) : Prop :=
  t.move? m.slot = none ∧ t.live m.slot = false ∧ t.Triggered ∧ (∀ x ∈ m.span m.t m.h, t.holder x ≠ some m.slot)
    ∧ (s.queue = [] → t.queue = [])
    ∧ ∀ q rest, s.queue = q :: rest →
        (s.benchAt q.bench = [] → t.HeadRefused q .unlocated)
        ∧ (2 ≤ (s.benchAt q.bench).length → t.HeadRefused q .notAtRest)
        ∧ ∀ g, s.benchAt q.bench = [g] →
            (g ≠ q.route.headD 0 → t.HeadRefused q .notAtStart)
            ∧ (g = q.route.headD 0 → (∀ l, s.benchOnLane m.bench l = false) →
                (∃ k, s.holder g = some k ∧ k ≠ m.slot) → t.HeadRefused q .heldSegment)
            ∧ (g = q.route.headD 0 → (s.holder g = none ∨ s.holder g = some m.slot) →
                t.queue = rest ∧ t.holder g = some q.slot
                ∧ ∃ x, t.move? q.slot = some x ∧ x.bench = q.bench ∧ x.cls = q.cls ∧ x.route = q.route
                  ∧ x.retries = q.retries ∧ x.t = 0 ∧ x.f = 0 ∧ x.h = 0 ∧ x.stack = [1]
                  ∧ x.state = (if s.mode = .halted then .blocked else .moving)
                  ∧ x.token = s.tokens.contains q.bench)

/-- What the end of move m makes of the lanes: every lane on a cell of which its bench is recorded is FAULTED with
cause STRANDED, and the lane it named keeps no record and no list place of it (R39, R79, R87). -/
abbrev State.Strands (s : State) (m : Move) (t : State) : Prop :=
  (∀ l, s.benchOnLane m.bench l = true →
      t.lanes[l].state = .faulted ∧ t.lanes[l].cause = some .stranded ∧ t.lanes[l].releaseTimer = .stopped
      ∧ t.latched .laneFault = true)
    ∧ ∀ l, m.lane = some l → t.lanes[l].crosses m.slot = false ∧ ∀ b : BerthIx, m.slot ∉ t.lanes[l].lists[b]

/-- The wait-chain check has ended with no ring found: nothing is shed and nothing reported (R55). -/
abbrev State.FindsNoRing (s : State) (t : State) : Prop :=
  t.arbiter.check = none ∧ t.gridlock = s.gridlock ∧ t.notices = s.notices ∧ t.segs = s.segs
    ∧ t.moves.map (fun x => (x.gridlocked, x.shed, x.h)) = s.moves.map (fun x => (x.gridlocked, x.shed, x.h))

/-- What is made of a ring found: the lowest in priority of its members that hold ahead and bear no shed mark is shed;
if there is none, every member is gridlocked, and reported unless every one was so before (R56, R57, R60, R62). -/
abbrev State.BreaksRing (s : State) (ring : List SlotIx) (t : State) : Prop :=
  t.arbiter.check = none
    ∧ (∀ v ∈ s.moves, v.slot ∈ ring → v.f < v.h → v.shed = false →
        (∀ w ∈ s.moves, w.slot ∈ ring → w.f < w.h → w.shed = false → v.before w = false) →
        t.gridlock = ⟨v.slot, ring.length, false⟩
        ∧ t.notices = s.notices ||| Notice.mask .gridlock
        ∧ (∀ x ∈ v.span (v.f + 1) v.h, t.holder x ≠ some v.slot)
        ∧ ∃ v', t.move? v.slot = some v' ∧ v'.state = .blocked ∧ v'.t = v.t ∧ v'.f = v.f ∧ v'.h = v.f
          ∧ v'.shed = true ∧ v'.yield = .beforePass ∧ v'.silence = .stopped)
    ∧ ((∀ v ∈ s.moves, v.slot ∈ ring → v.f < v.h → v.shed = true) →
        t.segs = s.segs ∧ (∀ v ∈ t.moves, v.slot ∈ ring → v.gridlocked = true)
        ∧ ((∀ v ∈ s.moves, v.slot ∈ ring → v.gridlocked = true) → t.gridlock = s.gridlock ∧ t.notices = s.notices)
        ∧ (∀ v ∈ s.moves, v.slot ∈ ring → (∀ w ∈ s.moves, w.slot ∈ ring → v.before w = false) →
            (∃ w ∈ s.moves, w.slot ∈ ring ∧ w.gridlocked = false) →
            t.gridlock = ⟨v.slot, ring.length, true⟩ ∧ t.notices = s.notices ||| Notice.mask .gridlock))

/-- The ring that the wait-chain check finds with nothing between its links: it follows the chain of holders from
segment g, and names the members in chain order (R55). -/
def State.findRing (s : State) : Nat → List SlotIx → Nat → Option (List SlotIx)
  | 0, _, _ => none
  | fuel + 1, chain, g =>
    match s.holder g with
    | none => none
    | some k =>
      if k ∈ chain then some (chain.dropWhile (· ≠ k))
      else match (s.move? k).bind s.heldUpOn with
        | none => none
        | some g' => s.findRing fuel (chain ++ [k]) g'

/-- The change from `before` to `u` has its announcements delivered in t: a lane is to ask again for the rest of a crossing
where one of its cells or berths is announced and a crossing waits (R9, R78). -/
abbrev State.AsksAgain (before u t : State) : Prop :=
  ∀ l : LaneIx, t.crossingAsks[l] =
    (u.crossingAsks[l]
      || ((announced before.segs u.segs).any (fun g => g.kind.lane = some l) && (u.awaitsRest l).isSome))

/-- No lane has an entered crossing, so that no announcement brings a resumed request (R78). -/
abbrev State.NoEntered (s : State) : Prop := ∀ l : LaneIx, s.lanes[l].enteredSlot = none

/-- What no order, report, expiry or step of the part's own changes: the windows, the bus latch, the slots' other
fields, the configuration of the rail and the lanes, the timing values and the health (R153, R2, R64, R177, R171). -/
abbrev State.SameFrame (s t : State) : Prop :=
  t.windows = s.windows ∧ t.latch = s.latch ∧ t.readData = s.readData ∧ t.timing = s.timing ∧ t.health = s.health
    ∧ t.guardCapture = s.guardCapture ∧ t.clockCount = s.clockCount ∧ t.pending = s.pending
    ∧ t.segs.map (fun g => (g.id, g.kind, g.links)) = s.segs.map (fun g => (g.id, g.kind, g.links))
    ∧ t.lanes.map (·.layout) = s.lanes.map (·.layout)

/-- A word's four bytes read the same in both memories. -/
abbrev sameWord (m m' : List Host.Cell) (a : WordAddr) : Prop := ∀ i, i < 4 → memByte m' (byteKey a i) = memByte m (byteKey a i)

end Sys2Proof.Machine
end

