-- ==== Sys2Proof/Certificates/Slice0/Obligations.lean ====
section
/-!
DEFINITION. The statements about the KZ-2410 that the provers prove: what each command does in the state it is
given, what it leaves unchanged, and the laws of the device that every step keeps.
-/

open Sys2Proof Sys2Proof.Machine

/-! ### The step and the reset -/

/-- A step with a command at the front of the queue is that command's meaning on the rest of the queue. -/
def Obligations.StepRunsTheFrontCommand : Prop :=
  ∀ (c : Instr) (rest : List Instr) (s : State),
    step { s with pending := c :: rest } = exec c { s with pending := rest }

/-- With an empty queue and nothing due, a step is one cycle of the part clock, and each prescale of them every running
timer loses 1 ms (R178); with steps due, it is one of them, whichever the free choice names, and changes nothing beside
it but the count of choices: a row of the table, one request of a visit, or a lane's request for the rest of a resumed
crossing, so that either of these two may come first (R10, R91). That the empty queue is where this happens is the
model's choice (assumptions 2, 3, 7 and 23). -/
def Obligations.OwnStepIsADueStepOrAClockCycle : Prop :=
  ∀ s : State, s.pending = [] →
    (s.dueSteps = [] → step s = .next
      (if s.clockCount + 1 < s.timing.prescale then { s with clockCount := s.clockCount + 1 }
       else { s with clockCount := 0, moves := s.moves.map Move.tick, lanes := s.lanes.map Lane.tick }))
    ∧ (s.dueSteps ≠ [] → ∃ d ∈ s.dueSteps, ∃ n, step s = { s with picks := n }.takeOwn d)
    ∧ (∀ c, s.takeOwn (.command c) = exec c s) ∧ s.takeOwn .request = s.requestStep
    ∧ (∀ l, s.takeOwn (.rest l) = .next (s.makeAsk l)) ∧ (∀ l, s.crossingAsks[l] = true → .rest l ∈ s.dueSteps)
    ∧ (s.arbiter.pass ≠ none → .request ∈ s.dueSteps)

/-- Right after power-on the part is STARTING and holds no windows, no tables, no zone health, no slot contents, no
notices and an empty enable set (R182, R165, R135, R95). -/
def Obligations.ResetHoldsNoState : Prop :=
  State.reset.mode = .starting ∧ State.reset.windows = none ∧ State.reset.health = none ∧ State.reset.segs = []
    ∧ State.reset.moves = [] ∧ State.reset.queue = [] ∧ State.reset.tokens = [] ∧ State.reset.admissionCounter = 0
    ∧ State.reset.arbiter = ⟨none, none, false, false⟩
    ∧ State.reset.crossingAsks = Vector.replicate 4 false ∧ State.reset.notices = 0 ∧ State.reset.enable = 0
    ∧ State.reset.guardCapture = ⟨0, .planner, .read, 0⟩ ∧ State.reset.gridlock = ⟨0, 0, false⟩
    ∧ State.reset.interruptLine = false ∧ State.reset.pending = []
    ∧ (∀ k : SlotIx, State.reset.orders[k] = ⟨Vector.replicate 8 0, 0, .free, false⟩)
    ∧ (∀ j : ReportIx, State.reset.reports[j] = ⟨Vector.replicate 4 0, 0, .free, 0⟩)
    ∧ (∀ l : LaneIx, State.reset.lanes[l].layout = none ∧ State.reset.lanes[l].state = .quiet)

/-- The interrupt line is asserted exactly when a latched cause is enabled, in every state, so that it follows each
change of either set within that change; and it is released while STARTING (R167). -/
def Obligations.InterruptLineIsTheCommonCause : Prop :=
  ∀ s : State,
    (s.interruptLine = true ↔ ∃ n : Notice, s.latched n = true ∧ s.enable.getLsbD n.bit = true)
    ∧ (s.StartingLaw → s.mode = .starting → s.interruptLine = false)

/-! ### Writes (chapter 8) -/

/-- A write command is its transfer word: the row's name does not change what the path does with it (R137, R96, R151;
that a command carries its transfer word is the model's choice, assumption 1). -/
def Obligations.RowsAreTheirBusWrites : Prop :=
  ∀ (c : Instr) (w : WriteWord) (s : State), Instr.write? c = some w → exec c s = exec (.busWrite w) s

/-- Where no window is known, every write passes to memory, and with windows a permitted word outside the rings or in
ring words 264 to 511 does (R152, R155, R160). -/
def Obligations.PlainWriteReachesMemoryAlone : Prop :=
  ∀ (w : WriteWord) (s : State),
    (match s.windows with
      | none => True
      | some ws => ws.denies w.master .write (effAddr w.master w.addr) = false
          ∧ (ws.region (effAddr w.master w.addr) = .outside ∨ ws.region (effAddr w.master w.addr) = .orderPlain)) →
    exec (.busWrite w) s
      = .next { s with mem := memWrite s.mem (effAddr w.master w.addr) w.lanes w.data }

/-- In a memory of canonical form, a stored word's enabled lanes read as written and every other byte of memory reads
as before; a merged shadow word takes the enabled lanes and keeps the others (R151, R136, R156). -/
def Obligations.EnabledLanesAreStoredAndMerged : Prop :=
  (∀ (m : List Host.Cell) (a : WordAddr) (lanes : Lanes) (d : Word) (b : WordAddr) (i : Nat),
    Memory.wf m = true → i < 4 →
    memByte (memWrite m a lanes d) (byteKey b i)
      = if b = a ∧ lanes.getLsbD i = true then byteOf d i else memByte m (byteKey b i))
  ∧ (∀ (lanes : Lanes) (d old : Word) (i : Nat), i < 4 →
    byteOf (mergeLanes lanes d old) i = if lanes.getLsbD i = true then byteOf d i else byteOf old i)

/-- Writes inside the rings that pass the guards, by Table 8.1, the master judged before the byte lanes; and while the
ring windows are decoded, no command of any kind changes a part-owned word of memory (R155). -/
def Obligations.RingWritesByTable : Prop :=
  (∀ (w : WriteWord) (s : State) (ws : Windows), s.windows = some ws →
    ws.denies w.master .write (effAddr w.master w.addr) = false →
    (ws.region (effAddr w.master w.addr) = .orderPlain →
      exec (.busWrite w) s = .next { s with mem := memWrite s.mem (effAddr w.master w.addr) w.lanes w.data })
    ∧ (∀ i, ws.region (effAddr w.master w.addr) = .header i → exec (.busWrite w) s = .next s)
    ∧ (∀ k i, ws.region (effAddr w.master w.addr) = .orderWord k i →
        ((i = 5 ∨ i = 6) → exec (.busWrite w) s = .next s)
        ∧ (i ≠ 5 → i ≠ 6 → w.master = .field →
            exec (.busWrite w) s = .next (s.deny (effAddr w.master w.addr) .field .write))
        ∧ (i ≠ 5 → i ≠ 6 → i ≠ 7 → w.master = .planner →
            exec (.busWrite w) s = .next
              { s with
                mem := memWrite s.mem w.addr w.lanes w.data
                orders := s.orders.set k { s.orders[k] with
                  shadow := s.orders[k].shadow.set i (mergeLanes w.lanes w.data s.orders[k].shadow[i]) } })
        ∧ (i = 7 → w.master = .planner → w.lanes ≠ allLanes →
            exec (.busWrite w) s = .next { s with notices := s.notices ||| Notice.mask .partialTag })
        ∧ (i = 7 → w.master = .planner → w.lanes = allLanes →
            ∃ t, exec (.busWrite w) s = .next t ∧ t.mem = memWrite s.mem w.addr w.lanes w.data))
    ∧ (∀ j i, ws.region (effAddr w.master w.addr) = .reportWord j i →
        (i = 2 → exec (.busWrite w) s = .next s)
        ∧ (i ≠ 2 → w.master = .planner →
            exec (.busWrite w) s = .next (s.deny (effAddr w.master w.addr) .planner .write))
        ∧ ((i = 0 ∨ i = 1) → w.master = .field →
            exec (.busWrite w) s = .next
              { s with
                mem := memWrite s.mem (effAddr .field w.addr) w.lanes w.data
                reports := s.reports.set j { s.reports[j] with
                  shadow := s.reports[j].shadow.set i (mergeLanes w.lanes w.data s.reports[j].shadow[i]) } })
        ∧ (i = 3 → w.master = .field → w.lanes ≠ allLanes →
            exec (.busWrite w) s = .next { s with notices := s.notices ||| Notice.mask .partialTag })
        ∧ (i = 3 → w.master = .field → w.lanes = allLanes →
            ∃ t, exec (.busWrite w) s = .next t ∧ t.mem = memWrite s.mem (effAddr .field w.addr) w.lanes w.data)))
  ∧ ∀ (c : Instr) (s t : State) (a : WordAddr), exec c s = .next t → s.partOwned a = true → sameWord s.mem t.mem a

/-- A record write of either ring, and a whole-word tag write whose tag is 0 or the last-taken tag, pass to memory and
merge into the slot's shadow, and take nothing (R136, R156, R137, R96). -/
def Obligations.WritesThatTakeNothingMerge : Prop :=
  ∀ s : State,
    (∀ (addr : WordAddr) (lanes : Lanes) (d : Word) k i, s.writeCase ⟨.planner, addr, lanes, d⟩ = .mergeOrder k i →
      exec (.orderRecordWrite addr lanes d) s = .next
        { s with
          mem := memWrite s.mem addr lanes d
          orders := s.orders.set k { s.orders[k] with
            shadow := s.orders[k].shadow.set i (mergeLanes lanes d s.orders[k].shadow[i]) } })
    ∧ (∀ (addr : WordAddr) (lanes : Lanes) (d : Word) j i, s.writeCase ⟨.field, addr, lanes, d⟩ = .mergeReport j i →
      exec (.reportRecordWrite addr lanes d) s = .next
        { s with
          mem := memWrite s.mem (effAddr .field addr) lanes d
          reports := s.reports.set j { s.reports[j] with
            shadow := s.reports[j].shadow.set i (mergeLanes lanes d s.reports[j].shadow[i]) } })
    ∧ (∀ (w : WriteWord) k, s.writeCase w = .orderTag k → (tagOf w.data = 0 ∨ tagOf w.data = s.orders[k].lastTag) →
      exec (.busWrite w) s = .next
        { s with
          mem := memWrite s.mem (effAddr w.master w.addr) w.lanes w.data
          orders := s.orders.set k { s.orders[k] with shadow := s.orders[k].shadow.set 7 w.data } })
    ∧ (∀ (w : WriteWord) j, s.writeCase w = .reportTag j → (tagOf w.data = 0 ∨ tagOf w.data = s.reports[j].lastTag) →
      exec (.busWrite w) s = .next
        { s with
          mem := memWrite s.mem (effAddr w.master w.addr) w.lanes w.data
          reports := s.reports.set j { s.reports[j] with shadow := s.reports[j].shadow.set 3 w.data } })

/-- A PLANNER write to word 7 of an order slot that does not enable all four byte lanes is suppressed: memory, shadow,
last-taken tag and verdict stay, and PARTIAL_TAG is latched (R138). -/
def Obligations.PartialTagIsSuppressed : Prop :=
  ∀ (w : WriteWord) (s : State) (ws : Windows) (k : SlotIx), s.windows = some ws → w.master = .planner →
    ws.denies .planner .write w.addr = false → ws.region w.addr = .orderWord k 7 → w.lanes ≠ allLanes →
    exec (.partialTagWrite w) s = .next { s with notices := s.notices ||| Notice.mask .partialTag }

/-- No command changes a byte of memory outside the word its write transfer addresses (R151). -/
def Obligations.MemoryChangesOnlyAtTheWrittenWord : Prop :=
  ∀ (c : Instr) (s t : State) (a : WordAddr), exec c s = .next t →
    (∀ w, Instr.write? c = some w → effAddr w.master w.addr ≠ a) → sameWord s.mem t.mem a

/-! ### Reads (chapters 8 and 9) -/

/-- Every denied word, and every ring write by a master that may not write the word, latches GUARD_DENIED, starts an
empty guard capture, adds one to a count of 1 to 14, and leaves a count of 15; a denied read returns zero, takes no
snapshot and clears nothing; nothing else changes (R153, R154). -/
def Obligations.DeniedWordsAreCounted : Prop :=
  (∀ (w : WriteWord) (s : State), s.writeCase w = .denied →
    exec (.busWrite w) s = .next
      { s with
        notices := s.notices ||| Notice.mask .guardDenied
        guardCapture :=
          if s.guardCapture.count = 0 then ⟨effAddr w.master w.addr, w.master, .write, 1⟩
          else if s.guardCapture.count < 15 then { s.guardCapture with count := s.guardCapture.count + 1 }
          else s.guardCapture })
  ∧ (∀ (r : ReadWord) (s : State) (ws : Windows), s.windows = some ws →
    ws.denies r.master .read (readAddr r) = true →
    exec (.deniedRead r) s = .next
      { s with
        readData := 0
        notices := s.notices ||| Notice.mask .guardDenied
        guardCapture :=
          if s.guardCapture.count = 0 then ⟨readAddr r, r.master, .read, 1⟩
          else if s.guardCapture.count < 15 then { s.guardCapture with count := s.guardCapture.count + 1 }
          else s.guardCapture
        latch := if r.index = 0 ∨ r.len.words ≤ r.index + 1 then .empty else s.latch })

/-- Single-word reads of header words 0, 4 and 5: each returns its word; a PLANNER read clears what it returned, a
FIELD read clears nothing; nothing else changes (R168, R172, R62, R159). -/
def Obligations.SingleHeaderReadReturnsAndClears : Prop :=
  ∀ (r : ReadWord) (s : State) (ws : Windows), s.windows = some ws → r.len = .one → r.index = 0 →
    ws.denies r.master .read (readAddr r) = false →
    (ws.region (readAddr r) = .header 0 →
      exec (.noticeWordRead r) s = .next
        { s with
          readData := s.notices.setWidth 32
          notices := if r.master = .planner then 0 else s.notices
          latch := .empty })
    ∧ (ws.region (readAddr r) = .header 4 →
      exec (.guardCaptureRead r) s = .next
        { s with
          readData := s.guardCapture.word
          guardCapture := if r.master = .planner then ⟨0, .planner, .read, 0⟩ else s.guardCapture
          latch := .empty })
    ∧ (ws.region (readAddr r) = .header 5 →
      exec (.gridlockCaptureRead r) s = .next
        { s with
          readData := s.gridlock.word
          gridlock := if r.master = .planner then ⟨0, 0, false⟩ else s.gridlock
          latch := .empty })

/-- The first word of a permitted eight-word PLANNER burst over the ring header takes the header snapshot and, in the
same change, clears the notices, the guard capture and the gridlock capture; a later permitted header word of a burst
comes from its snapshot and clears nothing, whatever has changed since (R159, R168). The snapshot holds the notices,
the mode and the counts of moves, queued orders, fenced and unsurveyed segments, a group for each lane, and the health
(R169 to R171, R4, R94; words 6 and 7 are zero, R157). -/
def Obligations.HeaderBurstIsOneSnapshot : Prop :=
  (∀ (r : ReadWord) (s : State) (ws : Windows), s.windows = some ws → r.master = .planner → r.len = .eight →
    r.index = 0 →
    (∀ j : Fin 8, ws.denies .planner .read (burstAddr r j) = false ∧ ws.region (burstAddr r j) = .header j) →
    exec (.noticeWordRead r) s = .next
      { s with
        readData := s.notices.setWidth 32
        notices := 0
        guardCapture := ⟨0, .planner, .read, 0⟩
        gridlock := ⟨0, 0, false⟩
        latch := ⟨some s.headerWords, [], []⟩ })
  ∧ (∀ (r : ReadWord) (s : State) (ws : Windows) (h : Vector Word 8) (i : Fin 8), s.windows = some ws →
    s.latch.header = some h → r.index ≠ 0 → ws.denies r.master .read (readAddr r) = false →
    ws.region (readAddr r) = .header i →
    exec (.guardCaptureRead r) s = .next
      { s with readData := h[i], latch := if r.len.words ≤ r.index + 1 then .empty else s.latch }
    ∧ exec (.gridlockCaptureRead r) s = exec (.guardCaptureRead r) s
    ∧ exec (.noticeWordRead r) s = exec (.guardCaptureRead r) s)
  ∧ ∀ s : State,
    s.headerWords[0] = s.notices.setWidth 32 ∧ s.headerWords[6] = 0 ∧ s.headerWords[7] = 0
    ∧ (s.CapacityLaw → s.SegLaw →
        field s.headerWords[1] 0 2
            = (match s.mode with | .starting => 0 | .running => 1 | .halted => 2 | .blocking => 3)
        ∧ field s.headerWords[1] 3 5 = s.moves.length ∧ field s.headerWords[1] 8 3 = s.queue.length
        ∧ field s.headerWords[1] 12 8 = (s.segs.filter fun g => g.fence ≠ none).length
        ∧ field s.headerWords[1] 20 8 = (s.segs.filter fun g => g.surveyed = false).length)
    ∧ (∀ l : LaneIx,
        (s.lanes[l].layout = none → field s.headerWords[2] (8 * l) 8 = 0)
        ∧ (s.lanes[l].layout ≠ none →
          field s.headerWords[2] (8 * l) 1 = 1 ∧ field s.headerWords[2] (8 * l + 4) 3 = s.lanes[l].berth
          ∧ field s.headerWords[2] (8 * l + 7) 1 = s.lanes[l].standoff.toNat
          ∧ field s.headerWords[2] (8 * l + 1) 3
            = (match s.lanes[l].state, s.lanes[l].cause with
              | .quiet, _ => 0 | .offering, _ => 1 | .crossing, _ => 2 | .settling, _ => 3
              | .faulted, some .intrusion => 5 | .faulted, some .stranded => 6 | .faulted, _ => 4)))
    ∧ (∀ x, s.health = some x → x.code ≤ 11 →
        field s.headerWords[3] 0 2 = x.layout.code ∧ field s.headerWords[3] 2 2 = x.timing.code
        ∧ field s.headerWords[3] 4 2 = x.label.code ∧ field s.headerWords[3] 8 4 = x.code
        ∧ field s.headerWords[3] 12 8 = x.revision.toNat ∧ field s.headerWords[3] 20 12 = 0x5C1
        ∧ ZoneStatus.code .ok = 0 ∧ ZoneStatus.code .warning = 1 ∧ ZoneStatus.code .error = 2)

/-- Reads by Table 8.2. The first word of a slot that a burst serves, whichever word it is, takes the slot's snapshot;
the part-owned words of the slot served later in the burst come from it, whatever has changed since: only a read or a
start changes the snapshots held, and they go with the burst (R157, R158, R147). Any other word comes from memory with
all its lanes (outside the rings, and while no window is known, that is the model's choice, assumption 29); the
acceptance word is that of Table 11.7 (R98). -/
def Obligations.SlotWordsAreReadAtOneMoment : Prop :=
  (∀ (r : ReadWord) (s : State),
    exec (.deniedRead r) s = .next (s.readWord r) ∧ exec (.noticeWordRead r) s = .next (s.readWord r)
    ∧ exec (.guardCaptureRead r) s = .next (s.readWord r) ∧ exec (.gridlockCaptureRead r) s = .next (s.readWord r)
    ∧ (r.len.words ≤ r.index + 1 → (s.readWord r).latch = ⟨none, [], []⟩)
    ∧ (r.index ≠ 0 → r.index + 1 < r.len.words →
        (∀ k x, s.latch.order? k = some x → (s.readWord r).latch.order? k = some x)
        ∧ (∀ j x, s.latch.report? j = some x → (s.readWord r).latch.report? j = some x)))
  ∧ (∀ (c : Instr) (s t : State), exec c s = .next t → Instr.read? c = none → Instr.isStart c = false →
    t.latch = s.latch)
  ∧ (∀ (r : ReadWord) (s : State) (ws : Windows), s.windows = some ws →
    ws.denies r.master .read (readAddr r) = false →
    (∀ (k : SlotIx) (i : Fin 8), ws.region (readAddr r) = .orderWord k i →
      ((r.index = 0 ∨ s.latch.order? k = none) →
        s.readWord r = { s with
            readData := if i = 5 then s.verdictWord k else if i = 6 then s.authorityWord k
              else memWord s.mem (readAddr r)
            latch := (s.readWord r).latch }
        ∧ (r.index + 1 < r.len.words →
            (s.readWord r).latch.order? k = some ⟨k, s.verdictWord k, s.authorityWord k⟩))
      ∧ (∀ x, r.index ≠ 0 → s.latch.order? k = some x →
        s.readWord r = { s with
            readData := if i = 5 then x.verdict else if i = 6 then x.authority else memWord s.mem (readAddr r)
            latch := (s.readWord r).latch }))
    ∧ (∀ (j : ReportIx) (i : Fin 4), ws.region (readAddr r) = .reportWord j i →
      ((r.index = 0 ∨ s.latch.report? j = none) →
        s.readWord r = { s with
            readData := if i = 2 then s.acceptanceWord j else memWord s.mem (readAddr r)
            latch := (s.readWord r).latch }
        ∧ (r.index + 1 < r.len.words → (s.readWord r).latch.report? j = some ⟨j, s.acceptanceWord j⟩))
      ∧ (∀ x, r.index ≠ 0 → s.latch.report? j = some x →
        s.readWord r = { s with
            readData := if i = 2 then x.acceptance else memWord s.mem (readAddr r)
            latch := (s.readWord r).latch })))
  ∧ (∀ (r : ReadWord) (s : State),
    (match s.windows with
      | none => True
      | some ws => ws.denies r.master .read (readAddr r) = false
          ∧ (ws.region (readAddr r) = .outside ∨ ws.region (readAddr r) = .orderPlain)) →
    s.readWord r = { s with readData := memWord s.mem (readAddr r), latch := (s.readWord r).latch })
  ∧ (∀ (s : State) (j : ReportIx),
    field (s.acceptanceWord j) 16 8 = s.reports[j].judgedTag.toNat
    ∧ field (s.acceptanceWord j) 0 2
      = (match s.reports[j].acceptance with | .free => 0 | .accepted => 1 | .unmanaged => 2 | .rejected _ => 3)
    ∧ field (s.acceptanceWord j) 8 5
      = (match s.reports[j].acceptance with
        | .free => 0 | .accepted => 0 | .unmanaged => 0
        | .rejected .imageFault => 1 | .rejected .badKind => 2 | .rejected .badSegment => 4
        | .rejected .sequence => 19 | .rejected .overlength => 23 | .rejected .emptyBench => 24))

/-- The authority of a slot by its link and the mode (Table 2.5), which its snapshot computes from the state it is
taken in, and the law that a GO belongs to a live move in RUNNING mode and names a segment that move holds, in a state
whose holds agree with its moves (R34). The verdict of a slot by its link: its linked move's own state and indices,
QUEUED, or its kept verdict, in the fields and the reason codes of Tables 7.3, 11.5 and 11.8 (R144, R145). -/
def Obligations.VerdictAndAuthorityByTables : Prop :=
  (∀ (s : State) (k : SlotIx),
    (∀ m, s.move? k = some m → (s.mode = .running ∨ s.mode = .halted) →
      (m.state = .stopping → s.authority k = .stop)
      ∧ (m.state = .stalled → s.authority k = .hold)
      ∧ (m.state ≠ .stopping → m.state ≠ .stalled → s.mode = .halted → s.authority k = .hold)
      ∧ (m.state ≠ .stopping → m.state ≠ .stalled → s.mode = .running → s.authority k = .go m.h (m.seg m.h)))
    ∧ (∀ q, s.move? k = none → s.queued? k = some q → (s.mode = .running ∨ s.mode = .halted) → s.authority k = .hold)
    ∧ (s.live k = false → s.authority k = .none)
    ∧ (s.BareLaw → (s.mode = .starting ∨ s.mode = .blocking) → s.authority k = .none)
    ∧ (s.orderSnap k).authority = (s.authority k).word ∧ (s.orderSnap k).verdict = s.verdictWord k
    ∧ (s.RunLaw → s.GoLaw)
    ∧ (s.RunLaw → ∀ m, s.move? k = some m →
        verdictFields (s.verdictWord k)
          (match m.state with
            | .moving => 2 | .blocked => 3 | .laneWait => 4 | .crossing => 5 | .stalled => 6 | .stopping => 7)
          0 m.f m.h s.orders[k].overrun m.token m.gridlocked)
    ∧ (∀ q, s.move? k = none → s.queued? k = some q →
        verdictFields (s.verdictWord k) 1 0 0 0 s.orders[k].overrun false false)
    ∧ (s.live k = false →
        match s.orders[k].verdict with
        | .free => verdictFields (s.verdictWord k) 0 0 0 0 s.orders[k].overrun false false
        | .applied => verdictFields (s.verdictWord k) 12 0 0 0 s.orders[k].overrun false false
        | .refused r => verdictFields (s.verdictWord k) 11 r.code 0 0 s.orders[k].overrun false false
        | .done f => f ≤ 11 → verdictFields (s.verdictWord k) 8 0 f f s.orders[k].overrun false false
        | .cancelled f => f ≤ 11 → verdictFields (s.verdictWord k) 9 0 f f s.orders[k].overrun false false
        | .stopped f r => f ≤ 11 → verdictFields (s.verdictWord k) 10 r.code f f s.orders[k].overrun false false))
  ∧ [RefuseReason.imageFault, .badKind, .badRoute, .badSegment, .notAtStart, .unlocated, .notAtRest, .benchBusy, .full,
      .notLive, .heldSegment, .tokenHeld, .tokenFull, .notFaulted, .laneOccupied, .laneBusyStranded].map RefuseReason.code
      = [1, 2, 3, 4, 5, 6, 7, 8, 9, 10, 11, 12, 13, 14, 15, 16]
  ∧ [StopReason.silent, .intrusion, .sequence, .vanished, .stallLimit, .driveHalted].map StopReason.code
      = [17, 18, 19, 20, 21, 22]

/-! ### Orders (chapters 1, 2, 4, 6 and 7) -/

/-- FENCE sets cause HOST on every listed segment, whatever it was fenced with before, and changes no other record, no
hold, occupant or survey state; UNFENCE removes the fence of every listed segment and changes no survey state,
occupant or other fence, and the announcement of a listed open segment triggers the arbiter and has the lane of a cell
or berth ask again for a waiting crossing (R9, R78), here as in VOUCH, LEFT and EMPTY; a list that is not 1 to
12 configured IDs is refused whole, here and for VOUCH (R16, R17). -/
def Obligations.FenceAndUnfenceByTheList : Prop :=
  (∀ (s : State) (o : OrderRecord), s.listOk o = true ↔
    1 ≤ o.length ∧ o.length ≤ 12 ∧ ∀ g ∈ o.entries.take o.length, s.configured g = true)
  ∧ (∀ (addr : WordAddr) (tag : Word) (s : State) (k : SlotIx), s.TakesOrder (some .fence) addr tag k →
    exec (.fence addr tag) s = .next
      (if s.listOk (s.orderOf k) then
        { s.tookOrder addr tag k .applied with
          segs := s.segs.map fun (g : Segment) =>
            if g.id ∈ (s.orderOf k).ids then { g with fence := some .host } else g }
       else s.refusedOrder addr tag k .badSegment))
  ∧ (∀ (addr : WordAddr) (tag : Word) (s : State) (k : SlotIx), s.TakesOrder (some .unfence) addr tag k →
    (s.listOk (s.orderOf k) = false → exec (.unfence addr tag) s = .next (s.refusedOrder addr tag k .badSegment))
    ∧ (s.listOk (s.orderOf k) = true → ∀ u : State, u = { s.tookOrder addr tag k .applied with
          segs := s.segs.map fun (g : Segment) => if g.id ∈ (s.orderOf k).ids then { g with fence := none } else g } →
        (∃ t, exec (.unfence addr tag) s = .next t
          ∧ t = { u with crossingAsks := t.crossingAsks, arbiter := t.arbiter } ∧ State.AsksAgain s u t
          ∧ ((∃ g ∈ s.segs, g.id ∈ (s.orderOf k).ids ∧ g.fenced = true ∧ g.isOpen = true) → t.Triggered))
        ∧ (s.NoEntered →
            exec (.unfence addr tag) s = .next (if announced s.segs u.segs = [] then u else u.trigger))))

/-- VOUCH surveys and clears the listed segments that are unsurveyed and leaves the others; a list that is not 1 to 12
configured IDs is refused with BAD_SEGMENT, one with a held segment with HELD_SEGMENT, and applies nothing (R16,
R18). -/
def Obligations.VouchSurveysTheUnsurveyed : Prop :=
  ∀ (addr : WordAddr) (tag : Word) (s : State) (k : SlotIx), s.TakesOrder (some .vouch) addr tag k →
    (¬(1 ≤ (s.orderOf k).length ∧ (s.orderOf k).length ≤ 12 ∧ ∀ g ∈ (s.orderOf k).ids, s.configured g = true) →
      exec (.vouch addr tag) s = .next (s.refusedOrder addr tag k .badSegment))
    ∧ (s.listOk (s.orderOf k) = false → exec (.vouch addr tag) s = .next (s.refusedOrder addr tag k .badSegment))
    ∧ (s.listOk (s.orderOf k) = true → (∃ g ∈ (s.orderOf k).ids, (s.holder g).isSome) →
        exec (.vouch addr tag) s = .next (s.refusedOrder addr tag k .heldSegment))
    ∧ (s.listOk (s.orderOf k) = true → (∀ g ∈ (s.orderOf k).ids, s.holder g = none) →
        ∀ u : State, u = { s.tookOrder addr tag k .applied with
          segs := s.segs.map fun (g : Segment) =>
            if g.id ∈ (s.orderOf k).ids ∧ g.surveyed = false then { g with surveyed := true, occupant := none }
            else g } →
        (∃ t, exec (.vouch addr tag) s = .next t
          ∧ t = { u with crossingAsks := t.crossingAsks, arbiter := t.arbiter } ∧ State.AsksAgain s u t
          ∧ ((∃ g ∈ s.segs, g.id ∈ (s.orderOf k).ids ∧ g.surveyed = false ∧ g.holder = none) → t.Triggered))
        ∧ (s.NoEntered →
            exec (.vouch addr tag) s = .next (if announced s.segs u.segs = [] then u else u.trigger)))

/-- TOKEN by its tests in order: no bench, a token held already, a live move (which takes the token at once), room in
the table, no room (R20). -/
def Obligations.TokenByItsTests : Prop :=
  ∀ (addr : WordAddr) (tag : Word) (s : State) (k : SlotIx), s.TakesOrder (some .token) addr tag k →
    ∀ b, b = (s.orderOf k).bench →
    (b = 0 → exec (.token addr tag) s = .next (s.refusedOrder addr tag k .badKind))
    ∧ (b ≠ 0 → (b ∈ s.tokens ∨ ∃ m, s.moveOfBench b = some m ∧ m.token = true) →
        exec (.token addr tag) s = .next (s.refusedOrder addr tag k .tokenHeld))
    ∧ (b ≠ 0 → b ∉ s.tokens → ∀ m, s.moveOfBench b = some m → m.token = false →
        exec (.token addr tag) s = .next
          ({ s.tookOrder addr tag k .applied with
              moves := s.moves.map fun (x : Move) => if x.slot = m.slot then { x with token := true } else x }.trigger))
    ∧ (b ≠ 0 → b ∉ s.tokens → s.moveOfBench b = none → s.tokens.length < 4 →
        exec (.token addr tag) s = .next { s.tookOrder addr tag k .applied with tokens := s.tokens ++ [b] })
    ∧ (b ≠ 0 → b ∉ s.tokens → s.moveOfBench b = none → 4 ≤ s.tokens.length →
        exec (.token addr tag) s = .next (s.refusedOrder addr tag k .tokenFull))

/-- LANE_CLEAR by Table 4.4, its lane existing and configured, or not (R89). That row 6 needs an occupied cell is the
model's reading (assumption 20), and so is the berth that a lane with no waiting move shows in QUIET after the round
that rows 3 and 7 start (assumption 16). -/
def Obligations.LaneClearByTable : Prop :=
  ∀ (addr : WordAddr) (tag : Word) (s : State) (k : SlotIx), s.TakesOrder (some .laneClear) addr tag k →
    (4 ≤ (s.orderOf k).target → exec (.laneClear addr tag) s = .next (s.refusedOrder addr tag k .notFaulted))
    ∧ (∀ l : LaneIx, l.val = (s.orderOf k).target →
        (s.lanes[l].layout = none ∨ s.lanes[l].state = .quiet ∨ s.lanes[l].state = .offering
            ∨ s.lanes[l].state = .crossing →
          exec (.laneClear addr tag) s = .next (s.refusedOrder addr tag k .notFaulted))
        ∧ (s.lanes[l].layout ≠ none → s.lanes[l].state = .settling →
          s.lanes[l].cause = none → s.lanes[l].releaseTimer = .stopped →
          ∃ t, exec (.laneClear addr tag) s = .next t ∧ s.RoundStarts l t
            ∧ t = { s.tookOrder addr tag k .applied with lanes := s.lanes.set l t.lanes[l] })
        ∧ (s.lanes[l].layout ≠ none → s.lanes[l].state = .faulted →
          ((∃ x ∈ s.cellOccupants l, s.unmanagedOccupant x = true) →
            exec (.laneClear addr tag) s = .next (s.refusedOrder addr tag k .laneBusyStranded))
          ∧ (s.cellOccupants l = [] → s.lanes[l].settleTimer = .stopped →
            ∃ t, exec (.laneClear addr tag) s = .next t ∧ s.RoundStarts l t
              ∧ t = { s.tookOrder addr tag k .applied with lanes := s.lanes.set l t.lanes[l] })
          ∧ ((∀ x ∈ s.cellOccupants l, s.unmanagedOccupant x = false) →
              (∃ x ∈ s.cellOccupants l, s.clearableOccupant l x = false) →
            exec (.laneClear addr tag) s = .next (s.refusedOrder addr tag k .laneOccupied))
          ∧ (s.cellOccupants l ≠ [] → (∀ x ∈ s.cellOccupants l, s.clearableOccupant l x = true) →
            exec (.laneClear addr tag) s = .next
              { s.tookOrder addr tag k .applied with
                lanes := s.lanes.set l { s.lanes[l] with
                  state := .crossing
                  cause := none
                  crossingTimer := s.startTimer (s.crossingFull l)
                  offered := true
                  crossed := true } })))

/-- STOP_ALL in RUNNING mode: the mode becomes HALTED, every running timer of a move or a lane freezes with the time
it has left, the arbiter's marks clear, and no lane asks for a crossing; in HALTED mode it is APPLIED with no effect
(R130, R90, R41). -/
def Obligations.StopAllFreezesEveryTimer : Prop :=
  ∀ (addr : WordAddr) (tag : Word) (s : State) (k : SlotIx), s.TakesOrder (some .stopAll) addr tag k →
    (s.mode = .running → exec (.stopAll addr tag) s = .next
      { s.tookOrder addr tag k .applied with
        mode := .halted
        moves := s.moves.map fun (m : Move) => { m with silence := m.silence.freeze, backoff := m.backoff.freeze }
        lanes := s.lanes.map fun ln =>
          { ln with
            offerTimer := ln.offerTimer.freeze
            crossingTimer := ln.crossingTimer.freeze
            settleTimer := ln.settleTimer.freeze
            releaseTimer := ln.releaseTimer.freeze }
        crossingAsks := Vector.replicate 4 false
        arbiter := { s.arbiter with further := false, due := false } })
    ∧ (s.mode = .halted → exec (.stopAll addr tag) s = .next (s.tookOrder addr tag k .applied))

/-- RESUME in HALTED mode: the mode becomes RUNNING, every frozen timer restarts from its full value, the arbiter is
triggered, and each lane with a crossing that waits for its rest is to ask for it again; in RUNNING mode it is APPLIED
with no effect (R133, R91, R78; that the lanes ask in steps of their own is assumption 7). -/
def Obligations.ResumeRestartsEveryTimerInFull : Prop :=
  ∀ (addr : WordAddr) (tag : Word) (s : State) (k : SlotIx), s.TakesOrder (some .resume) addr tag k →
    (s.mode = .running → exec (.resume addr tag) s = .next (s.tookOrder addr tag k .applied))
    ∧ (s.mode = .halted → ∃ t, exec (.resume addr tag) s = .next t
        ∧ t = { s.tookOrder addr tag k .applied with
            mode := .running
            moves := s.moves.map fun (m : Move) =>
              { m with silence := m.silence.thaw s.silenceFull, backoff := m.backoff.thaw s.backoffFull }
            lanes := t.lanes, crossingAsks := t.crossingAsks, arbiter := t.arbiter }
        ∧ t.Triggered
        ∧ (∀ l : LaneIx, t.lanes[l] = { s.lanes[l] with
            offerTimer := s.lanes[l].offerTimer.thaw (s.offerFull l)
            crossingTimer := s.lanes[l].crossingTimer.thaw (s.crossingFull l)
            settleTimer := s.lanes[l].settleTimer.thaw (s.settleFull l)
            releaseTimer := s.lanes[l].releaseTimer.thaw (s.releaseFull l) })
        ∧ (∀ l : LaneIx, t.crossingAsks[l] = (s.crossingAsks[l] || (t.awaitsRest l).isSome))
        ∧ (∀ m ∈ t.moves, ∀ n, m.silence ≠ .frozen n ∧ m.backoff ≠ .frozen n))

/-- NOTICE_MASK replaces the enable set by word 4 bits 15:0, sets APPLIED, and leaves the latched notices; the
interrupt line is then the common cause of the two (R142). -/
def Obligations.NoticeMaskReplacesTheEnableSet : Prop :=
  ∀ (addr : WordAddr) (tag : Word) (s : State) (k : SlotIx), s.TakesOrder (some .noticeMask) addr tag k →
    exec (.noticeMask addr tag) s = .next
      { s.tookOrder addr tag k .applied with enable := s.orders[k].shadow[4].setWidth 16 }

/-- CANCEL by the target's state: no order there is refused with NOT_LIVE; a queued order leaves the queue CANCELLED;
a move in STOPPING is left; another live move is restored and enters STOPPING with reason CANCEL, leaves its berth
list or has its grant not entered withdrawn, and its lane advances where that ends an offer (R126 to R128, R35, R69,
R77). -/
def Obligations.CancelByTheTargetState : Prop :=
  ∀ (addr : WordAddr) (tag : Word) (s : State) (k : SlotIx), s.TakesOrder (some .cancel) addr tag k →
    (32 ≤ (s.orderOf k).target → exec (.cancel addr tag) s = .next (s.refusedOrder addr tag k .notLive))
    ∧ (∀ j : SlotIx, j.val = (s.orderOf k).target →
        (s.live j = false → exec (.cancel addr tag) s = .next (s.refusedOrder addr tag k .notLive))
        ∧ (∀ q, s.move? j = none → s.queued? j = some q →
            exec (.cancel addr tag) s = .next
              { s.tookOrder addr tag k .applied with
                queue := s.queue.filter fun x => x.slot ≠ j
                orders := (s.tookOrder addr tag k .applied).orders.set j
                  { s.orders[j] with verdict := .cancelled 0 } })
        ∧ (∀ m, s.move? j = some m → m.state = .stopping →
            exec (.cancel addr tag) s = .next (s.tookOrder addr tag k .applied))
        ∧ (∀ m, s.move? j = some m → m.state ≠ .stopping →
            ∃ t, exec (.cancel addr tag) s = .next t ∧ t.orders = (s.tookOrder addr tag k .applied).orders
              ∧ (∃ m', t.move? j = some m' ∧ m'.state = .stopping ∧ m'.endReason = some .cancel
                ∧ m'.t = m.t ∧ m'.f = m.f ∧ m'.h = m.f ∧ m'.backoff = .stopped ∧ m'.yield = .clear
                ∧ m'.silence = s.startTimer s.silenceFull ∧ m'.retries = m.retries ∧ m'.route = m.route)
              ∧ (∀ g ∈ m.span (m.f + 1) m.h, t.holder g ≠ some j) ∧ s.QuitsLane m t
              ∧ t.queue = s.queue ∧ t.tokens = s.tokens ∧ t.mode = s.mode ∧ t.reports = s.reports
              ∧ t.enable = s.enable ∧ s.SameFrame t
              ∧ t.segs.map (fun g => (g.surveyed, g.fence, g.occupant))
                  = s.segs.map (fun g => (g.surveyed, g.fence, g.occupant))))

/-- A MOVE that passes every check while a Move Table entry is free is admitted: it holds its start segment, its entry
is as Table 2.1 gives, the token of its bench goes onto it, and the arbiter is triggered (R25 to R28, R21); when the
counter would reach 65536, the live moves are first numbered 0 to k - 1 in their order of age (R24). -/
def Obligations.MoveIsAdmitted : Prop :=
  ∀ (addr : WordAddr) (tag : Word) (s : State) (k : SlotIx) (cls : MoveClass),
    s.TakesOrder (some .move) addr tag k → moveClass (s.orderOf k).classCode = some cls →
    (s.orderOf k).bench ≠ 0 → s.routeOk (s.orderOf k).length (s.orderOf k).ids = true → s.moves.length < 24 →
    s.admissionFault (s.orderOf k).bench ((s.orderOf k).ids.headD 0) true = none →
    ∀ (numbered : List Move) (next : Nat),
    numbered = (if s.admissionCounter < 65535 then s.moves
      else s.moves.map fun m =>
        { m with admission := (s.moves.filter fun x => x.admission < m.admission).length }) →
    next = (if s.admissionCounter < 65535 then s.admissionCounter else s.moves.length) →
    exec (.move addr tag) s = .next
      (State.trigger
        { s.tookOrder addr tag k .free with
          segs := s.segs.map fun (g : Segment) =>
            if g.id ∈ (s.orderOf k).ids.take 1 then { g with holder := some k } else g
          moves := numbered ++
            [{ slot := k, tag := tagOf tag, bench := (s.orderOf k).bench, cls := cls
               admission := next, retries := (s.orderOf k).retries, route := (s.orderOf k).ids
               t := 0, f := 0, h := 0, stack := [1]
               state := if s.mode = .halted then .blocked else .moving
               token := s.tokens.contains (s.orderOf k).bench
               gridlocked := false, shed := false, yield := .clear, extending := false, lane := none, endReason := none
               silence := .stopped, backoff := .stopped }]
          admissionCounter := next + 1
          tokens := s.tokens.filter fun b => b ≠ (s.orderOf k).bench })

/-- A MOVE is refused by the first stage it fails, queued while the Move Table is full, and refused with FULL when the
queue is full too (R25 to R27, R29, R143); the admission checks come in the order of Table 2.2: BENCH_BUSY, UNLOCATED,
NOT_AT_REST, NOT_AT_START, and HELD_SEGMENT where an entry is free (R27). The route check passes a route of 2 to 12
configured IDs with no repeat, each linked to the next, whose runs of cells lie between berths of their own lane
(R26). -/
def Obligations.MoveIsRefusedByItsChecksOrQueued : Prop :=
  (∀ (addr : WordAddr) (tag : Word) (s : State) (k : SlotIx), s.TakesOrder (some .move) addr tag k →
    ((moveClass (s.orderOf k).classCode = none ∨ (s.orderOf k).bench = 0) →
      exec (.move addr tag) s = .next (s.refusedOrder addr tag k .badKind))
    ∧ (∀ cls, moveClass (s.orderOf k).classCode = some cls → (s.orderOf k).bench ≠ 0 →
        (s.routeOk (s.orderOf k).length (s.orderOf k).ids = false →
          exec (.move addr tag) s = .next (s.refusedOrder addr tag k .badRoute))
        ∧ (s.routeOk (s.orderOf k).length (s.orderOf k).ids = true →
          (∀ r, s.admissionFault (s.orderOf k).bench ((s.orderOf k).ids.headD 0) (decide (s.moves.length < 24)) = some r →
            exec (.move addr tag) s = .next (s.refusedOrder addr tag k r))
          ∧ (24 ≤ s.moves.length →
              s.admissionFault (s.orderOf k).bench ((s.orderOf k).ids.headD 0) false = none →
            (s.queue.length < 6 → exec (.move addr tag) s = .next
              { s.tookOrder addr tag k .free with
                queue := s.queue ++ [⟨k, tagOf tag, (s.orderOf k).bench, cls, (s.orderOf k).retries, (s.orderOf k).ids⟩] })
            ∧ (6 ≤ s.queue.length → exec (.move addr tag) s = .next (s.refusedOrder addr tag k .full))))))
  ∧ (∀ (s : State) (b start : Nat) (entryFree : Bool),
    (((∃ m ∈ s.moves, m.bench = b) ∨ ∃ q ∈ s.queue, q.bench = b) →
      s.admissionFault b start entryFree = some .benchBusy)
    ∧ ((∀ m ∈ s.moves, m.bench ≠ b) → (∀ q ∈ s.queue, q.bench ≠ b) →
        (s.benchAt b = [] → s.admissionFault b start entryFree = some .unlocated)
        ∧ (2 ≤ (s.benchAt b).length → s.admissionFault b start entryFree = some .notAtRest)
        ∧ (∀ g, s.benchAt b = [g] →
            (g ≠ start → s.admissionFault b start entryFree = some .notAtStart)
            ∧ (g = start → entryFree = true → (s.holder start).isSome →
                s.admissionFault b start entryFree = some .heldSegment)
            ∧ (g = start → (entryFree = false ∨ s.holder start = none) →
                s.admissionFault b start entryFree = none))))
  ∧ (∀ (s : State) (len : Nat) (route : List Nat), s.routeOk len route = true ↔
    2 ≤ len ∧ len ≤ 12 ∧ route.length = len ∧ route.Nodup ∧ (∀ g ∈ route, s.configured g = true)
    ∧ s.isCell (route.headD 0) = false ∧ s.isCell (route.getLastD 0) = false
    ∧ ∀ i a b, route[i]? = some a → route[i + 1]? = some b →
      s.linked a b = true
      ∧ (∀ l, s.cellLane b = some l →
          s.cellLane a = some l ∨ (s.isCell a = false ∧ ∃ x, s.berthOf a = some (l, x)))
      ∧ (∀ l, s.cellLane a = some l →
          s.cellLane b = some l ∨ (s.isCell b = false ∧ ∃ x, s.berthOf b = some (l, x))))

/-- A take in a live slot refuses the new order whatever its kind and whatever the mode: the last-taken tag is the new
one, the overrun flag is set, SLOT_OVERRUN and ORDER_REFUSED are latched, and nothing else changes (R139); in BLOCKING
mode an order is refused with IMAGE_FAULT whatever its kind, and an order whose kind code names no kind is refused
with BAD_KIND, and nothing else changes (R141, R143). -/
def Obligations.OrdersTurnedAwayBySlotModeAndKind : Prop :=
  ∀ (addr : WordAddr) (tag : Word) (s : State) (k : SlotIx),
    (∀ kind : Option OrderKind, s.orderTaken kind addr tag = some k → s.live k = true →
      exec (.busWrite (wholeWrite .planner addr tag)) s = .next
        { s with
          mem := memWrite s.mem addr allLanes tag
          orders := s.orders.set k { s.orders[k] with
            shadow := s.orders[k].shadow.set 7 tag, lastTag := tagOf tag, overrun := true }
          notices := s.notices ||| Notice.mask .slotOverrun ||| Notice.mask .orderRefused })
    ∧ (∀ kind : Option OrderKind, s.mode = .blocking → s.orderTaken kind addr tag = some k → s.live k = false →
      exec (.busWrite (wholeWrite .planner addr tag)) s = .next (s.refusedOrder addr tag k .imageFault))
    ∧ (s.TakesOrder none addr tag k →
      exec (.orderOfUnknownKind addr tag) s = .next (s.refusedOrder addr tag k .badKind))

/-! ### Reports (chapter 5) -/

/-- A report is rejected by the first check of R99 it fails: IMAGE_FAULT in BLOCKING mode, BAD_KIND for a kind code
that names no kind and for a LEFT, STALLED or HALTED with bench 0, BAD_SEGMENT for a segment that is not configured,
under any of the six kinds; nothing else changes (R99, R98). -/
def Obligations.ReportsRejectedByTheirChecks : Prop :=
  ∀ (addr : WordAddr) (tag : Word) (s : State) (j : ReportIx),
    (∀ kind : Option ReportKind, s.mode = .blocking → s.reportTaken kind addr tag = some j →
      exec (.busWrite (wholeWrite .field addr tag)) s = .next (s.rejectedReport addr tag j .imageFault))
    ∧ (s.TakesReport none addr tag j →
      exec (.reportOfUnknownKind addr tag) s = .next (s.rejectedReport addr tag j .badKind))
    ∧ (s.TakesReport (some .left) addr tag j → (s.reportOf j).bench = 0 →
      exec (.left addr tag) s = .next (s.rejectedReport addr tag j .badKind))
    ∧ (s.TakesReport (some .stalled) addr tag j → (s.reportOf j).bench = 0 →
      exec (.stalled addr tag) s = .next (s.rejectedReport addr tag j .badKind))
    ∧ (s.TakesReport (some .halted) addr tag j → (s.reportOf j).bench = 0 →
      exec (.halted addr tag) s = .next (s.rejectedReport addr tag j .badKind))
    ∧ (s.configured (s.reportOf j).segment = false →
      (s.TakesReport (some .arrived) addr tag j →
        exec (.arrived addr tag) s = .next (s.rejectedReport addr tag j .badSegment))
      ∧ (s.TakesReport (some .seen) addr tag j →
        exec (.seen addr tag) s = .next (s.rejectedReport addr tag j .badSegment))
      ∧ (s.TakesReport (some .empty) addr tag j →
        exec (.empty addr tag) s = .next (s.rejectedReport addr tag j .badSegment))
      ∧ (s.TakesReport (some .left) addr tag j → (s.reportOf j).bench ≠ 0 →
        exec (.left addr tag) s = .next (s.rejectedReport addr tag j .badSegment))
      ∧ (s.TakesReport (some .stalled) addr tag j → (s.reportOf j).bench ≠ 0 →
        exec (.stalled addr tag) s = .next (s.rejectedReport addr tag j .badSegment))
      ∧ (s.TakesReport (some .halted) addr tag j → (s.reportOf j).bench ≠ 0 →
        exec (.halted addr tag) s = .next (s.rejectedReport addr tag j .badSegment)))

/-- ARRIVED of a managed bench that stands on one segment, onto the next segment of its route, which its move holds:
the segment is marked, the front advances by one, the shed mark clears, and MOVING and BLOCKED take their state by R48
(R100 row 1, R101). Onto the first cell of a granted crossing it enters the crossing: the entered mark is yes, the
offer timer stops, the crossing timer starts in full and the round is marked crossed (R73); no other lane changes. -/
def Obligations.ArrivedAdvancesTheFront : Prop :=
  ∀ (addr : WordAddr) (tag : Word) (s : State) (j : ReportIx) (m : Move) (g : Nat), s.SlotLaw →
    s.TakesReport (some .arrived) addr tag j → g = (s.reportOf j).segment → s.configured g = true →
    s.moveOfBench (s.reportOf j).bench = some m → s.holder g = some m.slot → m.t = m.f → g = m.seg (m.f + 1) →
    ∃ t, exec (.arrived addr tag) s = .next t
      ∧ t.reports = s.reports.set j (s.takenReport j tag .accepted)
      ∧ t.segs = s.segs.map (fun r =>
          if r.id = g then { r with occupant := some (s.markOf g (s.reportOf j).bench) } else r)
      ∧ (∃ m', t.move? m.slot = some m' ∧ m'.f = m.f + 1 ∧ m'.t = m.t ∧ m'.h = m.h ∧ m'.stack = m.stack
          ∧ m'.shed = false ∧ m'.route = m.route ∧ m'.backoff = m.backoff
          ∧ m'.silence = (if m.f + 1 < m.h then m.silence.restart s.silenceFull else .stopped)
          ∧ m'.state = (if m.eligible then s.indexState { m with f := m.f + 1 } else m.state))
      ∧ (m.eligible = true → t.Triggered)
      ∧ (s.isCell g = false ∨ s.isCell (m.seg m.f) = true → t.lanes = s.lanes)
      ∧ (∀ l, m.lane = some l → s.isCell g = true → s.isCell (m.seg m.f) = false → s.lanes[l].state = .crossing →
          s.lanes[l].crossing = some ⟨m.slot, false⟩ →
          t.lanes = s.lanes.set l { s.lanes[l] with
            crossing := some ⟨m.slot, true⟩
            offerTimer := .stopped
            crossingTimer := s.startTimer (s.crossingFull l)
            crossed := true })
      ∧ t.queue = s.queue ∧ t.tokens = s.tokens ∧ t.orders = s.orders ∧ t.notices = s.notices ∧ t.enable = s.enable
      ∧ t.mode = s.mode ∧ s.SameFrame t ∧ t.mem = memWrite s.mem (effAddr .field addr) allLanes tag

/-- ARRIVED by a bench with no live move that repeats what is recorded changes nothing (R106). Any other ARRIVED onto
rail that the bench's own move does not hold is an intrusion and latches INTRUSION: rail that is no lane cell is
fenced INTRUSION, a move that holds it stops (R103, R104), a lane takes it by its state (R105, R81 to R84), and the
bench's own move stops, either leaving its lane by R35; the segment keeps the bench of the move that holds it, or is
marked, with UNKNOWN for a bench with a live move. An own move that is STOPPING already has its running silence
restarted and nothing else (R36, R98; that this report restarts it too is the model's reading, assumption 24). The
mark records UNKNOWN for bench 0; the bench when no other segment names it, or when exactly one does and is linked to
this one; UNKNOWN otherwise (R11). -/
def Obligations.IntrudingArrivalByTheRail : Prop :=
  (∀ (addr : WordAddr) (tag : Word) (s : State) (j : ReportIx) (g b : Nat),
    s.TakesReport (some .arrived) addr tag j → g = (s.reportOf j).segment → b = (s.reportOf j).bench →
    s.configured g = true → s.moveOfBench b = none →
    ((b ≠ 0 ∧ s.occupant g = some (.bench b)) →
      exec (.arrived addr tag) s = .next (s.tookReport addr tag j .unmanaged))
    ∧ (¬(b ≠ 0 ∧ s.occupant g = some (.bench b)) → s.cellLane g = none → s.holder g = none →
      exec (.arrived addr tag) s = .next
        { s.tookReport addr tag j .unmanaged with
          segs := s.segs.map fun (r : Segment) =>
            if r.id = g then { r with fence := some .intrusion, occupant := some (s.markOf g b) } else r
          notices := s.notices ||| Notice.mask .intrusion }))
  ∧ (∀ (addr : WordAddr) (tag : Word) (s : State) (j : ReportIx) (g b : Nat) (own : Option Move),
    s.RunLaw → s.LaneLaw → s.TakesReport (some .arrived) addr tag j → g = (s.reportOf j).segment →
    b = (s.reportOf j).bench → s.configured g = true → s.moveOfBench b = own →
    (∀ m, own = some m → s.holder g ≠ some m.slot) →
    (own = none → b = 0 ∨ s.occupant g ≠ some (.bench b)) →
    ∃ t, exec (.arrived addr tag) s = .next t
      ∧ t.reports = s.reports.set j (s.takenReport j tag (if own = none then .unmanaged else .accepted))
      ∧ t.latched .intrusion = true
      ∧ t.segs.map (fun r => (r.surveyed, r.fence, r.occupant)) = s.segs.map (fun r =>
          if r.id = g then
            (r.surveyed, if s.isCell g then r.fence else some .intrusion,
              if s.underItsHolder g then r.occupant
              else some (if own = none then s.markOf g b else .unknown))
          else (r.surveyed, r.fence, r.occupant))
      ∧ (∀ m, own = some m → ∃ m', t.move? m.slot = some m' ∧ s.Stops .intrusion m m'
          ∧ (m.state = .stopping → m'.silence = m.silence.restart s.silenceFull))
      ∧ (s.isCell g = false → ∀ k m, s.holder g = some k → s.move? k = some m →
          (m.state ≠ .stopping → ∀ x ∈ m.span (m.f + 1) m.h, t.holder x ≠ some k)
          ∧ ∃ m', t.move? k = some m' ∧ s.Stops .intrusion m m')
      ∧ (s.isCell g = false → s.holder g = none →
          (own = none → t.lanes = s.lanes) ∧ ∀ m, own = some m → m.state ≠ .stopping → s.QuitsLane m t)
      ∧ (s.isCell g = false → own = none → ∀ k m, s.holder g = some k → s.move? k = some m →
          (m.state = .stopping → t.lanes = s.lanes) ∧ (m.state ≠ .stopping → s.QuitsLane m t))
      ∧ (∀ l, s.cellLane g = some l → s.LaneIntruded l (own.map (·.slot)) t)
      ∧ t.queue = s.queue ∧ t.tokens = s.tokens ∧ t.orders = s.orders ∧ t.enable = s.enable ∧ t.mode = s.mode
      ∧ s.SameFrame t ∧ t.mem = memWrite s.mem (effAddr .field addr) allLanes tag)
  ∧ (∀ (s : State) (g b : Nat),
    (b = 0 → s.markOf g b = .unknown)
    ∧ (b ≠ 0 → (∀ x ∈ s.benchAt b, x = g) → s.markOf g b = .bench b)
    ∧ (∀ x, b ≠ 0 → (s.benchAt b).filter (fun y => y ≠ g) = [x] →
        s.markOf g b = if s.linked x g = true then .bench b else .unknown)
    ∧ (b ≠ 0 → 2 ≤ ((s.benchAt b).filter (fun y => y ≠ g)).length → s.markOf g b = .unknown))

/-- LEFT: by a bench with no live move it vacates the segment for that bench alone; of the one segment a managed bench
stands on it is rejected with EMPTY_BENCH and changes nothing (R107 row 2, R108). -/
def Obligations.LeftVacatesOrIsRejected : Prop :=
  ∀ (addr : WordAddr) (tag : Word) (s : State) (j : ReportIx) (g b : Nat),
    s.TakesReport (some .left) addr tag j → g = (s.reportOf j).segment → b = (s.reportOf j).bench →
    b ≠ 0 → s.configured g = true →
    (s.moveOfBench b = none → ∀ u : State, u = { s.tookReport addr tag j .unmanaged with
        segs := s.segs.map fun (r : Segment) =>
          if r.id = g then (if r.occupant = some (.bench b) then { r with occupant := none } else r) else r } →
      (∃ t, exec (.left addr tag) s = .next t
        ∧ t = { u with crossingAsks := t.crossingAsks, arbiter := t.arbiter } ∧ State.AsksAgain s u t)
      ∧ (s.NoEntered →
          exec (.left addr tag) s = .next (if announced s.segs u.segs = [] then u else u.trigger)))
    ∧ (∀ m, s.moveOfBench b = some m → g = m.seg m.t → m.f ≠ m.t + 1 →
        exec (.left addr tag) s = .next (s.rejectedReport addr tag j .emptyBench))

/-- LEFT of the tail while the bench straddles, in a state whose holds agree with its moves: the tail is vacated and
released, t becomes f and the bottom stack entry loses one; a move at its last position that is not STOPPING ends DONE
with its slot's verdict final and MOVE_DONE latched (R107 row 1, R51, R38, R39). A move that goes on in MOVING or
BLOCKED takes its state by R48, and another keeps its own; a move that waits for the rest of its crossing is to
be asked for again on the opening of the tail (R9, R78). Leaving the last cell ends the crossing: the record goes, the
crossing timer stops, the move names no lane and CROSSING becomes the state of R48, and the lane chooses its next
offer, or in FAULTED starts its release (R75, R76, R88). -/
def Obligations.LeftReleasesTheTail : Prop :=
  ∀ (addr : WordAddr) (tag : Word) (s : State) (j : ReportIx) (m : Move) (g : Nat), s.RunLaw →
    s.TakesReport (some .left) addr tag j → g = (s.reportOf j).segment → (s.reportOf j).bench ≠ 0 →
    s.configured g = true → s.moveOfBench (s.reportOf j).bench = some m → g = m.seg m.t → m.f = m.t + 1 →
    ∃ t, exec (.left addr tag) s = .next t
      ∧ t.reports = s.reports.set j (s.takenReport j tag .accepted)
      ∧ t.holder g ≠ some m.slot ∧ t.occupant g ≠ some (.bench m.bench)
      ∧ ((m.f + 1 = m.route.length ∧ m.state ≠ .stopping) →
          t.move? m.slot = none ∧ t.orders[m.slot].verdict = .done m.f ∧ t.latched .moveDone = true
          ∧ (s.TableLaw → s.Ends m t))
      ∧ (¬(m.f + 1 = m.route.length ∧ m.state ≠ .stopping) →
          ∃ m', t.move? m.slot = some m' ∧ m'.t = m.f ∧ m'.f = m.f ∧ m'.route = m.route
            ∧ (m.eligible = true → t.Triggered ∧ m'.state = s.indexState { m with t := m.f })
            ∧ (m.state = .stalled ∨ m.state = .stopping → m'.state = m.state)
            ∧ (m.state = .crossing ∧ ¬s.LeavesLane m → m'.state = .crossing ∧ m'.lane = m.lane)
            ∧ (m.state = .crossing ∧ s.LeavesLane m → t.Triggered ∧ m'.state = s.indexState { m with t := m.f })
            ∧ (s.LeavesLane m → m'.lane = none)
            ∧ m'.h = m.h ∧ m'.stack = dropBottom m.stack
            ∧ ∀ r l, s.seg? g = some r → r.surveyed = true → r.occupant = some (.bench m.bench) →
                r.kind.lane = some l → (t.awaitsRest l).isSome = true → t.crossingAsks[l] = true)
      ∧ (s.LaneLaw → ∀ l, m.lane = some l → s.LeavesLane m → ∀ ln : Lane,
          ln = { s.lanes[l] with crossing := none, crossingTimer := .stopped } →
          (s.lanes[l].state = .faulted → t.lanes[l] =
            if s.lanes[l].cause = some .crossingLimit ∧ s.timing.lanes[l].autoRelease = true then
              { ln with releaseTimer := s.startTimer (s.releaseFull l) }
            else ln)
          ∧ (s.lanes[l].state = .crossing →
            ((s.timing.lanes[l].strictOrder = false ∧ ln.runCounter < s.timing.lanes[l].runLimit
                ∧ ln.lists[ln.berth] ≠ []) →
              t.lanes[l] = { ln with
                state := .offering, runCounter := ln.runCounter + 1, offered := true
                offerTimer := s.startTimer (s.offerFull l) })
            ∧ (¬(s.timing.lanes[l].strictOrder = false ∧ ln.runCounter < s.timing.lanes[l].runLimit
                ∧ ln.lists[ln.berth] ≠ []) → s.Advances l ln t)))
      ∧ t.enable = s.enable ∧ t.mode = s.mode ∧ s.SameFrame t
      ∧ t.mem = memWrite s.mem (effAddr .field addr) allLanes tag
      ∧ t.segs.map (fun r => (r.surveyed, r.fence)) = s.segs.map (fun r => (r.surveyed, r.fence))

/-- STALLED of a managed bench, on a segment it stands on, while its move is not yet STALLED or STOPPING: the move is
restored to its front, its silence stops, its back-off starts (frozen in HALTED mode), and STALL is latched; it leaves
its berth list or has its grant not entered withdrawn, and its lane advances where that ends an offer (R109, R110,
R120, R121, R69, R77). A repeated STALLED restarts the back-off in full, or frozen at it in HALTED mode, and latches
STALL again; the retries stay (R122). Of a STOPPING move it restarts the running silence and nothing else (R110); of a
bench with no live move it changes nothing (R109). -/
def Obligations.StalledHoldsTheMoveOrRestartsItsBackoff : Prop :=
  (∀ (addr : WordAddr) (tag : Word) (s : State) (j : ReportIx) (m : Move) (g : Nat), s.SlotLaw →
    s.TakesReport (some .stalled) addr tag j → g = (s.reportOf j).segment → (s.reportOf j).bench ≠ 0 →
    s.configured g = true → s.moveOfBench (s.reportOf j).bench = some m → (g = m.seg m.t ∨ g = m.seg m.f) →
    m.state ≠ .stalled → m.state ≠ .stopping →
    ∃ t, exec (.stalled addr tag) s = .next t
      ∧ t.reports = s.reports.set j (s.takenReport j tag .accepted)
      ∧ (∃ m', t.move? m.slot = some m' ∧ m'.state = .stalled ∧ m'.t = m.t ∧ m'.f = m.f ∧ m'.h = m.f
          ∧ m'.silence = .stopped ∧ m'.backoff = s.startTimer s.backoffFull ∧ m'.yield = .clear
          ∧ m'.shed = m.shed ∧ m'.gridlocked = m.gridlocked ∧ m'.token = m.token ∧ m'.retries = m.retries
          ∧ m'.route = m.route)
      ∧ (∀ x ∈ m.span (m.f + 1) m.h, t.holder x ≠ some m.slot) ∧ s.QuitsLane m t
      ∧ t.latched .stall = true
      ∧ t.queue = s.queue ∧ t.tokens = s.tokens ∧ t.orders = s.orders ∧ t.enable = s.enable ∧ t.mode = s.mode
      ∧ s.SameFrame t ∧ t.mem = memWrite s.mem (effAddr .field addr) allLanes tag
      ∧ t.segs.map (fun r => (r.surveyed, r.fence, r.occupant))
          = s.segs.map (fun r => (r.surveyed, r.fence, r.occupant)))
  ∧ (∀ (addr : WordAddr) (tag : Word) (s : State) (j : ReportIx) (m : Move) (g : Nat), s.SlotLaw →
    s.TakesReport (some .stalled) addr tag j → g = (s.reportOf j).segment → (s.reportOf j).bench ≠ 0 →
    s.configured g = true → s.moveOfBench (s.reportOf j).bench = some m → (g = m.seg m.t ∨ g = m.seg m.f) →
    m.state = .stalled →
    exec (.stalled addr tag) s = .next
      { s.tookReport addr tag j .accepted with
        moves := s.moves.map fun (x : Move) =>
          if x.slot = m.slot then
            { x with backoff := s.startTimer s.backoffFull, silence := x.silence.restart s.silenceFull }
          else x
        notices := s.notices ||| Notice.mask .stall })
  ∧ (∀ (addr : WordAddr) (tag : Word) (s : State) (j : ReportIx) (m : Move) (g : Nat), s.SlotLaw →
    s.TakesReport (some .stalled) addr tag j → g = (s.reportOf j).segment → (s.reportOf j).bench ≠ 0 →
    s.configured g = true → s.moveOfBench (s.reportOf j).bench = some m → (g = m.seg m.t ∨ g = m.seg m.f) →
    m.state = .stopping →
    exec (.stalled addr tag) s = .next
      { s.tookReport addr tag j .accepted with
        moves := s.moves.map fun (x : Move) =>
          if x.slot = m.slot then { x with silence := x.silence.restart s.silenceFull } else x })
  ∧ (∀ (addr : WordAddr) (tag : Word) (s : State) (j : ReportIx), s.TakesReport (some .stalled) addr tag j →
    (s.reportOf j).bench ≠ 0 → s.configured (s.reportOf j).segment = true →
    s.moveOfBench (s.reportOf j).bench = none →
    exec (.stalled addr tag) s = .next (s.tookReport addr tag j .unmanaged))

/-- HALTED of a managed bench on a segment it stands on ends its move: its holds are released, its slot's verdict is
final (by the pending reason in STOPPING, else DRIVE_HALTED), MOVE_STOPPED is latched, occupants stay (R109, R111,
R129, R39); the head of the queue is admitted or refused by its checks (R31), and a lane on whose cell the bench
stands is FAULTED with STRANDED (R87). HALTED of a bench with no live move changes nothing (R109). -/
def Obligations.HaltedEndsTheMove : Prop :=
  (∀ (addr : WordAddr) (tag : Word) (s : State) (j : ReportIx), s.TakesReport (some .halted) addr tag j →
    (s.reportOf j).bench ≠ 0 → s.configured (s.reportOf j).segment = true →
    s.moveOfBench (s.reportOf j).bench = none →
    exec (.halted addr tag) s = .next (s.tookReport addr tag j .unmanaged))
  ∧ ∀ (addr : WordAddr) (tag : Word) (s : State) (j : ReportIx) (m : Move) (g : Nat), s.SlotLaw →
    s.TakesReport (some .halted) addr tag j → g = (s.reportOf j).segment → (s.reportOf j).bench ≠ 0 →
    s.configured g = true → s.moveOfBench (s.reportOf j).bench = some m → (g = m.seg m.t ∨ g = m.seg m.f) →
    ∃ t, exec (.halted addr tag) s = .next t
      ∧ t.reports = s.reports.set j (s.takenReport j tag .accepted)
      ∧ t.move? m.slot = none ∧ s.live m.slot = true ∧ t.live m.slot = false
      ∧ t.orders[m.slot].verdict
          = (if m.state = .stopping then EndReason.verdict m.endReason m.f else .stopped m.f .driveHalted)
      ∧ t.orders[m.slot].overrun = s.orders[m.slot].overrun
      ∧ t.latched .moveStopped = true
      ∧ (s.TableLaw → s.RunLaw → s.Ends m t) ∧ (s.RunLaw → s.LaneLaw → s.Strands m t)
      ∧ (∀ x ∈ m.span m.t m.h, t.holder x ≠ some m.slot)
      ∧ t.enable = s.enable ∧ t.mode = s.mode ∧ s.SameFrame t
      ∧ t.mem = memWrite s.mem (effAddr .field addr) allLanes tag
      ∧ t.segs.map (fun r => (r.surveyed, r.fence, r.occupant))
          = s.segs.map (fun r => (r.surveyed, r.fence, r.occupant))

/-- A managed bench reported out of step: LEFT, STALLED and HALTED of a segment it does not stand on, and ARRIVED onto
a segment its move holds that is not the next one, are rejected with SEQUENCE; ARRIVED onto a segment its move holds
while it straddles is rejected with OVERLENGTH. The move, if not yet STOPPING, enters STOPPING with reason SEQUENCE
and leaves its lane by R35; no occupant changes (R100 rows 2 and 3, R102, R107 row 3, R109, R35, R69, R77). -/
def Obligations.OutOfStepStopsTheMove : Prop :=
  ∀ (addr : WordAddr) (tag : Word) (s : State) (j : ReportIx) (m : Move) (g : Nat) (c : Instr) (x : RejectReason),
    s.SlotLaw →
    ((c = .left addr tag ∧ s.TakesReport (some .left) addr tag j ∧ g ≠ m.seg m.t ∧ x = .sequence)
      ∨ (c = .stalled addr tag ∧ s.TakesReport (some .stalled) addr tag j ∧ g ≠ m.seg m.t ∧ g ≠ m.seg m.f
        ∧ x = .sequence)
      ∨ (c = .halted addr tag ∧ s.TakesReport (some .halted) addr tag j ∧ g ≠ m.seg m.t ∧ g ≠ m.seg m.f
        ∧ x = .sequence)
      ∨ (c = .arrived addr tag ∧ s.TakesReport (some .arrived) addr tag j ∧ s.holder g = some m.slot ∧ m.t ≠ m.f
        ∧ x = .overlength)
      ∨ (c = .arrived addr tag ∧ s.TakesReport (some .arrived) addr tag j ∧ s.holder g = some m.slot ∧ m.t = m.f
        ∧ g ≠ m.seg (m.f + 1) ∧ x = .sequence)) →
    g = (s.reportOf j).segment → (s.reportOf j).bench ≠ 0 → s.configured g = true →
    s.moveOfBench (s.reportOf j).bench = some m →
    ∃ t, exec c s = .next t
      ∧ t.reports = s.reports.set j (s.takenReport j tag (.rejected x))
      ∧ t.latched .reportRejected = true
      ∧ (∃ m', t.move? m.slot = some m' ∧ s.Stops .sequence m m' ∧ (m.state = .stopping → m' = m))
      ∧ (m.state = .stopping → t.lanes = s.lanes) ∧ (m.state ≠ .stopping → s.QuitsLane m t)
      ∧ t.queue = s.queue ∧ t.tokens = s.tokens ∧ t.orders = s.orders ∧ t.enable = s.enable ∧ t.mode = s.mode
      ∧ t.segs.map (fun r => (r.surveyed, r.fence, r.occupant))
          = s.segs.map (fun r => (r.surveyed, r.fence, r.occupant))

/-- SEEN by the condition of its segment: an unsurveyed one is surveyed and keeps its occupant or becomes UNKNOWN; a
held or UNKNOWN one is left; under a recorded bench the running silence of its live move restarts; an open one becomes
UNKNOWN and INTRUSION is latched: one that is no lane cell is fenced INTRUSION, and of a lane cell the lane takes the
intrusion by its state (R112, R113, R14, R81 to R84). -/
def Obligations.SeenByTheSegmentCondition : Prop :=
  ∀ (addr : WordAddr) (tag : Word) (s : State) (j : ReportIx) (r : Segment),
    s.TakesReport (some .seen) addr tag j → s.seg? (s.reportOf j).segment = some r →
    (r.surveyed = false →
      exec (.seen addr tag) s = .next
        { s.tookReport addr tag j .accepted with
          segs := s.segs.map fun (x : Segment) =>
            if x.id = r.id then { x with surveyed := true, occupant := some (x.occupant.getD .unknown) } else x })
    ∧ (r.surveyed = true → (r.occupant = some .unknown ∨ (r.occupant = none ∧ r.holder ≠ none)) →
        exec (.seen addr tag) s = .next (s.tookReport addr tag j .accepted))
    ∧ (r.surveyed = true → r.occupant = none → r.holder = none → s.cellLane r.id = none →
        exec (.seen addr tag) s = .next
          { s.tookReport addr tag j .accepted with
            segs := s.segs.map fun (x : Segment) =>
              if x.id = r.id then { x with fence := some .intrusion, occupant := some .unknown } else x
            notices := s.notices ||| Notice.mask .intrusion })
    ∧ (∀ b, r.surveyed = true → r.occupant = some (.bench b) →
        (s.moveOfBench b = none → exec (.seen addr tag) s = .next (s.tookReport addr tag j .accepted))
        ∧ (∀ m, s.moveOfBench b = some m → exec (.seen addr tag) s = .next
          { s.tookReport addr tag j .accepted with
            moves := s.moves.map fun (x : Move) =>
              if x.slot = m.slot then { x with silence := x.silence.restart s.silenceFull } else x }))
    ∧ (∀ l, s.RunLaw → s.LaneLaw → r.surveyed = true → r.occupant = none → r.holder = none →
        s.cellLane r.id = some l →
        ∃ t, exec (.seen addr tag) s = .next t
          ∧ t.reports = s.reports.set j (s.takenReport j tag .accepted)
          ∧ s.LaneIntruded l none t ∧ t.latched .intrusion = true
          ∧ t.segs.map (fun x => (x.surveyed, x.fence, x.occupant)) = s.segs.map (fun x =>
              (x.surveyed, x.fence, if x.id = r.id then some .unknown else x.occupant))
          ∧ t.queue = s.queue ∧ t.tokens = s.tokens ∧ t.orders = s.orders ∧ t.enable = s.enable ∧ t.mode = s.mode
          ∧ s.SameFrame t ∧ t.mem = memWrite s.mem (effAddr .field addr) allLanes tag)

/-- EMPTY by the condition of its segment. Under a bench with a live move: the segment is surveyed, fenced VANISHED
and keeps its bench, VANISHED is latched, and the move stops with that reason and leaves its lane by R35 (R117, R69,
R77). With no such bench on it: an unsurveyed one is surveyed and cleared; an UNKNOWN is cleared; a bench is cleared,
fenced VANISHED and VANISHED latched; an unoccupied one is left (R114, R116, R14). -/
def Obligations.EmptyByTheSegmentCondition : Prop :=
  (∀ (addr : WordAddr) (tag : Word) (s : State) (j : ReportIx) (r : Segment) (m : Move), s.SlotLaw →
    s.TakesReport (some .empty) addr tag j → s.seg? (s.reportOf j).segment = some r →
    s.moveOfOccupant r.occupant = some m →
    ∃ t, exec (.empty addr tag) s = .next t
      ∧ t.reports = s.reports.set j (s.takenReport j tag .accepted) ∧ t.latched .vanished = true
      ∧ t.segs.map (fun x => (x.surveyed, x.fence, x.occupant)) = s.segs.map (fun x =>
          if x.id = r.id then (true, some .vanished, x.occupant) else (x.surveyed, x.fence, x.occupant))
      ∧ (∃ m', t.move? m.slot = some m' ∧ s.Stops .vanished m m' ∧ (m.state = .stopping → m' = m))
      ∧ (m.state ≠ .stopping → ∀ x ∈ m.span (m.f + 1) m.h, t.holder x ≠ some m.slot)
      ∧ (m.state = .stopping → t.lanes = s.lanes) ∧ (m.state ≠ .stopping → s.QuitsLane m t)
      ∧ t.queue = s.queue ∧ t.tokens = s.tokens ∧ t.orders = s.orders ∧ t.enable = s.enable ∧ t.mode = s.mode
      ∧ s.SameFrame t ∧ t.mem = memWrite s.mem (effAddr .field addr) allLanes tag)
  ∧ ∀ (addr : WordAddr) (tag : Word) (s : State) (j : ReportIx) (r : Segment),
    s.TakesReport (some .empty) addr tag j → s.seg? (s.reportOf j).segment = some r →
    s.moveOfOccupant r.occupant = none →
    ∀ u : State, u = { s.tookReport addr tag j .accepted with
      segs := s.segs.map fun (x : Segment) =>
        if x.id = r.id then
          (if r.surveyed = false then { x with surveyed := true, occupant := none }
           else match r.occupant with
            | some .unknown => { x with occupant := none }
            | some (.bench _) => { x with occupant := none, fence := some .vanished }
            | none => x)
        else x
      notices := s.notices |||
        (if r.surveyed = true ∧ r.occupant ≠ none ∧ r.occupant ≠ some .unknown then Notice.mask .vanished else 0) } →
    (∃ t, exec (.empty addr tag) s = .next t
      ∧ t = { u with crossingAsks := t.crossingAsks, arbiter := t.arbiter } ∧ State.AsksAgain s u t)
    ∧ (s.NoEntered → exec (.empty addr tag) s = .next (if announced s.segs u.segs = [] then u else u.trigger))

/-! ### Expiries (chapters 2, 4 and 6) -/

/-- Silence expiry: outside STOPPING the move enters STOPPING with reason SILENT, its silence starts again in full,
and it leaves its lane by R35; in STOPPING the move ends STOPPED with reason SILENT whatever was pending, the queue
head is tried and a bench on a lane cell strands its lane (R37, R35, R69, R77, R39, R31, R87; that the command is
taken whatever time its running timer has left is the model's choice, assumption 4). -/
def Obligations.SilenceExpiryStopsOrEnds : Prop :=
  ∀ (s : State) (k : SlotIx) (m : Move), s.SlotLaw → s.move? k = some m → m.silence.isRunning = true →
    (m.state ≠ .stopping → ∃ t, exec (.silenceExpiry k) s = .next t
      ∧ (∃ m', t.move? k = some m' ∧ m'.state = .stopping ∧ m'.endReason = some .silent ∧ m'.t = m.t ∧ m'.f = m.f
          ∧ m'.h = m.f ∧ m'.backoff = .stopped ∧ m'.silence = s.startTimer s.silenceFull)
      ∧ (∀ x ∈ m.span (m.f + 1) m.h, t.holder x ≠ some k) ∧ s.QuitsLane m t
      ∧ t.orders = s.orders ∧ t.queue = s.queue ∧ t.mem = s.mem ∧ t.reports = s.reports ∧ t.enable = s.enable
      ∧ t.mode = s.mode ∧ s.SameFrame t)
    ∧ (m.state = .stopping → ∃ t, exec (.silenceExpiry k) s = .next t
      ∧ t.move? k = none ∧ t.orders[k].verdict = .stopped m.f .silent ∧ t.latched .moveStopped = true
      ∧ (s.TableLaw → s.RunLaw → s.Ends m t) ∧ (s.RunLaw → s.LaneLaw → s.Strands m t)
      ∧ (∀ x ∈ m.span m.t m.h, t.holder x ≠ some k)
      ∧ t.mem = s.mem ∧ t.reports = s.reports ∧ t.enable = s.enable ∧ t.mode = s.mode ∧ s.SameFrame t)

/-- Back-off expiry of a STALLED move: with no retries left it enters STOPPING with reason STALL_LIMIT, and the lane
of an entered crossing stays as it is (R124); off any lane with retries left it loses one and takes its state by R48;
on an entered crossing it loses one and returns to CROSSING (R123, R78); with retries left the expiry triggers the
arbiter (R41; the time left is the model's choice, assumption 4). -/
def Obligations.BackoffExpiryRetriesOrStops : Prop :=
  ∀ (s : State) (k : SlotIx) (m : Move), s.SlotLaw → s.move? k = some m → m.state = .stalled →
    m.backoff.isRunning = true →
    (m.retries = 0 → ∃ t, exec (.backoffExpiry k) s = .next t
      ∧ (∃ m', t.move? k = some m' ∧ m'.state = .stopping ∧ m'.endReason = some .stallLimit ∧ m'.backoff = .stopped
          ∧ m'.silence = s.startTimer s.silenceFull ∧ m'.t = m.t ∧ m'.f = m.f ∧ m'.h = m.f)
      ∧ s.QuitsLane m t ∧ t.mem = s.mem ∧ t.orders = s.orders ∧ s.SameFrame t)
    ∧ (m.retries ≠ 0 → s.enteredLane k = none →
      exec (.backoffExpiry k) s = .next
        ({ s with moves := s.moves.map fun (x : Move) =>
            if x.slot = k then { x with retries := x.retries - 1, backoff := .stopped, state := s.indexState x }
            else x }.trigger))
    ∧ (m.retries ≠ 0 → s.enteredLane k ≠ none → ∃ t, exec (.backoffExpiry k) s = .next t
      ∧ (∃ m', t.move? k = some m' ∧ m'.retries = m.retries - 1 ∧ m'.backoff = .stopped ∧ m'.state = .crossing
          ∧ m'.t = m.t ∧ m'.f = m.f ∧ m'.lane = m.lane)
      ∧ t.Triggered ∧ t.lanes = s.lanes ∧ t.mem = s.mem ∧ t.orders = s.orders ∧ s.SameFrame t)

/-- An offer lapses: a list of more than one loses its head to its tail, no other list changes, and no segment and no
move changes (R72). The entry deadline lapses: the move is restored, waits again in LANE_WAIT at the tail of its
berth's list, the crossing record is removed, and nothing beyond its front stays held by it (R74). After either the
lane advances: in normal order to the next higher berth that waits, else in a new round to the first; in strict order
to the lowest that waits; to QUIET where none waits (R67, R68). A round of offers that ends without a crossing sets a
clear stand-off flag and latches LANE_STANDOFF (R80; the time left is the model's choice, assumption 4). -/
def Obligations.OfferTimerLapses : Prop :=
  (∀ (s : State) (l : LaneIx), s.lanes[l].state = .offering → s.lanes[l].offerTimer.isRunning = true →
    ∃ t, exec (.offerLapse l) s = .next t
      ∧ ∃ ln : Lane, ln = { s.lanes[l] with
          offerTimer := .stopped
          lists := s.lanes[l].lists.set s.lanes[l].berth (match s.lanes[l].lists[s.lanes[l].berth] with
            | [] => []
            | head :: rest => rest ++ [head]) }
        ∧ s.Advances l ln t
        ∧ t = { s with
            lanes := s.lanes.set l t.lanes[l]
            notices := if ln.standsOff s.timing.lanes[l].strictOrder then s.notices ||| Notice.mask .laneStandoff
              else s.notices })
  ∧ (∀ (ln : Lane) (start : Nat),
    (∀ j, ln.nextBerth start = some j → start ≤ j.val ∧ j.val < ln.berthCount ∧ ln.lists[j] ≠ []
      ∧ ∀ i : BerthIx, start ≤ i.val → i < j → ln.lists[i] = [])
    ∧ (ln.nextBerth start = none → ∀ i : BerthIx, start ≤ i.val → i.val < ln.berthCount → ln.lists[i] = []))
  ∧ (∀ (s : State) (l : LaneIx) (k : SlotIx) (m : Move), s.lanes[l].state = .crossing →
    s.lanes[l].crossing = some ⟨k, false⟩ → s.lanes[l].offerTimer.isRunning = true → s.move? k = some m →
    m.f < m.h →
    ∃ t, exec (.entryDeadlineLapse l) s = .next t
      ∧ (∃ m', t.move? k = some m' ∧ m'.state = .laneWait ∧ m'.t = m.t ∧ m'.f = m.f ∧ m'.h = m.f
          ∧ m'.silence = .stopped ∧ m'.lane = m.lane)
      ∧ (∃ ln : Lane, ln = { s.lanes[l] with
            crossing := none
            offerTimer := .stopped
            lists := s.lanes[l].lists.set s.lanes[l].berth (s.lanes[l].lists[s.lanes[l].berth] ++ [k]) }
          ∧ s.Advances l ln t
          ∧ t.notices = (if ln.standsOff s.timing.lanes[l].strictOrder then s.notices ||| Notice.mask .laneStandoff
              else s.notices))
      ∧ (∀ x : LaneIx, x ≠ l → t.lanes[x] = s.lanes[x])
      ∧ (∀ x ∈ m.span (m.f + 1) m.h, t.holder x ≠ some k)
      ∧ t.orders = s.orders ∧ t.queue = s.queue ∧ t.mem = s.mem ∧ t.reports = s.reports ∧ t.enable = s.enable
      ∧ t.mode = s.mode ∧ s.SameFrame t)

/-- The crossing limit of an entered crossing: the lane is FAULTED with CROSSING_LIMIT, its timers stop, LANE_FAULT is
latched; the crossing record, the crossing move and every segment are left (R86, R85; the time left is the model's
choice, assumption 4). -/
def Obligations.CrossingLimitFaultsTheLane : Prop :=
  ∀ (s : State) (l : LaneIx) (k : SlotIx), s.lanes[l].state = .crossing →
    s.lanes[l].crossing = some ⟨k, true⟩ → s.lanes[l].crossingTimer.isRunning = true →
    exec (.crossingLimitExpiry l) s = .next
      { s with
        lanes := s.lanes.set l { s.lanes[l] with
          state := .faulted, cause := some .crossingLimit, runCounter := 0, offerTimer := .stopped
          settleTimer := .stopped, crossingTimer := .stopped, releaseTimer := .stopped }
        notices := s.notices ||| Notice.mask .laneFault }

/-- The settle timer of a SETTLING lane and the release timer of a FAULTED lane each bring a round: the fault cause is
absent, the first berth whose list holds a move is offered, and nothing outside the lane changes (R84, R88, R67; the
time left, and the berth that a lane with no waiting move shows in QUIET, are the model's reading, assumptions 4 and
16). -/
def Obligations.SettleAndReleaseStartARound : Prop :=
  ∀ (s : State) (l : LaneIx),
    (s.lanes[l].state = .settling → s.lanes[l].settleTimer.isRunning = true → s.lanes[l].cause = none →
      s.lanes[l].releaseTimer = .stopped →
      ∃ t, exec (.settleExpiry l) s = .next t ∧ s.RoundStarts l t
        ∧ t = { s with lanes := s.lanes.set l t.lanes[l] })
    ∧ (s.lanes[l].state = .faulted → s.lanes[l].releaseTimer.isRunning = true → s.lanes[l].settleTimer = .stopped →
      ∃ t, exec (.releaseExpiry l) s = .next t ∧ s.RoundStarts l t
        ∧ t = { s with lanes := s.lanes.set l t.lanes[l] })

/-! ### The arbiter and the offers (chapters 3 and 4) -/

/-- A trigger in RUNNING mode starts a pass that lists exactly the MOVING and BLOCKED moves, class before age; during
a pass it asks for one further pass; in HALTED mode it is discarded (R41, R42; that the pass begins in a step of its
own is the model's choice, assumption 5). -/
def Obligations.ExtensionPassListsByPriority : Prop :=
  ∀ s : State,
    (s.mode = .running → s.arbiter.pass = none → (∃ m ∈ s.moves, m.eligible = true) →
      ∃ order : List Move, order.Perm (s.moves.filter (·.eligible))
        ∧ order.Pairwise (fun a b => b.before a = false)
        ∧ exec .extensionPass s = .next
          { s with
            moves := s.moves.map fun (m : Move) => { m with yield := m.yield.onPassStart }
            arbiter := ⟨some (order.map (·.slot)), none, false, false⟩ })
    ∧ (s.mode = .running → s.arbiter.pass ≠ none →
        exec .extensionPass s = .next { s with arbiter := { s.arbiter with further := true } })
    ∧ (s.mode = .halted → exec .extensionPass s = .next s)

/-- A visit grants the visited move every consecutive position beyond its horizon that is in reach, is no lane cell
and is grantable to it, as one stack entry, and settles its state by Table 3.2 (R44 to R46, R50); one settled
LANE_WAIT joins the tail of its berth's list, and a QUIET lane starts a round with it (R47). As requests of the part's
own, the grants are made one by one: after each the move holds the new position, and its authority shows the horizon
as it then stands (R7, R43, R45, R34; that the row is the whole visit and an own step one request is the model's
choice, assumption 23). A move that is gone, is not MOVING or BLOCKED, or bears a yield mark is passed over (R42). The
pass ends with its last turn, or when the mode is HALTED, a visit under way leaving its move in the state of R48
(assumption 28): a yield mark that a pass has begun after clears, which is a trigger, and one set since stays (R42,
R58). -/
def Obligations.ExtensionVisitExtendsOneMove : Prop :=
  (∀ (s : State) (k : SlotIx) (rest : List SlotIx) (m : Move), s.RunLaw → s.ArbiterLaw → s.mode = .running →
    s.arbiter.pass = some (k :: rest) → s.arbiter.check = none → s.move? k = some m → m.eligible = true →
    m.yield = .clear →
    (∃ t n, exec .extensionVisit s = .next t
      ∧ (∀ i, m.h < i → i ≤ m.h + n → s.mayExtend m i = true) ∧ s.mayExtend m (m.h + n + 1) = false
      ∧ (∃ m', t.move? k = some m' ∧ m'.h = m.h + n ∧ m'.t = m.t ∧ m'.f = m.f ∧ m'.route = m.route
          ∧ m'.stack
            = (if n = 0 then m.stack else if m.extending = true then addTop n m.stack else pushEntry n m.stack)
          ∧ m'.state = s.tableState { m with h := m.h + n } ∧ m'.extending = false
          ∧ (n ≠ 0 → m.h = m.f → m'.silence = .running s.silenceFull) ∧ (n ≠ 0 → m'.gridlocked = false))
      ∧ (∀ i, m.h < i → i ≤ m.h + n → t.holder (m.seg i) = some k)
      ∧ (rest ≠ [] → t.arbiter.pass = some rest) ∧ t.arbiter.check = none
      ∧ t.orders = s.orders ∧ t.queue = s.queue ∧ t.tokens = s.tokens ∧ t.mem = s.mem ∧ t.reports = s.reports
      ∧ t.enable = s.enable ∧ t.mode = s.mode ∧ s.SameFrame t
      ∧ t.segs.map (fun r => (r.surveyed, r.fence, r.occupant))
          = s.segs.map (fun r => (r.surveyed, r.fence, r.occupant))
      ∧ (∀ l b, s.berthOf (m.seg m.h) = some (l, b) → s.tableState { m with h := m.h + n } = .laneWait →
          ∀ ln : Lane, ln = { s.lanes[l] with lists := s.lanes[l].lists.set b (s.lanes[l].lists[b] ++ [k]) } →
          (∃ m', t.move? k = some m' ∧ m'.lane = some l)
          ∧ (s.lanes[l].state ≠ .quiet → t.lanes = s.lanes.set l ln)
          ∧ (∀ j, s.lanes[l].state = .quiet → ln.nextBerth 0 = some j →
              t.lanes = s.lanes.set l { ln with
                state := .offering, berth := j, offered := true, crossed := false, runCounter := 0
                offerTimer := .running (s.offerFull l) })))
    ∧ (s.mayExtend m (m.h + 1) = true → ∃ t, s.requestStep = .next t
      ∧ t = { s with
          segs := s.segs.map fun (g : Segment) =>
            if g.id = m.seg (m.h + 1) then { g with holder := some k } else g
          moves := s.moves.map fun (x : Move) =>
            if x.slot = k then
              { x with
                stack := if x.extending = true then addTop 1 x.stack else pushEntry 1 x.stack
                h := x.h + 1
                gridlocked := false
                extending := true
                silence := if x.h = x.f then .running s.silenceFull else x.silence }
            else x }
      ∧ t.holder (m.seg (m.h + 1)) = some k ∧ t.authority k = .go (m.h + 1) (m.seg (m.h + 1)))
    ∧ (s.mayExtend m (m.h + 1) = false → ∃ t, s.requestStep = .next t
      ∧ t.segs = s.segs ∧ t.gridlock = s.gridlock ∧ (rest ≠ [] → t.arbiter.pass = some rest)
      ∧ (∃ m', t.move? k = some m' ∧ m'.h = m.h ∧ m'.f = m.f ∧ m'.stack = m.stack ∧ m'.silence = m.silence
          ∧ m'.state = s.tableState m ∧ m'.extending = false)
      ∧ t.arbiter.check = (if s.tableState m = .blocked then some ⟨[k], m.seg (m.h + 1)⟩ else none)))
  ∧ (∀ (s : State) (k : SlotIx) (rest : List SlotIx), s.ArbiterLaw → s.mode = .running →
    s.arbiter.pass = some (k :: rest) → s.arbiter.check = none → rest ≠ [] →
    (∀ m, s.move? k = some m → m.eligible = false ∨ m.yield ≠ .clear) →
    exec .extensionVisit s = .next { s with arbiter := { s.arbiter with pass := some rest } })
  ∧ (∀ (s : State) (p : List SlotIx), s.arbiter.pass = some p → s.mode = .running → s.arbiter.check = none →
    (p = [] ∨ ∃ k, p = [k] ∧ ∀ m, s.move? k = some m → m.eligible = false ∨ m.yield ≠ .clear) →
    exec .extensionVisit s = .next
      { s with
        moves := s.moves.map fun (m : Move) => if m.yield = .inPass then { m with yield := .clear } else m
        arbiter := ⟨none, none, false,
          s.arbiter.due || s.arbiter.further || s.moves.any fun m => m.yield = .inPass⟩ })
  ∧ (∀ (s : State) (p : List SlotIx), s.arbiter.pass = some p → s.mode = .halted →
    exec .extensionVisit s = .next
      { s with
        moves := s.moves.map fun (m : Move) =>
          { m with
            state := if m.extending = true then s.indexState m else m.state
            extending := false
            yield := if m.yield = .inPass then .clear else m.yield }
        arbiter := ⟨none, none, false, s.arbiter.due⟩ })
  ∧ (∀ (s t : State) (k : SlotIx), s.RunLaw → s.ArbiterLaw → s.mode = .running → s.arbiter.pass = some [k] →
    s.arbiter.check = none → exec .extensionVisit s = .next t →
    t.arbiter.pass = none ∧ (∀ m ∈ t.moves, m.yield ≠ .inPass)
    ∧ ((s.arbiter.further = true ∨ ∃ m ∈ s.moves, m.yield = .inPass) → t.arbiter.due = true))

/-- A visit that settles its move BLOCKED follows the chain of holders from that move's next segment. With no ring
nothing is shed or reported. A ring found has 2 to 24 members, each waiting on a segment that the next one holds; the
lowest in priority of those that hold ahead and bear no shed mark is shed: BLOCKED, restored to its front, with the
shed and yield marks, named in the gridlock capture, and GRIDLOCK latched. If there is none, every member is
gridlocked, and unless every one was so before, the capture names the lowest member as unresolved and GRIDLOCK is
latched (R54 to R57, R60, R62). As requests of the part's own, the links are followed one by one, each holder and each
move read as it then stands, and no ring is found through a move that has since been stalled or stopped (R55, R63;
that an own step is one link is the model's choice, assumption 23). -/
def Obligations.RingIsShedOrReported : Prop :=
  (∀ (s : State) (k : SlotIx) (rest : List SlotIx) (m : Move), s.RunLaw → s.AdmissionLaw → s.ArbiterLaw →
    s.mode = .running → s.arbiter.pass = some (k :: rest) → s.arbiter.check = none → s.move? k = some m →
    m.eligible = true → m.yield = .clear → s.mayExtend m (m.h + 1) = false → s.tableState m = .blocked →
    ∀ u : State, u = { s with
        moves := s.moves.map fun (x : Move) => if x.slot = k then { x with state := .blocked } else x } →
    ∃ t, exec .extensionVisit s = .next t
      ∧ (u.findRing 24 [k] (m.seg (m.h + 1)) = none → s.FindsNoRing t)
      ∧ (∀ ring, u.findRing 24 [k] (m.seg (m.h + 1)) = some ring →
          2 ≤ ring.length ∧ ring.length ≤ 24 ∧ ring.Nodup
          ∧ (∀ i a b, ring[i]? = some a → ring[(i + 1) % ring.length]? = some b →
              ∃ x, u.move? a = some x ∧ u.holder (x.seg (x.h + 1)) = some b
                ∧ (a ≠ k → u.heldUpOn x = some (x.seg (x.h + 1))))
          ∧ u.BreaksRing ring t))
  ∧ (∀ (s : State) (p : List SlotIx) (c : WaitCheck), s.RunLaw → s.AdmissionLaw → s.mode = .running →
    s.arbiter.pass = some p → s.arbiter.check = some c →
    ∃ t, s.requestStep = .next t
      ∧ (s.holder c.segment = none → s.FindsNoRing t)
      ∧ (∀ k, s.holder c.segment = some k →
          (k ∈ c.chain → ∀ ring, ring = c.chain.dropWhile (fun x => x ≠ k) →
            ((∀ a ∈ ring, ∃ x, s.move? a = some x ∧ x.eligible = true) → s.BreaksRing ring t)
            ∧ (¬(∀ a ∈ ring, ∃ x, s.move? a = some x ∧ x.eligible = true) → s.FindsNoRing t))
          ∧ (k ∉ c.chain → (∀ x, s.move? k = some x → s.heldUpOn x = none) → s.FindsNoRing t)
          ∧ (∀ x g, k ∉ c.chain → s.move? k = some x → s.heldUpOn x = some g →
              (c.chain.length < 24 →
                t = { s with arbiter := { s.arbiter with check := some ⟨c.chain ++ [k], g⟩ } })
              ∧ (24 ≤ c.chain.length → s.FindsNoRing t))))

/-- The offer check: when every cell of the head move's run and its exit berth are grantable to it, all are granted as
one stack entry and the lane is CROSSING with the deadline running; otherwise nothing changes (R70, R71, R7; that a
refused check leaves nothing behind is the model's reading, assumption 6). The request for the rest of a resumed
crossing: where one waits and every position to the exit berth is grantable, all are granted as one stack entry and the
silence starts; otherwise nothing changes but that it has been made (R78, R7, R91; that it is an own step is assumption
7). -/
def Obligations.OfferCheckGrantsTheWholeCrossing : Prop :=
  (∀ (s : State) (l : LaneIx) (k : SlotIx) (m : Move), s.mode = .running → s.lanes[l].state = .offering →
    s.lanes[l].head? = some k → s.move? k = some m → ∀ e, e = s.exitBeyond m →
    ((e < m.route.length ∧ ∀ g ∈ m.span (m.h + 1) e, s.grantable m.token g = true) →
      exec (.offerCheck l) s = .next
        { s with
          segs := s.segs.map fun (g : Segment) => if g.id ∈ m.span (m.h + 1) e then { g with holder := some k } else g
          moves := s.moves.map fun (x : Move) =>
            if x.slot = k then
              { x with
                stack := pushEntry (e - x.h) x.stack, h := e, gridlocked := false, state := .crossing
                silence := .running s.silenceFull }
            else x
          lanes := s.lanes.set l { s.lanes[l] with
            lists := s.lanes[l].lists.map fun q => q.filter fun x => x ≠ k
            state := .crossing
            crossing := some ⟨k, false⟩
            offerTimer := .running (s.offerFull l)
            standoff := false } })
    ∧ (¬(e < m.route.length ∧ ∀ g ∈ m.span (m.h + 1) e, s.grantable m.token g = true) →
        exec (.offerCheck l) s = .next s))
  ∧ (∀ (s : State) (l : LaneIx) (k : SlotIx) (m : Move), s.mode = .running →
    (s.lanes[l].state = .crossing ∨ (s.lanes[l].state = .faulted ∧ s.lanes[l].cause = some .crossingLimit)) →
    s.lanes[l].crossing = some ⟨k, true⟩ → s.move? k = some m → m.state = .crossing → m.h = m.f →
    ∀ e, e = s.exitEntered m → m.f < e →
    ((e < m.route.length ∧ ∀ g ∈ m.span (m.h + 1) e, s.grantable m.token g = true) →
      s.takeOwn (.rest l) = .next
        { s with
          segs := s.segs.map fun (g : Segment) => if g.id ∈ m.span (m.h + 1) e then { g with holder := some k } else g
          moves := s.moves.map fun (x : Move) =>
            if x.slot = k then
              { x with
                stack := pushEntry (e - x.h) x.stack, h := e, gridlocked := false
                silence := .running s.silenceFull }
            else x
          crossingAsks := s.crossingAsks.set l false })
    ∧ (¬(e < m.route.length ∧ ∀ g ∈ m.span (m.h + 1) e, s.grantable m.token g = true) →
        s.takeOwn (.rest l) = .next { s with crossingAsks := s.crossingAsks.set l false }))
  ∧ ∀ (s : State) (l : LaneIx), s.awaitsRest l = none →
    s.takeOwn (.rest l) = .next { s with crossingAsks := s.crossingAsks.set l false }

/-! ### Starts (chapter 10) -/

/-- Power-on, and the reset input in BLOCKING or STARTING mode, begin a full load: the part is STARTING and holds
nothing; the board memory and the waiting commands are no state of the part (R173, R182, R183; the readout word, the
count of choices, the time base, and the default TIMING values before the load ends are the model's, assumptions 3, 8,
10 and 11). -/
def Obligations.FullLoadBeginsWithNothing : Prop :=
  ∀ s : State,
    exec .powerOn s = .next
      { State.reset with pending := s.pending, mem := s.mem, readData := s.readData, picks := s.picks }
    ∧ ((s.mode = .blocking ∨ s.mode = .starting) → exec .lineReset s = exec .powerOn s)

/-- A line reset in RUNNING or HALTED mode: windows, rail configuration, fences, occupants, lane parameters, TIMING
values and health stay; holders, survey state, moves, queue, tokens, lanes, slots and captures are cleared; the enable
set of the load is restored and RESTARTED alone is latched (R183; the phase of the time base and the readout word
stay, the model's choice, assumptions 8 and 11). -/
def Obligations.LineResetKeepsTheConfiguration : Prop :=
  ∀ s : State, (s.mode = .running ∨ s.mode = .halted) →
    exec .lineReset s = .next
      { s with
        mode := .running
        latch := ⟨none, [], []⟩
        orders := Vector.replicate 32 ⟨Vector.replicate 8 0, 0, .free, false⟩
        reports := Vector.replicate 16 ⟨Vector.replicate 4 0, 0, .free, 0⟩
        segs := s.segs.map fun (g : Segment) => { g with surveyed := false, holder := none }
        moves := []
        queue := []
        admissionCounter := 0
        tokens := []
        arbiter := ⟨none, none, false, false⟩
        lanes := s.lanes.map fun ln =>
          { layout := ln.layout, state := .quiet, berth := 0, cause := none, crossing := none
            lists := Vector.replicate 8 [], runCounter := 0, offered := false, crossed := false, standoff := false
            offerTimer := .stopped, crossingTimer := .stopped, settleTimer := .stopped, releaseTimer := .stopped }
        crossingAsks := Vector.replicate 4 false
        notices := Notice.mask .restarted
        enable := s.timing.enable
        guardCapture := ⟨0, .planner, .read, 0⟩
        gridlock := ⟨0, 0, false⟩ }

/-- The end of a load: BLOCKING exactly when LAYOUT is in ERROR or a structure check failed, with no table and no lane
then; the notices are RESTARTED with IMAGE_WARNING and IMAGE_FAULT where the load gave them; the segments have IDs 1
to 192, each once, and none is surveyed, held or occupied; the structure code is 0 to 11, and slots and tables are
empty (R181, R165, R176; the phase of the time base is the model's choice, assumption 11, and the words a short memory
does not deliver assumption 15). -/
def Obligations.LoadEndsInOneChange : Prop :=
  ∀ (s : State) (code : List CodeWord) (o : LoadOutcome), s.mode = .starting → o = loadOutcome code →
    exec (.imageLoadEnd code) s = .next
      { State.reset with
        pending := s.pending, mem := s.mem, readData := s.readData, picks := s.picks
        mode := o.mode, windows := o.windows, timing := o.timing, health := some o.health, segs := o.segs
        lanes := o.lanes, enable := o.timing.enable
        notices := Notice.mask .restarted ||| (if o.health.warns then Notice.mask .imageWarning else 0)
          ||| (if o.mode = .blocking then Notice.mask .imageFault else 0) }
    ∧ (o.mode = .blocking ↔ (o.health.layout = .error ∨ o.health.code ≠ 0))
    ∧ (o.mode = .blocking ∨ o.mode = .running)
    ∧ (o.mode = .blocking → o.segs = [] ∧ ∀ l : LaneIx, o.lanes[l].layout = none)
    ∧ (∀ g ∈ o.segs, g.surveyed = false ∧ g.holder = none ∧ g.occupant = none
        ∧ (g.fence = none ∨ g.fence = some .image))
    ∧ (o.segs.map (·.id)).Nodup ∧ (∀ g ∈ o.segs, 1 ≤ g.id ∧ g.id ≤ 192) ∧ o.health.code ≤ 11
    ∧ (o.health.timing = .error → o.timing = Timing.default)

/-- The code of the image words: a code word with no error stays as it is; any one bit in error is corrected; any two
are found uncorrectable (R174, R185). -/
def Obligations.CodeCorrectsOneDetectsTwo : Prop :=
  ∀ (c : CodeWord) (w : Word), judgeCode c = .clean w →
    (∀ i, i < 40 → judgeCode (c ^^^ BitVec.twoPow 40 i) = .corrected w)
    ∧ (∀ i j, i < 40 → j < 40 → i ≠ j →
        judgeCode (c ^^^ BitVec.twoPow 40 i ^^^ BitVec.twoPow 40 j) = .uncorrectable)

/-! ### Laws that every step keeps -/

/-- The laws that the steps keep, and the law of authority, hold right after power-on (R1, R20, R24, R29, R49, R139,
R160, R182, R11, R34, R41, R47, R55, R58, R71). -/
def Obligations.LawsHoldAtReset : Prop :=
  State.reset.MemoryLaw ∧ State.reset.TableLaw ∧ State.reset.AdmissionLaw ∧ State.reset.ModeLaw
    ∧ State.reset.RunLaw ∧ State.reset.SegLaw ∧ State.reset.PlaceLaw ∧ State.reset.LaneLaw
    ∧ State.reset.ArbiterLaw ∧ State.reset.GoLaw

/-- Every step keeps the board memory in its canonical form (the form is the model's representation of the memory of
R151, assumption 10). -/
def Obligations.StepKeepsMemoryCanonical : Prop :=
  ∀ s t : State, s.MemoryLaw → step s = .next t → t.MemoryLaw

/-- Every step keeps the table laws: at most 24 live moves and 6 queued orders, no bench and no slot twice across the
two, a queue only behind a full Move Table, and at most one token for a bench (R29, R30, R139, R20). -/
def Obligations.StepKeepsTheTableLaws : Prop :=
  ∀ s t : State, s.TableLaw → step s = .next t → t.TableLaw

/-- Every step keeps the admission numbers of the live moves distinct and below the counter, renumbering included
(R24, R42). -/
def Obligations.StepKeepsAdmissionNumbers : Prop :=
  ∀ s t : State, s.CapacityLaw → s.AdmissionLaw → step s = .next t → t.AdmissionLaw

/-- Every step keeps what the mode decides: nothing but the bus works while STARTING, there is no rail in STARTING and
BLOCKING, and no timer runs outside RUNNING (R160, R165, R181, R90, R130). -/
def Obligations.StepKeepsTheModeLaws : Prop :=
  ∀ s t : State, s.ModeLaw → step s = .next t → t.ModeLaw

/-- Every step keeps the run law: for every live move the held segments are exactly route positions t to h, with t ≤ f
≤ h and f - t ≤ 1, and its stack has 1 to 8 entries, each at least 1, with sum h - t + 1 (R49); segment IDs are 1 to
192, each given once (R1), and the route of every live or queued order passes the route check (R26). -/
def Obligations.StepKeepsTheRunLaw : Prop :=
  ∀ s t : State, s.RunLaw → step s = .next t → t.RunLaw

/-- Every step keeps the place law: a bench is the recorded occupant of at most two segments, and of two only when
they are linked (R11). -/
def Obligations.StepKeepsThePlaceLaw : Prop :=
  ∀ s t : State, s.SegLaw → s.PlaceLaw → step s = .next t → t.PlaceLaw

/-- Every step keeps the laws of the lanes: a move is in a berth list exactly when it is in LANE_WAIT, and then in one
only (R47); a lane has at most one crossing grant, and its cells are held only by the move that holds it (R71); a
waiting move stands on the berth of its list, a crossing move is in the states and places its crossing gives it, every
live bench occupies exactly its route positions t to f, and a release timer runs in FAULTED alone (R64, R66, R73, R77,
R78, R49). And it keeps the laws of the arbiter: a move with a yield mark bears the shed mark and holds nothing ahead
(R57 to R59), a visit grants to the move whose turn it is, a check runs over 1 to 24 live moves off the lanes, within
a pass, and passes are asked for in RUNNING mode (R41, R42, R45, R55). -/
def Obligations.StepKeepsTheLaneAndArbiterLaws : Prop :=
  ∀ s t : State, s.TableLaw → s.RunLaw → s.LaneLaw → s.ArbiterLaw → step s = .next t → t.LaneLaw ∧ t.ArbiterLaw

/-- No command but a start changes the configuration of the rail, takes back a survey, or removes a fence, but for a
write that takes an UNFENCE (R2, R13, R15); and none changes the windows, the TIMING values or the health (R153, R177,
R171). -/
def Obligations.RailHistoryIsKept : Prop :=
  ∀ (c : Instr) (s t : State), exec c s = .next t → Instr.isStart c = false →
    t.segs.map (fun g => (g.id, g.kind, g.links)) = s.segs.map (fun g => (g.id, g.kind, g.links))
    ∧ List.Forall₂ (fun g g' => (g.surveyed = true → g'.surveyed = true)
        ∧ (s.takesKind c (some .unfence) = false → g.fence ≠ none → g'.fence ≠ none)) s.segs t.segs
    ∧ t.windows = s.windows ∧ t.timing = s.timing ∧ t.health = s.health
    ∧ t.lanes.map (·.layout) = s.lanes.map (·.layout)

/-- A latched cause stays latched until a PLANNER read that includes header word 0 returns it, or until a start; and
only a start or a NOTICE_MASK changes the enable set (R164, R166, R168). -/
def Obligations.LatchedCausesStay : Prop :=
  ∀ (c : Instr) (s t : State) (n : Notice), exec c s = .next t → Instr.isStart c = false →
    (s.latched n = true → t.latched n = true
      ∨ ∃ r ws, Instr.read? c = some r ∧ s.windows = some ws ∧ r.master = .planner ∧ ws.includes r 0 = true)
    ∧ (s.takesKind c (some .noticeMask) = false → t.enable = s.enable)
end

