-- ==== Sys2Proof/Laws/State.lean ====
section
/-!
SUPPORT. Every field of State after each of the shared updates, and the table look-ups that an update does not touch:
each true by unfolding, so that no proof opens a record update.
-/

namespace Sys2Proof.Machine

/-! ### notify -/

@[simp] theorem State.notify_pending (s : State) (n : Notice) : (s.notify n).pending = s.pending := rfl
@[simp] theorem State.notify_mode (s : State) (n : Notice) : (s.notify n).mode = s.mode := rfl
@[simp] theorem State.notify_clockCount (s : State) (n : Notice) : (s.notify n).clockCount = s.clockCount := rfl
@[simp] theorem State.notify_windows (s : State) (n : Notice) : (s.notify n).windows = s.windows := rfl
@[simp] theorem State.notify_latch (s : State) (n : Notice) : (s.notify n).latch = s.latch := rfl
@[simp] theorem State.notify_readData (s : State) (n : Notice) : (s.notify n).readData = s.readData := rfl
@[simp] theorem State.notify_mem (s : State) (n : Notice) : (s.notify n).mem = s.mem := rfl
@[simp] theorem State.notify_orders (s : State) (n : Notice) : (s.notify n).orders = s.orders := rfl
@[simp] theorem State.notify_reports (s : State) (n : Notice) : (s.notify n).reports = s.reports := rfl
@[simp] theorem State.notify_segs (s : State) (n : Notice) : (s.notify n).segs = s.segs := rfl
@[simp] theorem State.notify_moves (s : State) (n : Notice) : (s.notify n).moves = s.moves := rfl
@[simp] theorem State.notify_queue (s : State) (n : Notice) : (s.notify n).queue = s.queue := rfl
@[simp] theorem State.notify_admissionCounter (s : State) (n : Notice) : (s.notify n).admissionCounter = s.admissionCounter := rfl
@[simp] theorem State.notify_tokens (s : State) (n : Notice) : (s.notify n).tokens = s.tokens := rfl
@[simp] theorem State.notify_arbiter (s : State) (n : Notice) : (s.notify n).arbiter = s.arbiter := rfl
@[simp] theorem State.notify_lanes (s : State) (n : Notice) : (s.notify n).lanes = s.lanes := rfl
@[simp] theorem State.notify_crossingAsks (s : State) (n : Notice) : (s.notify n).crossingAsks = s.crossingAsks := rfl
@[simp] theorem State.notify_timing (s : State) (n : Notice) : (s.notify n).timing = s.timing := rfl
@[simp] theorem State.notify_notices (s : State) (n : Notice) : (s.notify n).notices = s.notices ||| n.mask := rfl
@[simp] theorem State.notify_enable (s : State) (n : Notice) : (s.notify n).enable = s.enable := rfl
@[simp] theorem State.notify_guardCapture (s : State) (n : Notice) : (s.notify n).guardCapture = s.guardCapture := rfl
@[simp] theorem State.notify_gridlock (s : State) (n : Notice) : (s.notify n).gridlock = s.gridlock := rfl
@[simp] theorem State.notify_health (s : State) (n : Notice) : (s.notify n).health = s.health := rfl
@[simp] theorem State.notify_picks (s : State) (n : Notice) : (s.notify n).picks = s.picks := rfl

/-! ### store -/

@[simp] theorem State.store_pending (s : State) (a : WordAddr) (lanes : Lanes) (d : Word) : (s.store a lanes d).pending = s.pending := rfl
@[simp] theorem State.store_mode (s : State) (a : WordAddr) (lanes : Lanes) (d : Word) : (s.store a lanes d).mode = s.mode := rfl
@[simp] theorem State.store_clockCount (s : State) (a : WordAddr) (lanes : Lanes) (d : Word) : (s.store a lanes d).clockCount = s.clockCount := rfl
@[simp] theorem State.store_windows (s : State) (a : WordAddr) (lanes : Lanes) (d : Word) : (s.store a lanes d).windows = s.windows := rfl
@[simp] theorem State.store_latch (s : State) (a : WordAddr) (lanes : Lanes) (d : Word) : (s.store a lanes d).latch = s.latch := rfl
@[simp] theorem State.store_readData (s : State) (a : WordAddr) (lanes : Lanes) (d : Word) : (s.store a lanes d).readData = s.readData := rfl
@[simp] theorem State.store_mem (s : State) (a : WordAddr) (lanes : Lanes) (d : Word) : (s.store a lanes d).mem = memWrite s.mem a lanes d := rfl
@[simp] theorem State.store_orders (s : State) (a : WordAddr) (lanes : Lanes) (d : Word) : (s.store a lanes d).orders = s.orders := rfl
@[simp] theorem State.store_reports (s : State) (a : WordAddr) (lanes : Lanes) (d : Word) : (s.store a lanes d).reports = s.reports := rfl
@[simp] theorem State.store_segs (s : State) (a : WordAddr) (lanes : Lanes) (d : Word) : (s.store a lanes d).segs = s.segs := rfl
@[simp] theorem State.store_moves (s : State) (a : WordAddr) (lanes : Lanes) (d : Word) : (s.store a lanes d).moves = s.moves := rfl
@[simp] theorem State.store_queue (s : State) (a : WordAddr) (lanes : Lanes) (d : Word) : (s.store a lanes d).queue = s.queue := rfl
@[simp] theorem State.store_admissionCounter (s : State) (a : WordAddr) (lanes : Lanes) (d : Word) : (s.store a lanes d).admissionCounter = s.admissionCounter := rfl
@[simp] theorem State.store_tokens (s : State) (a : WordAddr) (lanes : Lanes) (d : Word) : (s.store a lanes d).tokens = s.tokens := rfl
@[simp] theorem State.store_arbiter (s : State) (a : WordAddr) (lanes : Lanes) (d : Word) : (s.store a lanes d).arbiter = s.arbiter := rfl
@[simp] theorem State.store_lanes (s : State) (a : WordAddr) (lanes : Lanes) (d : Word) : (s.store a lanes d).lanes = s.lanes := rfl
@[simp] theorem State.store_crossingAsks (s : State) (a : WordAddr) (lanes : Lanes) (d : Word) : (s.store a lanes d).crossingAsks = s.crossingAsks := rfl
@[simp] theorem State.store_timing (s : State) (a : WordAddr) (lanes : Lanes) (d : Word) : (s.store a lanes d).timing = s.timing := rfl
@[simp] theorem State.store_notices (s : State) (a : WordAddr) (lanes : Lanes) (d : Word) : (s.store a lanes d).notices = s.notices := rfl
@[simp] theorem State.store_enable (s : State) (a : WordAddr) (lanes : Lanes) (d : Word) : (s.store a lanes d).enable = s.enable := rfl
@[simp] theorem State.store_guardCapture (s : State) (a : WordAddr) (lanes : Lanes) (d : Word) : (s.store a lanes d).guardCapture = s.guardCapture := rfl
@[simp] theorem State.store_gridlock (s : State) (a : WordAddr) (lanes : Lanes) (d : Word) : (s.store a lanes d).gridlock = s.gridlock := rfl
@[simp] theorem State.store_health (s : State) (a : WordAddr) (lanes : Lanes) (d : Word) : (s.store a lanes d).health = s.health := rfl
@[simp] theorem State.store_picks (s : State) (a : WordAddr) (lanes : Lanes) (d : Word) : (s.store a lanes d).picks = s.picks := rfl

/-! ### updateMove -/

@[simp] theorem State.updateMove_pending (s : State) (k : SlotIx) (u : Move → Move) : (s.updateMove k u).pending = s.pending := rfl
@[simp] theorem State.updateMove_mode (s : State) (k : SlotIx) (u : Move → Move) : (s.updateMove k u).mode = s.mode := rfl
@[simp] theorem State.updateMove_clockCount (s : State) (k : SlotIx) (u : Move → Move) : (s.updateMove k u).clockCount = s.clockCount := rfl
@[simp] theorem State.updateMove_windows (s : State) (k : SlotIx) (u : Move → Move) : (s.updateMove k u).windows = s.windows := rfl
@[simp] theorem State.updateMove_latch (s : State) (k : SlotIx) (u : Move → Move) : (s.updateMove k u).latch = s.latch := rfl
@[simp] theorem State.updateMove_readData (s : State) (k : SlotIx) (u : Move → Move) : (s.updateMove k u).readData = s.readData := rfl
@[simp] theorem State.updateMove_mem (s : State) (k : SlotIx) (u : Move → Move) : (s.updateMove k u).mem = s.mem := rfl
@[simp] theorem State.updateMove_orders (s : State) (k : SlotIx) (u : Move → Move) : (s.updateMove k u).orders = s.orders := rfl
@[simp] theorem State.updateMove_reports (s : State) (k : SlotIx) (u : Move → Move) : (s.updateMove k u).reports = s.reports := rfl
@[simp] theorem State.updateMove_segs (s : State) (k : SlotIx) (u : Move → Move) : (s.updateMove k u).segs = s.segs := rfl
@[simp] theorem State.updateMove_moves (s : State) (k : SlotIx) (u : Move → Move) : (s.updateMove k u).moves = s.moves.map fun m => if m.slot = k then u m else m := rfl
@[simp] theorem State.updateMove_queue (s : State) (k : SlotIx) (u : Move → Move) : (s.updateMove k u).queue = s.queue := rfl
@[simp] theorem State.updateMove_admissionCounter (s : State) (k : SlotIx) (u : Move → Move) : (s.updateMove k u).admissionCounter = s.admissionCounter := rfl
@[simp] theorem State.updateMove_tokens (s : State) (k : SlotIx) (u : Move → Move) : (s.updateMove k u).tokens = s.tokens := rfl
@[simp] theorem State.updateMove_arbiter (s : State) (k : SlotIx) (u : Move → Move) : (s.updateMove k u).arbiter = s.arbiter := rfl
@[simp] theorem State.updateMove_lanes (s : State) (k : SlotIx) (u : Move → Move) : (s.updateMove k u).lanes = s.lanes := rfl
@[simp] theorem State.updateMove_crossingAsks (s : State) (k : SlotIx) (u : Move → Move) : (s.updateMove k u).crossingAsks = s.crossingAsks := rfl
@[simp] theorem State.updateMove_timing (s : State) (k : SlotIx) (u : Move → Move) : (s.updateMove k u).timing = s.timing := rfl
@[simp] theorem State.updateMove_notices (s : State) (k : SlotIx) (u : Move → Move) : (s.updateMove k u).notices = s.notices := rfl
@[simp] theorem State.updateMove_enable (s : State) (k : SlotIx) (u : Move → Move) : (s.updateMove k u).enable = s.enable := rfl
@[simp] theorem State.updateMove_guardCapture (s : State) (k : SlotIx) (u : Move → Move) : (s.updateMove k u).guardCapture = s.guardCapture := rfl
@[simp] theorem State.updateMove_gridlock (s : State) (k : SlotIx) (u : Move → Move) : (s.updateMove k u).gridlock = s.gridlock := rfl
@[simp] theorem State.updateMove_health (s : State) (k : SlotIx) (u : Move → Move) : (s.updateMove k u).health = s.health := rfl
@[simp] theorem State.updateMove_picks (s : State) (k : SlotIx) (u : Move → Move) : (s.updateMove k u).picks = s.picks := rfl

/-! ### updateSegs -/

@[simp] theorem State.updateSegs_pending (s : State) (ids : List Nat) (u : Segment → Segment) : (s.updateSegs ids u).pending = s.pending := rfl
@[simp] theorem State.updateSegs_mode (s : State) (ids : List Nat) (u : Segment → Segment) : (s.updateSegs ids u).mode = s.mode := rfl
@[simp] theorem State.updateSegs_clockCount (s : State) (ids : List Nat) (u : Segment → Segment) : (s.updateSegs ids u).clockCount = s.clockCount := rfl
@[simp] theorem State.updateSegs_windows (s : State) (ids : List Nat) (u : Segment → Segment) : (s.updateSegs ids u).windows = s.windows := rfl
@[simp] theorem State.updateSegs_latch (s : State) (ids : List Nat) (u : Segment → Segment) : (s.updateSegs ids u).latch = s.latch := rfl
@[simp] theorem State.updateSegs_readData (s : State) (ids : List Nat) (u : Segment → Segment) : (s.updateSegs ids u).readData = s.readData := rfl
@[simp] theorem State.updateSegs_mem (s : State) (ids : List Nat) (u : Segment → Segment) : (s.updateSegs ids u).mem = s.mem := rfl
@[simp] theorem State.updateSegs_orders (s : State) (ids : List Nat) (u : Segment → Segment) : (s.updateSegs ids u).orders = s.orders := rfl
@[simp] theorem State.updateSegs_reports (s : State) (ids : List Nat) (u : Segment → Segment) : (s.updateSegs ids u).reports = s.reports := rfl
@[simp] theorem State.updateSegs_segs (s : State) (ids : List Nat) (u : Segment → Segment) : (s.updateSegs ids u).segs = s.segs.map fun g => if g.id ∈ ids then u g else g := rfl
@[simp] theorem State.updateSegs_moves (s : State) (ids : List Nat) (u : Segment → Segment) : (s.updateSegs ids u).moves = s.moves := rfl
@[simp] theorem State.updateSegs_queue (s : State) (ids : List Nat) (u : Segment → Segment) : (s.updateSegs ids u).queue = s.queue := rfl
@[simp] theorem State.updateSegs_admissionCounter (s : State) (ids : List Nat) (u : Segment → Segment) : (s.updateSegs ids u).admissionCounter = s.admissionCounter := rfl
@[simp] theorem State.updateSegs_tokens (s : State) (ids : List Nat) (u : Segment → Segment) : (s.updateSegs ids u).tokens = s.tokens := rfl
@[simp] theorem State.updateSegs_arbiter (s : State) (ids : List Nat) (u : Segment → Segment) : (s.updateSegs ids u).arbiter = s.arbiter := rfl
@[simp] theorem State.updateSegs_lanes (s : State) (ids : List Nat) (u : Segment → Segment) : (s.updateSegs ids u).lanes = s.lanes := rfl
@[simp] theorem State.updateSegs_crossingAsks (s : State) (ids : List Nat) (u : Segment → Segment) : (s.updateSegs ids u).crossingAsks = s.crossingAsks := rfl
@[simp] theorem State.updateSegs_timing (s : State) (ids : List Nat) (u : Segment → Segment) : (s.updateSegs ids u).timing = s.timing := rfl
@[simp] theorem State.updateSegs_notices (s : State) (ids : List Nat) (u : Segment → Segment) : (s.updateSegs ids u).notices = s.notices := rfl
@[simp] theorem State.updateSegs_enable (s : State) (ids : List Nat) (u : Segment → Segment) : (s.updateSegs ids u).enable = s.enable := rfl
@[simp] theorem State.updateSegs_guardCapture (s : State) (ids : List Nat) (u : Segment → Segment) : (s.updateSegs ids u).guardCapture = s.guardCapture := rfl
@[simp] theorem State.updateSegs_gridlock (s : State) (ids : List Nat) (u : Segment → Segment) : (s.updateSegs ids u).gridlock = s.gridlock := rfl
@[simp] theorem State.updateSegs_health (s : State) (ids : List Nat) (u : Segment → Segment) : (s.updateSegs ids u).health = s.health := rfl
@[simp] theorem State.updateSegs_picks (s : State) (ids : List Nat) (u : Segment → Segment) : (s.updateSegs ids u).picks = s.picks := rfl

/-! ### updateLane -/

@[simp] theorem State.updateLane_pending (s : State) (l : LaneIx) (u : Lane → Lane) : (s.updateLane l u).pending = s.pending := rfl
@[simp] theorem State.updateLane_mode (s : State) (l : LaneIx) (u : Lane → Lane) : (s.updateLane l u).mode = s.mode := rfl
@[simp] theorem State.updateLane_clockCount (s : State) (l : LaneIx) (u : Lane → Lane) : (s.updateLane l u).clockCount = s.clockCount := rfl
@[simp] theorem State.updateLane_windows (s : State) (l : LaneIx) (u : Lane → Lane) : (s.updateLane l u).windows = s.windows := rfl
@[simp] theorem State.updateLane_latch (s : State) (l : LaneIx) (u : Lane → Lane) : (s.updateLane l u).latch = s.latch := rfl
@[simp] theorem State.updateLane_readData (s : State) (l : LaneIx) (u : Lane → Lane) : (s.updateLane l u).readData = s.readData := rfl
@[simp] theorem State.updateLane_mem (s : State) (l : LaneIx) (u : Lane → Lane) : (s.updateLane l u).mem = s.mem := rfl
@[simp] theorem State.updateLane_orders (s : State) (l : LaneIx) (u : Lane → Lane) : (s.updateLane l u).orders = s.orders := rfl
@[simp] theorem State.updateLane_reports (s : State) (l : LaneIx) (u : Lane → Lane) : (s.updateLane l u).reports = s.reports := rfl
@[simp] theorem State.updateLane_segs (s : State) (l : LaneIx) (u : Lane → Lane) : (s.updateLane l u).segs = s.segs := rfl
@[simp] theorem State.updateLane_moves (s : State) (l : LaneIx) (u : Lane → Lane) : (s.updateLane l u).moves = s.moves := rfl
@[simp] theorem State.updateLane_queue (s : State) (l : LaneIx) (u : Lane → Lane) : (s.updateLane l u).queue = s.queue := rfl
@[simp] theorem State.updateLane_admissionCounter (s : State) (l : LaneIx) (u : Lane → Lane) : (s.updateLane l u).admissionCounter = s.admissionCounter := rfl
@[simp] theorem State.updateLane_tokens (s : State) (l : LaneIx) (u : Lane → Lane) : (s.updateLane l u).tokens = s.tokens := rfl
@[simp] theorem State.updateLane_arbiter (s : State) (l : LaneIx) (u : Lane → Lane) : (s.updateLane l u).arbiter = s.arbiter := rfl
@[simp] theorem State.updateLane_lanes (s : State) (l : LaneIx) (u : Lane → Lane) : (s.updateLane l u).lanes = s.lanes.set l (u s.lanes[l]) := rfl
@[simp] theorem State.updateLane_crossingAsks (s : State) (l : LaneIx) (u : Lane → Lane) : (s.updateLane l u).crossingAsks = s.crossingAsks := rfl
@[simp] theorem State.updateLane_timing (s : State) (l : LaneIx) (u : Lane → Lane) : (s.updateLane l u).timing = s.timing := rfl
@[simp] theorem State.updateLane_notices (s : State) (l : LaneIx) (u : Lane → Lane) : (s.updateLane l u).notices = s.notices := rfl
@[simp] theorem State.updateLane_enable (s : State) (l : LaneIx) (u : Lane → Lane) : (s.updateLane l u).enable = s.enable := rfl
@[simp] theorem State.updateLane_guardCapture (s : State) (l : LaneIx) (u : Lane → Lane) : (s.updateLane l u).guardCapture = s.guardCapture := rfl
@[simp] theorem State.updateLane_gridlock (s : State) (l : LaneIx) (u : Lane → Lane) : (s.updateLane l u).gridlock = s.gridlock := rfl
@[simp] theorem State.updateLane_health (s : State) (l : LaneIx) (u : Lane → Lane) : (s.updateLane l u).health = s.health := rfl
@[simp] theorem State.updateLane_picks (s : State) (l : LaneIx) (u : Lane → Lane) : (s.updateLane l u).picks = s.picks := rfl

/-! ### updateOrder -/

@[simp] theorem State.updateOrder_pending (s : State) (k : SlotIx) (u : OrderSlot → OrderSlot) : (s.updateOrder k u).pending = s.pending := rfl
@[simp] theorem State.updateOrder_mode (s : State) (k : SlotIx) (u : OrderSlot → OrderSlot) : (s.updateOrder k u).mode = s.mode := rfl
@[simp] theorem State.updateOrder_clockCount (s : State) (k : SlotIx) (u : OrderSlot → OrderSlot) : (s.updateOrder k u).clockCount = s.clockCount := rfl
@[simp] theorem State.updateOrder_windows (s : State) (k : SlotIx) (u : OrderSlot → OrderSlot) : (s.updateOrder k u).windows = s.windows := rfl
@[simp] theorem State.updateOrder_latch (s : State) (k : SlotIx) (u : OrderSlot → OrderSlot) : (s.updateOrder k u).latch = s.latch := rfl
@[simp] theorem State.updateOrder_readData (s : State) (k : SlotIx) (u : OrderSlot → OrderSlot) : (s.updateOrder k u).readData = s.readData := rfl
@[simp] theorem State.updateOrder_mem (s : State) (k : SlotIx) (u : OrderSlot → OrderSlot) : (s.updateOrder k u).mem = s.mem := rfl
@[simp] theorem State.updateOrder_orders (s : State) (k : SlotIx) (u : OrderSlot → OrderSlot) : (s.updateOrder k u).orders = s.orders.set k (u s.orders[k]) := rfl
@[simp] theorem State.updateOrder_reports (s : State) (k : SlotIx) (u : OrderSlot → OrderSlot) : (s.updateOrder k u).reports = s.reports := rfl
@[simp] theorem State.updateOrder_segs (s : State) (k : SlotIx) (u : OrderSlot → OrderSlot) : (s.updateOrder k u).segs = s.segs := rfl
@[simp] theorem State.updateOrder_moves (s : State) (k : SlotIx) (u : OrderSlot → OrderSlot) : (s.updateOrder k u).moves = s.moves := rfl
@[simp] theorem State.updateOrder_queue (s : State) (k : SlotIx) (u : OrderSlot → OrderSlot) : (s.updateOrder k u).queue = s.queue := rfl
@[simp] theorem State.updateOrder_admissionCounter (s : State) (k : SlotIx) (u : OrderSlot → OrderSlot) : (s.updateOrder k u).admissionCounter = s.admissionCounter := rfl
@[simp] theorem State.updateOrder_tokens (s : State) (k : SlotIx) (u : OrderSlot → OrderSlot) : (s.updateOrder k u).tokens = s.tokens := rfl
@[simp] theorem State.updateOrder_arbiter (s : State) (k : SlotIx) (u : OrderSlot → OrderSlot) : (s.updateOrder k u).arbiter = s.arbiter := rfl
@[simp] theorem State.updateOrder_lanes (s : State) (k : SlotIx) (u : OrderSlot → OrderSlot) : (s.updateOrder k u).lanes = s.lanes := rfl
@[simp] theorem State.updateOrder_crossingAsks (s : State) (k : SlotIx) (u : OrderSlot → OrderSlot) : (s.updateOrder k u).crossingAsks = s.crossingAsks := rfl
@[simp] theorem State.updateOrder_timing (s : State) (k : SlotIx) (u : OrderSlot → OrderSlot) : (s.updateOrder k u).timing = s.timing := rfl
@[simp] theorem State.updateOrder_notices (s : State) (k : SlotIx) (u : OrderSlot → OrderSlot) : (s.updateOrder k u).notices = s.notices := rfl
@[simp] theorem State.updateOrder_enable (s : State) (k : SlotIx) (u : OrderSlot → OrderSlot) : (s.updateOrder k u).enable = s.enable := rfl
@[simp] theorem State.updateOrder_guardCapture (s : State) (k : SlotIx) (u : OrderSlot → OrderSlot) : (s.updateOrder k u).guardCapture = s.guardCapture := rfl
@[simp] theorem State.updateOrder_gridlock (s : State) (k : SlotIx) (u : OrderSlot → OrderSlot) : (s.updateOrder k u).gridlock = s.gridlock := rfl
@[simp] theorem State.updateOrder_health (s : State) (k : SlotIx) (u : OrderSlot → OrderSlot) : (s.updateOrder k u).health = s.health := rfl
@[simp] theorem State.updateOrder_picks (s : State) (k : SlotIx) (u : OrderSlot → OrderSlot) : (s.updateOrder k u).picks = s.picks := rfl

/-! ### updateReport -/

@[simp] theorem State.updateReport_pending (s : State) (j : ReportIx) (u : ReportSlot → ReportSlot) : (s.updateReport j u).pending = s.pending := rfl
@[simp] theorem State.updateReport_mode (s : State) (j : ReportIx) (u : ReportSlot → ReportSlot) : (s.updateReport j u).mode = s.mode := rfl
@[simp] theorem State.updateReport_clockCount (s : State) (j : ReportIx) (u : ReportSlot → ReportSlot) : (s.updateReport j u).clockCount = s.clockCount := rfl
@[simp] theorem State.updateReport_windows (s : State) (j : ReportIx) (u : ReportSlot → ReportSlot) : (s.updateReport j u).windows = s.windows := rfl
@[simp] theorem State.updateReport_latch (s : State) (j : ReportIx) (u : ReportSlot → ReportSlot) : (s.updateReport j u).latch = s.latch := rfl
@[simp] theorem State.updateReport_readData (s : State) (j : ReportIx) (u : ReportSlot → ReportSlot) : (s.updateReport j u).readData = s.readData := rfl
@[simp] theorem State.updateReport_mem (s : State) (j : ReportIx) (u : ReportSlot → ReportSlot) : (s.updateReport j u).mem = s.mem := rfl
@[simp] theorem State.updateReport_orders (s : State) (j : ReportIx) (u : ReportSlot → ReportSlot) : (s.updateReport j u).orders = s.orders := rfl
@[simp] theorem State.updateReport_reports (s : State) (j : ReportIx) (u : ReportSlot → ReportSlot) : (s.updateReport j u).reports = s.reports.set j (u s.reports[j]) := rfl
@[simp] theorem State.updateReport_segs (s : State) (j : ReportIx) (u : ReportSlot → ReportSlot) : (s.updateReport j u).segs = s.segs := rfl
@[simp] theorem State.updateReport_moves (s : State) (j : ReportIx) (u : ReportSlot → ReportSlot) : (s.updateReport j u).moves = s.moves := rfl
@[simp] theorem State.updateReport_queue (s : State) (j : ReportIx) (u : ReportSlot → ReportSlot) : (s.updateReport j u).queue = s.queue := rfl
@[simp] theorem State.updateReport_admissionCounter (s : State) (j : ReportIx) (u : ReportSlot → ReportSlot) : (s.updateReport j u).admissionCounter = s.admissionCounter := rfl
@[simp] theorem State.updateReport_tokens (s : State) (j : ReportIx) (u : ReportSlot → ReportSlot) : (s.updateReport j u).tokens = s.tokens := rfl
@[simp] theorem State.updateReport_arbiter (s : State) (j : ReportIx) (u : ReportSlot → ReportSlot) : (s.updateReport j u).arbiter = s.arbiter := rfl
@[simp] theorem State.updateReport_lanes (s : State) (j : ReportIx) (u : ReportSlot → ReportSlot) : (s.updateReport j u).lanes = s.lanes := rfl
@[simp] theorem State.updateReport_crossingAsks (s : State) (j : ReportIx) (u : ReportSlot → ReportSlot) : (s.updateReport j u).crossingAsks = s.crossingAsks := rfl
@[simp] theorem State.updateReport_timing (s : State) (j : ReportIx) (u : ReportSlot → ReportSlot) : (s.updateReport j u).timing = s.timing := rfl
@[simp] theorem State.updateReport_notices (s : State) (j : ReportIx) (u : ReportSlot → ReportSlot) : (s.updateReport j u).notices = s.notices := rfl
@[simp] theorem State.updateReport_enable (s : State) (j : ReportIx) (u : ReportSlot → ReportSlot) : (s.updateReport j u).enable = s.enable := rfl
@[simp] theorem State.updateReport_guardCapture (s : State) (j : ReportIx) (u : ReportSlot → ReportSlot) : (s.updateReport j u).guardCapture = s.guardCapture := rfl
@[simp] theorem State.updateReport_gridlock (s : State) (j : ReportIx) (u : ReportSlot → ReportSlot) : (s.updateReport j u).gridlock = s.gridlock := rfl
@[simp] theorem State.updateReport_health (s : State) (j : ReportIx) (u : ReportSlot → ReportSlot) : (s.updateReport j u).health = s.health := rfl
@[simp] theorem State.updateReport_picks (s : State) (j : ReportIx) (u : ReportSlot → ReportSlot) : (s.updateReport j u).picks = s.picks := rfl

/-! ### Look-ups that notify leaves -/

@[simp] theorem State.notify_move_look (s : State) (n : Notice) (x : SlotIx) :
    (s.notify n).move? x = s.move? x := rfl
@[simp] theorem State.notify_moveOfBench_look (s : State) (n : Notice) (bench : Nat) :
    (s.notify n).moveOfBench bench = s.moveOfBench bench := rfl
@[simp] theorem State.notify_queued_look (s : State) (n : Notice) (x : SlotIx) :
    (s.notify n).queued? x = s.queued? x := rfl
@[simp] theorem State.notify_live_look (s : State) (n : Notice) (x : SlotIx) :
    (s.notify n).live x = s.live x := rfl
@[simp] theorem State.notify_link_look (s : State) (n : Notice) (x : SlotIx) :
    (s.notify n).link x = s.link x := rfl
@[simp] theorem State.notify_seg_look (s : State) (n : Notice) (g : Nat) :
    (s.notify n).seg? g = s.seg? g := rfl
@[simp] theorem State.notify_configured_look (s : State) (n : Notice) (g : Nat) :
    (s.notify n).configured g = s.configured g := rfl
@[simp] theorem State.notify_holder_look (s : State) (n : Notice) (g : Nat) :
    (s.notify n).holder g = s.holder g := rfl
@[simp] theorem State.notify_occupant_look (s : State) (n : Notice) (g : Nat) :
    (s.notify n).occupant g = s.occupant g := rfl
@[simp] theorem State.notify_cellLane_look (s : State) (n : Notice) (g : Nat) :
    (s.notify n).cellLane g = s.cellLane g := rfl
@[simp] theorem State.notify_isCell_look (s : State) (n : Notice) (g : Nat) :
    (s.notify n).isCell g = s.isCell g := rfl
@[simp] theorem State.notify_berthOf_look (s : State) (n : Notice) (g : Nat) :
    (s.notify n).berthOf g = s.berthOf g := rfl
@[simp] theorem State.notify_benchAt_look (s : State) (n : Notice) (bench : Nat) :
    (s.notify n).benchAt bench = s.benchAt bench := rfl
@[simp] theorem State.notify_cellOccupants_look (s : State) (n : Notice) (l : LaneIx) :
    (s.notify n).cellOccupants l = s.cellOccupants l := rfl
@[simp] theorem State.notify_linked_look (s : State) (n : Notice) (x y : Nat) :
    (s.notify n).linked x y = s.linked x y := rfl
@[simp] theorem State.notify_grantable_look (s : State) (n : Notice) (tk : Bool) (g : Nat) :
    (s.notify n).grantable tk g = s.grantable tk g := rfl
@[simp] theorem State.notify_markOf_look (s : State) (n : Notice) (g bench : Nat) :
    (s.notify n).markOf g bench = s.markOf g bench := rfl

/-! ### Look-ups that store leaves -/

@[simp] theorem State.store_move_look (s : State) (a : WordAddr) (lanes : Lanes) (d : Word) (x : SlotIx) :
    (s.store a lanes d).move? x = s.move? x := rfl
@[simp] theorem State.store_moveOfBench_look (s : State) (a : WordAddr) (lanes : Lanes) (d : Word) (bench : Nat) :
    (s.store a lanes d).moveOfBench bench = s.moveOfBench bench := rfl
@[simp] theorem State.store_queued_look (s : State) (a : WordAddr) (lanes : Lanes) (d : Word) (x : SlotIx) :
    (s.store a lanes d).queued? x = s.queued? x := rfl
@[simp] theorem State.store_live_look (s : State) (a : WordAddr) (lanes : Lanes) (d : Word) (x : SlotIx) :
    (s.store a lanes d).live x = s.live x := rfl
@[simp] theorem State.store_link_look (s : State) (a : WordAddr) (lanes : Lanes) (d : Word) (x : SlotIx) :
    (s.store a lanes d).link x = s.link x := rfl
@[simp] theorem State.store_seg_look (s : State) (a : WordAddr) (lanes : Lanes) (d : Word) (g : Nat) :
    (s.store a lanes d).seg? g = s.seg? g := rfl
@[simp] theorem State.store_configured_look (s : State) (a : WordAddr) (lanes : Lanes) (d : Word) (g : Nat) :
    (s.store a lanes d).configured g = s.configured g := rfl
@[simp] theorem State.store_holder_look (s : State) (a : WordAddr) (lanes : Lanes) (d : Word) (g : Nat) :
    (s.store a lanes d).holder g = s.holder g := rfl
@[simp] theorem State.store_occupant_look (s : State) (a : WordAddr) (lanes : Lanes) (d : Word) (g : Nat) :
    (s.store a lanes d).occupant g = s.occupant g := rfl
@[simp] theorem State.store_cellLane_look (s : State) (a : WordAddr) (lanes : Lanes) (d : Word) (g : Nat) :
    (s.store a lanes d).cellLane g = s.cellLane g := rfl
@[simp] theorem State.store_isCell_look (s : State) (a : WordAddr) (lanes : Lanes) (d : Word) (g : Nat) :
    (s.store a lanes d).isCell g = s.isCell g := rfl
@[simp] theorem State.store_berthOf_look (s : State) (a : WordAddr) (lanes : Lanes) (d : Word) (g : Nat) :
    (s.store a lanes d).berthOf g = s.berthOf g := rfl
@[simp] theorem State.store_benchAt_look (s : State) (a : WordAddr) (lanes : Lanes) (d : Word) (bench : Nat) :
    (s.store a lanes d).benchAt bench = s.benchAt bench := rfl
@[simp] theorem State.store_cellOccupants_look (s : State) (a : WordAddr) (lanes : Lanes) (d : Word) (l : LaneIx) :
    (s.store a lanes d).cellOccupants l = s.cellOccupants l := rfl
@[simp] theorem State.store_linked_look (s : State) (a : WordAddr) (lanes : Lanes) (d : Word) (x y : Nat) :
    (s.store a lanes d).linked x y = s.linked x y := rfl
@[simp] theorem State.store_grantable_look (s : State) (a : WordAddr) (lanes : Lanes) (d : Word) (tk : Bool) (g : Nat) :
    (s.store a lanes d).grantable tk g = s.grantable tk g := rfl
@[simp] theorem State.store_markOf_look (s : State) (a : WordAddr) (lanes : Lanes) (d : Word) (g bench : Nat) :
    (s.store a lanes d).markOf g bench = s.markOf g bench := rfl

/-! ### Look-ups that updateMove leaves -/

@[simp] theorem State.updateMove_queued_look (s : State) (k : SlotIx) (u : Move → Move) (x : SlotIx) :
    (s.updateMove k u).queued? x = s.queued? x := rfl
@[simp] theorem State.updateMove_seg_look (s : State) (k : SlotIx) (u : Move → Move) (g : Nat) :
    (s.updateMove k u).seg? g = s.seg? g := rfl
@[simp] theorem State.updateMove_configured_look (s : State) (k : SlotIx) (u : Move → Move) (g : Nat) :
    (s.updateMove k u).configured g = s.configured g := rfl
@[simp] theorem State.updateMove_holder_look (s : State) (k : SlotIx) (u : Move → Move) (g : Nat) :
    (s.updateMove k u).holder g = s.holder g := rfl
@[simp] theorem State.updateMove_occupant_look (s : State) (k : SlotIx) (u : Move → Move) (g : Nat) :
    (s.updateMove k u).occupant g = s.occupant g := rfl
@[simp] theorem State.updateMove_cellLane_look (s : State) (k : SlotIx) (u : Move → Move) (g : Nat) :
    (s.updateMove k u).cellLane g = s.cellLane g := rfl
@[simp] theorem State.updateMove_isCell_look (s : State) (k : SlotIx) (u : Move → Move) (g : Nat) :
    (s.updateMove k u).isCell g = s.isCell g := rfl
@[simp] theorem State.updateMove_berthOf_look (s : State) (k : SlotIx) (u : Move → Move) (g : Nat) :
    (s.updateMove k u).berthOf g = s.berthOf g := rfl
@[simp] theorem State.updateMove_benchAt_look (s : State) (k : SlotIx) (u : Move → Move) (bench : Nat) :
    (s.updateMove k u).benchAt bench = s.benchAt bench := rfl
@[simp] theorem State.updateMove_cellOccupants_look (s : State) (k : SlotIx) (u : Move → Move) (l : LaneIx) :
    (s.updateMove k u).cellOccupants l = s.cellOccupants l := rfl
@[simp] theorem State.updateMove_linked_look (s : State) (k : SlotIx) (u : Move → Move) (x y : Nat) :
    (s.updateMove k u).linked x y = s.linked x y := rfl
@[simp] theorem State.updateMove_grantable_look (s : State) (k : SlotIx) (u : Move → Move) (tk : Bool) (g : Nat) :
    (s.updateMove k u).grantable tk g = s.grantable tk g := rfl
@[simp] theorem State.updateMove_markOf_look (s : State) (k : SlotIx) (u : Move → Move) (g bench : Nat) :
    (s.updateMove k u).markOf g bench = s.markOf g bench := rfl

/-! ### Look-ups that updateSegs leaves -/

@[simp] theorem State.updateSegs_move_look (s : State) (ids : List Nat) (u : Segment → Segment) (x : SlotIx) :
    (s.updateSegs ids u).move? x = s.move? x := rfl
@[simp] theorem State.updateSegs_moveOfBench_look (s : State) (ids : List Nat) (u : Segment → Segment) (bench : Nat) :
    (s.updateSegs ids u).moveOfBench bench = s.moveOfBench bench := rfl
@[simp] theorem State.updateSegs_queued_look (s : State) (ids : List Nat) (u : Segment → Segment) (x : SlotIx) :
    (s.updateSegs ids u).queued? x = s.queued? x := rfl
@[simp] theorem State.updateSegs_live_look (s : State) (ids : List Nat) (u : Segment → Segment) (x : SlotIx) :
    (s.updateSegs ids u).live x = s.live x := rfl
@[simp] theorem State.updateSegs_link_look (s : State) (ids : List Nat) (u : Segment → Segment) (x : SlotIx) :
    (s.updateSegs ids u).link x = s.link x := rfl

/-! ### Look-ups that updateLane leaves -/

@[simp] theorem State.updateLane_move_look (s : State) (l : LaneIx) (u : Lane → Lane) (x : SlotIx) :
    (s.updateLane l u).move? x = s.move? x := rfl
@[simp] theorem State.updateLane_moveOfBench_look (s : State) (l : LaneIx) (u : Lane → Lane) (bench : Nat) :
    (s.updateLane l u).moveOfBench bench = s.moveOfBench bench := rfl
@[simp] theorem State.updateLane_queued_look (s : State) (l : LaneIx) (u : Lane → Lane) (x : SlotIx) :
    (s.updateLane l u).queued? x = s.queued? x := rfl
@[simp] theorem State.updateLane_live_look (s : State) (l : LaneIx) (u : Lane → Lane) (x : SlotIx) :
    (s.updateLane l u).live x = s.live x := rfl
@[simp] theorem State.updateLane_link_look (s : State) (l : LaneIx) (u : Lane → Lane) (x : SlotIx) :
    (s.updateLane l u).link x = s.link x := rfl
@[simp] theorem State.updateLane_seg_look (s : State) (l : LaneIx) (u : Lane → Lane) (g : Nat) :
    (s.updateLane l u).seg? g = s.seg? g := rfl
@[simp] theorem State.updateLane_configured_look (s : State) (l : LaneIx) (u : Lane → Lane) (g : Nat) :
    (s.updateLane l u).configured g = s.configured g := rfl
@[simp] theorem State.updateLane_holder_look (s : State) (l : LaneIx) (u : Lane → Lane) (g : Nat) :
    (s.updateLane l u).holder g = s.holder g := rfl
@[simp] theorem State.updateLane_occupant_look (s : State) (l : LaneIx) (u : Lane → Lane) (g : Nat) :
    (s.updateLane l u).occupant g = s.occupant g := rfl
@[simp] theorem State.updateLane_cellLane_look (s : State) (l : LaneIx) (u : Lane → Lane) (g : Nat) :
    (s.updateLane l u).cellLane g = s.cellLane g := rfl
@[simp] theorem State.updateLane_isCell_look (s : State) (l : LaneIx) (u : Lane → Lane) (g : Nat) :
    (s.updateLane l u).isCell g = s.isCell g := rfl
@[simp] theorem State.updateLane_berthOf_look (s : State) (l : LaneIx) (u : Lane → Lane) (g : Nat) :
    (s.updateLane l u).berthOf g = s.berthOf g := rfl
@[simp] theorem State.updateLane_benchAt_look (s : State) (l : LaneIx) (u : Lane → Lane) (bench : Nat) :
    (s.updateLane l u).benchAt bench = s.benchAt bench := rfl
@[simp] theorem State.updateLane_cellOccupants_look (s : State) (l : LaneIx) (u : Lane → Lane) (x : LaneIx) :
    (s.updateLane l u).cellOccupants x = s.cellOccupants x := rfl
@[simp] theorem State.updateLane_linked_look (s : State) (l : LaneIx) (u : Lane → Lane) (x y : Nat) :
    (s.updateLane l u).linked x y = s.linked x y := rfl
@[simp] theorem State.updateLane_grantable_look (s : State) (l : LaneIx) (u : Lane → Lane) (tk : Bool) (g : Nat) :
    (s.updateLane l u).grantable tk g = s.grantable tk g := rfl
@[simp] theorem State.updateLane_markOf_look (s : State) (l : LaneIx) (u : Lane → Lane) (g bench : Nat) :
    (s.updateLane l u).markOf g bench = s.markOf g bench := rfl

/-! ### Look-ups that updateOrder leaves -/

@[simp] theorem State.updateOrder_move_look (s : State) (k : SlotIx) (u : OrderSlot → OrderSlot) (x : SlotIx) :
    (s.updateOrder k u).move? x = s.move? x := rfl
@[simp] theorem State.updateOrder_moveOfBench_look (s : State) (k : SlotIx) (u : OrderSlot → OrderSlot) (bench : Nat) :
    (s.updateOrder k u).moveOfBench bench = s.moveOfBench bench := rfl
@[simp] theorem State.updateOrder_queued_look (s : State) (k : SlotIx) (u : OrderSlot → OrderSlot) (x : SlotIx) :
    (s.updateOrder k u).queued? x = s.queued? x := rfl
@[simp] theorem State.updateOrder_live_look (s : State) (k : SlotIx) (u : OrderSlot → OrderSlot) (x : SlotIx) :
    (s.updateOrder k u).live x = s.live x := rfl
@[simp] theorem State.updateOrder_link_look (s : State) (k : SlotIx) (u : OrderSlot → OrderSlot) (x : SlotIx) :
    (s.updateOrder k u).link x = s.link x := rfl
@[simp] theorem State.updateOrder_seg_look (s : State) (k : SlotIx) (u : OrderSlot → OrderSlot) (g : Nat) :
    (s.updateOrder k u).seg? g = s.seg? g := rfl
@[simp] theorem State.updateOrder_configured_look (s : State) (k : SlotIx) (u : OrderSlot → OrderSlot) (g : Nat) :
    (s.updateOrder k u).configured g = s.configured g := rfl
@[simp] theorem State.updateOrder_holder_look (s : State) (k : SlotIx) (u : OrderSlot → OrderSlot) (g : Nat) :
    (s.updateOrder k u).holder g = s.holder g := rfl
@[simp] theorem State.updateOrder_occupant_look (s : State) (k : SlotIx) (u : OrderSlot → OrderSlot) (g : Nat) :
    (s.updateOrder k u).occupant g = s.occupant g := rfl
@[simp] theorem State.updateOrder_cellLane_look (s : State) (k : SlotIx) (u : OrderSlot → OrderSlot) (g : Nat) :
    (s.updateOrder k u).cellLane g = s.cellLane g := rfl
@[simp] theorem State.updateOrder_isCell_look (s : State) (k : SlotIx) (u : OrderSlot → OrderSlot) (g : Nat) :
    (s.updateOrder k u).isCell g = s.isCell g := rfl
@[simp] theorem State.updateOrder_berthOf_look (s : State) (k : SlotIx) (u : OrderSlot → OrderSlot) (g : Nat) :
    (s.updateOrder k u).berthOf g = s.berthOf g := rfl
@[simp] theorem State.updateOrder_benchAt_look (s : State) (k : SlotIx) (u : OrderSlot → OrderSlot) (bench : Nat) :
    (s.updateOrder k u).benchAt bench = s.benchAt bench := rfl
@[simp] theorem State.updateOrder_cellOccupants_look (s : State) (k : SlotIx) (u : OrderSlot → OrderSlot) (l : LaneIx) :
    (s.updateOrder k u).cellOccupants l = s.cellOccupants l := rfl
@[simp] theorem State.updateOrder_linked_look (s : State) (k : SlotIx) (u : OrderSlot → OrderSlot) (x y : Nat) :
    (s.updateOrder k u).linked x y = s.linked x y := rfl
@[simp] theorem State.updateOrder_grantable_look (s : State) (k : SlotIx) (u : OrderSlot → OrderSlot) (tk : Bool) (g : Nat) :
    (s.updateOrder k u).grantable tk g = s.grantable tk g := rfl
@[simp] theorem State.updateOrder_markOf_look (s : State) (k : SlotIx) (u : OrderSlot → OrderSlot) (g bench : Nat) :
    (s.updateOrder k u).markOf g bench = s.markOf g bench := rfl

/-! ### Look-ups that updateReport leaves -/

@[simp] theorem State.updateReport_move_look (s : State) (j : ReportIx) (u : ReportSlot → ReportSlot) (x : SlotIx) :
    (s.updateReport j u).move? x = s.move? x := rfl
@[simp] theorem State.updateReport_moveOfBench_look (s : State) (j : ReportIx) (u : ReportSlot → ReportSlot) (bench : Nat) :
    (s.updateReport j u).moveOfBench bench = s.moveOfBench bench := rfl
@[simp] theorem State.updateReport_queued_look (s : State) (j : ReportIx) (u : ReportSlot → ReportSlot) (x : SlotIx) :
    (s.updateReport j u).queued? x = s.queued? x := rfl
@[simp] theorem State.updateReport_live_look (s : State) (j : ReportIx) (u : ReportSlot → ReportSlot) (x : SlotIx) :
    (s.updateReport j u).live x = s.live x := rfl
@[simp] theorem State.updateReport_link_look (s : State) (j : ReportIx) (u : ReportSlot → ReportSlot) (x : SlotIx) :
    (s.updateReport j u).link x = s.link x := rfl
@[simp] theorem State.updateReport_seg_look (s : State) (j : ReportIx) (u : ReportSlot → ReportSlot) (g : Nat) :
    (s.updateReport j u).seg? g = s.seg? g := rfl
@[simp] theorem State.updateReport_configured_look (s : State) (j : ReportIx) (u : ReportSlot → ReportSlot) (g : Nat) :
    (s.updateReport j u).configured g = s.configured g := rfl
@[simp] theorem State.updateReport_holder_look (s : State) (j : ReportIx) (u : ReportSlot → ReportSlot) (g : Nat) :
    (s.updateReport j u).holder g = s.holder g := rfl
@[simp] theorem State.updateReport_occupant_look (s : State) (j : ReportIx) (u : ReportSlot → ReportSlot) (g : Nat) :
    (s.updateReport j u).occupant g = s.occupant g := rfl
@[simp] theorem State.updateReport_cellLane_look (s : State) (j : ReportIx) (u : ReportSlot → ReportSlot) (g : Nat) :
    (s.updateReport j u).cellLane g = s.cellLane g := rfl
@[simp] theorem State.updateReport_isCell_look (s : State) (j : ReportIx) (u : ReportSlot → ReportSlot) (g : Nat) :
    (s.updateReport j u).isCell g = s.isCell g := rfl
@[simp] theorem State.updateReport_berthOf_look (s : State) (j : ReportIx) (u : ReportSlot → ReportSlot) (g : Nat) :
    (s.updateReport j u).berthOf g = s.berthOf g := rfl
@[simp] theorem State.updateReport_benchAt_look (s : State) (j : ReportIx) (u : ReportSlot → ReportSlot) (bench : Nat) :
    (s.updateReport j u).benchAt bench = s.benchAt bench := rfl
@[simp] theorem State.updateReport_cellOccupants_look (s : State) (j : ReportIx) (u : ReportSlot → ReportSlot) (l : LaneIx) :
    (s.updateReport j u).cellOccupants l = s.cellOccupants l := rfl
@[simp] theorem State.updateReport_linked_look (s : State) (j : ReportIx) (u : ReportSlot → ReportSlot) (x y : Nat) :
    (s.updateReport j u).linked x y = s.linked x y := rfl
@[simp] theorem State.updateReport_grantable_look (s : State) (j : ReportIx) (u : ReportSlot → ReportSlot) (tk : Bool) (g : Nat) :
    (s.updateReport j u).grantable tk g = s.grantable tk g := rfl
@[simp] theorem State.updateReport_markOf_look (s : State) (j : ReportIx) (u : ReportSlot → ReportSlot) (g bench : Nat) :
    (s.updateReport j u).markOf g bench = s.markOf g bench := rfl

end Sys2Proof.Machine
end

