-- ==== Sys2Proof/Laws/Kept.lean ====
section
/-!
SUPPORT. What an order, a report, an expiry or a step of the part's own never changes (`Kept`), and what it leaves when
it neither admits nor ends a move (`Steady`): two relations between the state before and after, and one lemma for each
of the shared updates.
-/

namespace Sys2Proof.Machine

/-- What no operation of the rail blocks changes: the queue of commands, the mode, the clock, the windows and the bus
side, memory, the report slots, the TIMING values, the enable set, the guard capture, the health, the configuration of
segments and lanes (R2, R64, R153, R166, R171, R177); surveys, fences and latched causes are never taken back (R13, R15,
R164). -/
structure Kept (s t : State) : Prop where
  pending : t.pending = s.pending
  mode : t.mode = s.mode
  clockCount : t.clockCount = s.clockCount
  windows : t.windows = s.windows
  latch : t.latch = s.latch
  readData : t.readData = s.readData
  mem : t.mem = s.mem
  reports : t.reports = s.reports
  timing : t.timing = s.timing
  enable : t.enable = s.enable
  guardCapture : t.guardCapture = s.guardCapture
  health : t.health = s.health
  picks : t.picks = s.picks
  layouts : t.lanes.map (·.layout) = s.lanes.map (·.layout)
  config : t.segs.map (fun g => (g.id, g.kind, g.links)) = s.segs.map (fun g => (g.id, g.kind, g.links))
  history : List.Forall₂ (fun g g' => (g.surveyed = true → g'.surveyed = true) ∧ (g.fence ≠ none → g'.fence ≠ none))
    s.segs t.segs
  notices : ∀ n : Notice, s.latched n = true → t.latched n = true

/-- What identifies a live move and is fixed for its life (R22). -/
abbrev Move.fixed (m : Move) : SlotIx × Byte × Nat × MoveClass × List Nat := (m.slot, m.tag, m.bench, m.cls, m.route)

/-- No move is admitted or ended, no order is queued or judged, no token moves in the table. -/
structure Steady (s t : State) : Prop extends Kept s t where
  moves : t.moves.map Move.fixed = s.moves.map Move.fixed
  admissions : t.moves.map (·.admission) = s.moves.map (·.admission)
  tokenFlags : t.moves.map (·.token) = s.moves.map (·.token)
  queue : t.queue = s.queue
  tokens : t.tokens = s.tokens
  admissionCounter : t.admissionCounter = s.admissionCounter
  orders : t.orders = s.orders

theorem Kept.refl (s : State) : Kept s s :=
  { pending := rfl, mode := rfl, clockCount := rfl, windows := rfl, latch := rfl, readData := rfl, mem := rfl
    reports := rfl, timing := rfl, enable := rfl, guardCapture := rfl, health := rfl, picks := rfl, layouts := rfl
    config := rfl, history := List.forall₂_same.2 fun _ _ => ⟨id, id⟩, notices := fun _ h => h }

theorem Kept.trans {s t u : State} (h : Kept s t) (k : Kept t u) : Kept s u :=
  { pending := k.pending.trans h.pending, mode := k.mode.trans h.mode
    clockCount := k.clockCount.trans h.clockCount, windows := k.windows.trans h.windows
    latch := k.latch.trans h.latch, readData := k.readData.trans h.readData, mem := k.mem.trans h.mem
    reports := k.reports.trans h.reports, timing := k.timing.trans h.timing, enable := k.enable.trans h.enable
    guardCapture := k.guardCapture.trans h.guardCapture, health := k.health.trans h.health
    picks := k.picks.trans h.picks, layouts := k.layouts.trans h.layouts, config := k.config.trans h.config
    history := by
      have hh := h.history
      have hk := k.history
      generalize s.segs = a at hh
      generalize t.segs = b at hh hk
      generalize u.segs = c at hk
      induction hh generalizing c with
      | nil => cases hk; exact .nil
      | cons p _ ih => cases hk with
        | cons q r => exact .cons ⟨fun x => q.1 (p.1 x), fun x => q.2 (p.2 x)⟩ (ih _ r)
    notices := fun n x => k.notices n (h.notices n x) }

theorem Steady.refl (s : State) : Steady s s :=
  { Kept.refl s with
    moves := rfl, admissions := rfl, tokenFlags := rfl, queue := rfl, tokens := rfl, admissionCounter := rfl
    orders := rfl }

theorem Steady.trans {s t u : State} (h : Steady s t) (k : Steady t u) : Steady s u :=
  { h.toKept.trans k.toKept with
    moves := k.moves.trans h.moves, admissions := k.admissions.trans h.admissions
    tokenFlags := k.tokenFlags.trans h.tokenFlags, queue := k.queue.trans h.queue, tokens := k.tokens.trans h.tokens
    admissionCounter := k.admissionCounter.trans h.admissionCounter, orders := k.orders.trans h.orders }

/-- The same as `trans`, the later step first: a proof then follows the text of a definition from the outside in. -/
theorem Steady.after {s t u : State} (k : Steady t u) (h : Steady s t) : Steady s u := h.trans k

/-- The same as `trans`, the later step first. -/
theorem Kept.after {s t u : State} (k : Kept t u) (h : Kept s t) : Kept s u := h.trans k

/-! ### The shared updates -/

theorem latched_or {x : BitVec 16} {i : Nat} (y : BitVec 16) (h : x.getLsbD i = true) : (x ||| y).getLsbD i = true := by
  simp [h]

/-- Latching a cause. -/
theorem State.notify_steady (s : State) (n : Notice) : Steady s (s.notify n) :=
  { Steady.refl s with
    pending := rfl, mode := rfl, clockCount := rfl, windows := rfl, latch := rfl, readData := rfl, mem := rfl
    reports := rfl, timing := rfl, enable := rfl, guardCapture := rfl, health := rfl, picks := rfl, layouts := rfl
    config := rfl, moves := rfl, admissions := rfl, tokenFlags := rfl, queue := rfl, tokens := rfl
    admissionCounter := rfl, orders := rfl
    history := (Kept.refl s).history, notices := fun _ h => latched_or _ h }

/-- A change of one move that leaves what is fixed, its number and its token. -/
theorem State.updateMove_steady (s : State) (k : SlotIx) (u : Move → Move)
    (hu : ∀ m, (u m).fixed = m.fixed ∧ (u m).admission = m.admission ∧ (u m).token = m.token) :
    Steady s (s.updateMove k u) := by
  have key : ∀ {α : Type} (f : Move → α), (∀ m, f (u m) = f m) →
      (s.moves.map fun m => if m.slot = k then u m else m).map f = s.moves.map f := by
    intro α f hf
    rw [List.map_map]
    refine List.map_congr_left fun m _ => ?_
    show f (if m.slot = k then u m else m) = f m
    split
    · exact hf m
    · rfl
  exact
    { Steady.refl s with
      pending := rfl, mode := rfl, clockCount := rfl, windows := rfl, latch := rfl, readData := rfl, mem := rfl
      reports := rfl, timing := rfl, enable := rfl, guardCapture := rfl, health := rfl, picks := rfl, layouts := rfl
      config := rfl, queue := rfl, tokens := rfl, admissionCounter := rfl, orders := rfl
      history := (Kept.refl s).history, notices := fun _ h => h
      moves := key _ fun m => (hu m).1, admissions := key _ fun m => (hu m).2.1
      tokenFlags := key _ fun m => (hu m).2.2 }

/-- A change of listed segments that leaves their configuration and takes back no survey and no fence. -/
theorem State.updateSegs_steady (s : State) (ids : List Nat) (u : Segment → Segment)
    (hu : ∀ g, (u g).id = g.id ∧ (u g).kind = g.kind ∧ (u g).links = g.links
      ∧ (g.surveyed = true → (u g).surveyed = true) ∧ (g.fence ≠ none → (u g).fence ≠ none)) :
    Steady s (s.updateSegs ids u) :=
  { Steady.refl s with
    pending := rfl, mode := rfl, clockCount := rfl, windows := rfl, latch := rfl, readData := rfl, mem := rfl
    reports := rfl, timing := rfl, enable := rfl, guardCapture := rfl, health := rfl, picks := rfl, layouts := rfl
    moves := rfl, admissions := rfl, tokenFlags := rfl, queue := rfl, tokens := rfl
    admissionCounter := rfl, orders := rfl, notices := fun _ h => h
    config := by
      show (s.segs.map fun g => if g.id ∈ ids then u g else g).map _ = _
      rw [List.map_map]
      refine List.map_congr_left fun g _ => ?_
      show (fun r : Segment => (r.id, r.kind, r.links)) (if g.id ∈ ids then u g else g) = _
      obtain ⟨h1, h2, h3, _⟩ := hu g
      split <;> simp [*]
    history := by
      show List.Forall₂ _ s.segs (s.segs.map fun g => if g.id ∈ ids then u g else g)
      rw [List.forall₂_map_right_iff]
      refine List.forall₂_same.2 fun g _ => ?_
      split
      · exact (hu g).2.2.2
      · exact ⟨id, id⟩ }

/-- A change of one lane that leaves its cells and berths. -/
theorem State.updateLane_steady (s : State) (l : LaneIx) (u : Lane → Lane) (hu : ∀ ln, (u ln).layout = ln.layout) :
    Steady s (s.updateLane l u) :=
  { Steady.refl s with
    pending := rfl, mode := rfl, clockCount := rfl, windows := rfl, latch := rfl, readData := rfl, mem := rfl
    reports := rfl, timing := rfl, enable := rfl, guardCapture := rfl, health := rfl, picks := rfl, config := rfl
    moves := rfl, admissions := rfl, tokenFlags := rfl, queue := rfl, tokens := rfl
    admissionCounter := rfl, orders := rfl, history := (Kept.refl s).history, notices := fun _ h => h
    layouts := by
      ext i hi
      by_cases h : (l : Nat) = i
      · subst h; simp [hu]
      · simp [Vector.getElem_set_ne _ _ h] }

/-- A change of one order slot leaves all that an order may not change. -/
theorem State.updateOrder_kept (s : State) (k : SlotIx) (u : OrderSlot → OrderSlot) : Kept s (s.updateOrder k u) :=
  { Kept.refl s with
    pending := rfl, mode := rfl, clockCount := rfl, windows := rfl, latch := rfl, readData := rfl, mem := rfl
    reports := rfl, timing := rfl, enable := rfl, guardCapture := rfl, health := rfl, picks := rfl, config := rfl
    layouts := rfl, history := (Kept.refl s).history, notices := fun _ h => h }

/-- A trigger of the arbiter changes the arbiter alone. -/
theorem State.trigger_steady (s : State) : Steady s s.trigger := by
  unfold State.trigger
  split
  · split <;>
    exact
      { Steady.refl s with
        pending := rfl, mode := rfl, clockCount := rfl, windows := rfl, latch := rfl, readData := rfl, mem := rfl
        reports := rfl, timing := rfl, enable := rfl, guardCapture := rfl, health := rfl, picks := rfl, config := rfl
        layouts := rfl, moves := rfl, admissions := rfl, tokenFlags := rfl, queue := rfl, tokens := rfl
        admissionCounter := rfl, orders := rfl, history := (Kept.refl s).history, notices := fun _ h => h }
  all_goals exact Steady.refl s

/-! ### Requests of the Segment Table (chapter 1) -/

theorem State.hold_steady (s : State) (k : SlotIx) (ids : List Nat) : Steady s (s.hold k ids) :=
  s.updateSegs_steady _ _ fun _ => ⟨rfl, rfl, rfl, id, id⟩

theorem State.release_steady (s : State) (k : SlotIx) (ids : List Nat) : Steady s (s.release k ids) :=
  s.updateSegs_steady _ _ fun g => by split <;> exact ⟨rfl, rfl, rfl, id, id⟩

theorem State.mark_steady (s : State) (g b : Nat) : Steady s (s.mark g b) :=
  s.updateSegs_steady _ _ fun _ => ⟨rfl, rfl, rfl, id, id⟩

theorem State.vacate_steady (s : State) (g b : Nat) : Steady s (s.vacate g b) :=
  s.updateSegs_steady _ _ fun r => by split <;> exact ⟨rfl, rfl, rfl, id, id⟩

theorem State.clear_steady (s : State) (g : Nat) : Steady s (s.clear g) :=
  s.updateSegs_steady _ _ fun _ => ⟨rfl, rfl, rfl, id, id⟩

theorem State.setFence_steady (s : State) (ids : List Nat) (c : FenceCause) : Steady s (s.setFence ids c) :=
  s.updateSegs_steady _ _ fun _ => ⟨rfl, rfl, rfl, id, fun _ => by simp⟩

theorem State.survey_steady (s : State) (g : Nat) : Steady s (s.survey g) :=
  s.updateSegs_steady _ _ fun _ => ⟨rfl, rfl, rfl, fun _ => rfl, id⟩

/-! ### Moves (chapters 2 and 3) -/

theorem Move.restored_fixed (m : Move) :
    m.restored.fixed = m.fixed ∧ m.restored.admission = m.admission ∧ m.restored.token = m.token := by
  unfold Move.restored
  split <;> exact ⟨rfl, rfl, rfl⟩

theorem State.restore_steady (s : State) (k : SlotIx) : Steady s (s.restore k) := by
  unfold State.restore
  split
  · exact (s.release_steady _ _).trans (State.updateMove_steady _ _ _ Move.restored_fixed)
  · exact Steady.refl s

theorem State.settleByIndices_steady (s : State) (k : SlotIx) : Steady s (s.settleByIndices k) :=
  s.updateMove_steady _ _ fun _ => ⟨rfl, rfl, rfl⟩

theorem State.heard_steady (s : State) (b : Nat) : Steady s (s.heard b) := by
  unfold State.heard
  split
  · exact s.updateMove_steady _ _ fun _ => ⟨rfl, rfl, rfl⟩
  · exact Steady.refl s

end Sys2Proof.Machine
end

