-- ==== Sys2Proof/Laws/Lanes.lean ====
section
/-!
SUPPORT. The Lane Controllers' operations: each is steady (it neither admits nor ends a move and keeps what no rail
block changes), and those that touch only the lane say so.
-/

namespace Sys2Proof.Machine

/-! ### Operations on one lane -/

theorem State.enterOffering_steady (s : State) (l : LaneIx) (k : BerthIx) : Steady s (s.enterOffering l k) :=
  s.updateLane_steady _ _ fun _ => rfl

theorem State.enterQuiet_steady (s : State) (l : LaneIx) : Steady s (s.enterQuiet l) :=
  s.updateLane_steady _ _ fun _ => rfl

theorem State.judgeRound_steady (s : State) (l : LaneIx) : Steady s (s.judgeRound l) := by
  unfold State.judgeRound
  split
  · exact (State.notify_steady _ _).after (State.updateLane_steady _ _ _ fun _ => rfl)
  · exact Steady.refl s

theorem State.clearRound_steady (s : State) (l : LaneIx) : Steady s (s.clearRound l) :=
  s.updateLane_steady _ _ fun _ => rfl

theorem State.startRound_steady (s : State) (l : LaneIx) : Steady s (s.startRound l) := by
  unfold State.startRound
  split
  · exact (s.clearRound_steady l).trans (State.enterOffering_steady _ _ _)
  · refine Steady.after (State.enterQuiet_steady _ _) (Steady.after (State.updateLane_steady _ _ _ ?_) (s.clearRound_steady l))
    exact fun _ => rfl

theorem State.advanceNormal_steady (s : State) (l : LaneIx) : Steady s (s.advanceNormal l) := by
  unfold State.advanceNormal
  split
  · exact (State.enterOffering_steady _ _ _).after (State.updateLane_steady _ _ _ fun _ => rfl)
  · dsimp only
    split
    · exact ((State.startRound_steady _ _).after (State.judgeRound_steady _ _)).after
        (State.updateLane_steady _ _ _ fun _ => rfl)
    · exact ((State.enterQuiet_steady _ _).after (State.judgeRound_steady _ _)).after
        (State.updateLane_steady _ _ _ fun _ => rfl)

theorem State.advanceStrict_steady (s : State) (l : LaneIx) : Steady s (s.advanceStrict l) := by
  unfold State.advanceStrict
  split
  · split
    · exact ((s.judgeRound_steady l).trans (State.clearRound_steady _ _)).trans (State.enterOffering_steady _ _ _)
    · exact s.enterOffering_steady _ _
  · exact (s.judgeRound_steady l).trans (State.enterQuiet_steady _ _)

theorem State.advanceLane_steady (s : State) (l : LaneIx) : Steady s (s.advanceLane l) := by
  unfold State.advanceLane
  split
  · exact s.advanceStrict_steady l
  · exact s.advanceNormal_steady l

theorem State.joinList_steady (s : State) (l : LaneIx) (b : BerthIx) (k : SlotIx) : Steady s (s.joinList l b k) := by
  unfold State.joinList
  dsimp only
  split
  · exact (State.startRound_steady _ _).after (State.updateLane_steady _ _ _ fun _ => rfl)
  · exact State.updateLane_steady _ _ _ fun _ => rfl

theorem State.leaveList_steady (s : State) (l : LaneIx) (k : SlotIx) : Steady s (s.leaveList l k) := by
  have h : Steady s (s.updateLane l fun ln => { ln with lists := ln.lists.map fun q => q.filter (· ≠ k) }) :=
    s.updateLane_steady _ _ fun _ => rfl
  unfold State.leaveList
  dsimp only
  split
  · refine Steady.after (State.advanceLane_steady _ _) (Steady.after (State.updateLane_steady _ _ _ ?_) h)
    exact fun _ => rfl
  · exact h

/-! ### Crossing grants, entry and end -/

theorem Move.pushed_fixed (m : Move) (e : Nat) :
    (m.pushed e).fixed = m.fixed ∧ (m.pushed e).admission = m.admission ∧ (m.pushed e).token = m.token :=
  ⟨rfl, rfl, rfl⟩

theorem State.grantCrossing_steady (s : State) (l : LaneIx) (m : Move) (e : Nat) :
    Steady s (s.grantCrossing l m e) := by
  refine Steady.after (State.updateLane_steady _ _ _ ?_)
    (Steady.after (State.updateMove_steady _ _ _ ?_) (s.hold_steady _ _))
  · exact fun _ => rfl
  · exact fun _ => ⟨rfl, rfl, rfl⟩

theorem State.offerCheck_steady (s : State) (l : LaneIx) : Steady s (s.offerCheck l) := by
  unfold State.offerCheck
  split
  · exact s.grantCrossing_steady _ _ _
  · exact Steady.refl s

theorem State.enterCrossing_steady (s : State) (l : LaneIx) (k : SlotIx) : Steady s (s.enterCrossing l k) := by
  unfold State.enterCrossing
  split
  · exact s.updateLane_steady _ _ fun _ => rfl
  · exact Steady.refl s

theorem State.offerNext_steady (s : State) (l : LaneIx) : Steady s (s.offerNext l) := by
  unfold State.offerNext
  dsimp only
  split
  · exact (State.enterOffering_steady _ _ _).after (State.updateLane_steady _ _ _ fun _ => rfl)
  · exact s.advanceLane_steady l

theorem State.releaseAfterFault_steady (s : State) (l : LaneIx) : Steady s (s.releaseAfterFault l) := by
  unfold State.releaseAfterFault
  split
  · exact s.updateLane_steady _ _ fun _ => rfl
  · exact Steady.refl s

theorem State.endCrossing_steady (s : State) (l : LaneIx) (k : SlotIx) : Steady s (s.endCrossing l k) := by
  have h1 : Steady s ((s.updateLane l fun ln => { ln with crossing := none, crossingTimer := .stopped }).updateMove k
      fun m => { m with lane := none, state := if m.state = .crossing then .moving else m.state }) :=
    Steady.after (s.updateLane l _ |>.updateMove_steady k _ fun _ => ⟨rfl, rfl, rfl⟩)
      (s.updateLane_steady l _ fun _ => rfl)
  unfold State.endCrossing
  dsimp only
  have h2 : ∀ {u : State} (b : Prop) [Decidable b], Steady s u → Steady s (if b then u.trigger else u) := by
    intro u b _ hu
    split
    · exact hu.trans u.trigger_steady
    · exact hu
  split
  · exact (h2 _ h1).trans (State.offerNext_steady _ _)
  · exact (h2 _ h1).trans (State.releaseAfterFault_steady _ _)
  all_goals exact h2 _ h1

/-- A change of the lanes' requests to come changes nothing else. -/
theorem State.asks_steady (s : State) (x : Vector Bool 4) : Steady s { s with crossingAsks := x } :=
  { Steady.refl s with
    pending := rfl, mode := rfl, clockCount := rfl, windows := rfl, latch := rfl, readData := rfl, mem := rfl
    reports := rfl, timing := rfl, enable := rfl, guardCapture := rfl, health := rfl, picks := rfl, layouts := rfl
    config := rfl, moves := rfl, admissions := rfl, tokenFlags := rfl, queue := rfl, tokens := rfl
    admissionCounter := rfl, orders := rfl
    history := (Kept.refl s).history, notices := fun _ h => h }

theorem State.askRest_steady (s : State) (l : LaneIx) : Steady s (s.askRest l) := by
  unfold State.askRest
  split
  · exact s.asks_steady _
  · exact Steady.refl s

/-- What a lane is to ask for changes one mark, and only where a crossing waits. -/
theorem State.askRest_eq (s : State) (l : LaneIx) : s.askRest l =
    { s with crossingAsks := s.crossingAsks.set l (s.crossingAsks[l] || (s.awaitsRest l).isSome) } := by
  unfold State.askRest
  cases h : (s.awaitsRest l).isSome with
  | true => simp
  | false => simp

theorem State.resumeCrossing_steady (s : State) (l : LaneIx) : Steady s (s.resumeCrossing l) := by
  unfold State.resumeCrossing
  split
  · split
    · refine Steady.after (State.updateMove_steady _ _ _ ?_) (s.hold_steady _ _)
      exact fun _ => ⟨rfl, rfl, rfl⟩
    · exact Steady.refl s
  · exact Steady.refl s

theorem State.makeAsk_steady (s : State) (l : LaneIx) : Steady s (s.makeAsk l) :=
  (State.resumeCrossing_steady _ l).after (s.asks_steady _)

/-! ### Withdrawal and faults -/

theorem State.withdrawGrant_steady (s : State) (l : LaneIx) : Steady s (s.withdrawGrant l) := by
  refine Steady.after (State.advanceLane_steady _ _) (s.updateLane_steady _ _ ?_)
  exact fun _ => rfl

theorem State.revokeGrant_steady (s : State) (l : LaneIx) : Steady s (s.revokeGrant l) := by
  unfold State.revokeGrant
  split
  · refine Steady.after (State.updateLane_steady _ _ _ ?_)
      (Steady.after (State.updateMove_steady _ _ _ ?_) (s.restore_steady _))
    · exact fun _ => rfl
    · exact fun _ => ⟨rfl, rfl, rfl⟩
  all_goals exact Steady.refl s

theorem State.faultLane_steady (s : State) (l : LaneIx) (c : FaultCause) : Steady s (s.faultLane l c) := by
  refine Steady.after (State.notify_steady _ _) (Steady.after (State.updateLane_steady _ _ _ ?_) (s.revokeGrant_steady l))
  exact fun _ => rfl

theorem State.changeCause_steady (s : State) (l : LaneIx) (c : FaultCause) : Steady s (s.changeCause l c) :=
  s.updateLane_steady _ _ fun _ => rfl

theorem State.putInFault_steady (s : State) (l : LaneIx) (c : FaultCause) : Steady s (s.putInFault l c) := by
  unfold State.putInFault
  split
  · exact (s.changeCause_steady l c).trans (State.notify_steady _ _)
  · exact s.faultLane_steady l c

theorem State.settleLane_steady (s : State) (l : LaneIx) : Steady s (s.settleLane l) :=
  s.updateLane_steady _ _ fun _ => rfl

theorem State.strandIf_steady (s : State) (b : Nat) (l : LaneIx) : Steady s (s.strandIf b l) := by
  unfold State.strandIf
  split
  · exact s.putInFault_steady l _
  · exact Steady.refl s

theorem State.strandAll_steady (s : State) (b : Nat) : Steady s (s.strandAll b) :=
  (((s.strandIf_steady b 0).trans (State.strandIf_steady _ _ _)).trans (State.strandIf_steady _ _ _)).trans
    (State.strandIf_steady _ _ _)

/-! ### Operations that touch one lane alone -/

/-- From s to t, only lane l, and the LANE_STANDOFF notice, may differ. -/
structure OneLane (l : LaneIx) (s t : State) : Prop where
  only : t = { s with lanes := t.lanes, notices := t.notices }
  others : ∀ x : LaneIx, x ≠ l → t.lanes[x] = s.lanes[x]
  notices : t.notices = s.notices ∨ t.notices = s.notices ||| Notice.mask .laneStandoff

theorem OneLane.refl (l : LaneIx) (s : State) : OneLane l s s := ⟨rfl, fun _ _ => rfl, .inl rfl⟩

theorem OneLane.trans {l : LaneIx} {s t u : State} (h : OneLane l s t) (k : OneLane l t u) : OneLane l s u := by
  refine ⟨?_, fun x hx => (k.others x hx).trans (h.others x hx), ?_⟩
  · have h1 := h.only
    have h2 := k.only
    rw [h1] at h2
    exact h2
  · rcases h.notices with e | e <;> rcases k.notices with f | f
    · exact .inl (f.trans e)
    · exact .inr (by rw [f, e])
    · exact .inr (f.trans e)
    · exact .inr (by rw [f, e, BitVec.or_assoc, BitVec.or_self])

theorem State.updateLane_oneLane (s : State) (l : LaneIx) (u : Lane → Lane) : OneLane l s (s.updateLane l u) :=
  ⟨rfl, fun x hx => by
    have : (l : Nat) ≠ x := fun h => hx (Fin.ext h.symm)
    simp [Fin.getElem_fin, Vector.getElem_set_ne _ _ this], .inl rfl⟩

theorem State.judgeRound_oneLane (s : State) (l : LaneIx) : OneLane l s (s.judgeRound l) := by
  unfold State.judgeRound
  split
  · have h := s.updateLane_oneLane l fun ln => { ln with standoff := true }
    exact ⟨rfl, h.others, .inr rfl⟩
  · exact OneLane.refl l s

theorem State.startRound_oneLane (s : State) (l : LaneIx) : OneLane l s (s.startRound l) := by
  unfold State.startRound
  split
  · exact (State.updateLane_oneLane _ _ _).trans (State.updateLane_oneLane _ _ _)
  · exact ((State.updateLane_oneLane _ _ _).trans (State.updateLane_oneLane _ _ _)).trans (State.updateLane_oneLane _ _ _)

theorem State.advanceLane_oneLane (s : State) (l : LaneIx) : OneLane l s (s.advanceLane l) := by
  unfold State.advanceLane State.advanceStrict State.advanceNormal
  split
  · split
    · split
      · exact ((s.judgeRound_oneLane l).trans (State.updateLane_oneLane _ _ _)).trans (State.updateLane_oneLane _ _ _)
      · exact s.updateLane_oneLane _ _
    · exact (s.judgeRound_oneLane l).trans (State.updateLane_oneLane _ _ _)
  · split
    · exact (State.updateLane_oneLane _ _ _).trans (State.updateLane_oneLane _ _ _)
    · dsimp only
      split
      · exact ((State.updateLane_oneLane _ _ _).trans (State.judgeRound_oneLane _ _)).trans (State.startRound_oneLane _ _)
      · exact ((State.updateLane_oneLane _ _ _).trans (State.judgeRound_oneLane _ _)).trans
          (State.updateLane_oneLane _ _ _)

end Sys2Proof.Machine
end

