-- ==== Sys2Proof/Laws/Memory.lean ====
section
/-!
SUPPORT. The board memory: what a store of one byte and of one word does to every byte, and that both keep the
canonical form.
-/

namespace Sys2Proof.Machine

/-- The keys of a memory lie above a bound. -/
abbrev Memory.above (k : Nat) (m : List Host.Cell) : Prop := ∀ c ∈ m, k < c.1

theorem Memory.wf_cons (c : Host.Cell) (m : List Host.Cell) :
    Memory.wf (c :: m) = true ↔ c.2 ≠ Config.unwrittenByte ∧ Memory.above c.1 m ∧ Memory.wf m = true := by
  induction m generalizing c with
  | nil => simp [Memory.wf, Memory.above]
  | cons d rest ih =>
    simp only [Memory.wf, Bool.and_eq_true, bne_iff_ne, ne_eq, decide_eq_true_eq, Memory.above, List.mem_cons,
      forall_eq_or_imp]
    constructor
    · rintro ⟨⟨h1, h2⟩, h3⟩
      refine ⟨h1, ⟨h2, fun x hx => ?_⟩, h3⟩
      have := (ih d).1 h3
      exact lt_trans h2 (this.2.1 x hx)
    · rintro ⟨h1, ⟨h2, _⟩, h3⟩
      exact ⟨⟨h1, h2⟩, h3⟩

@[simp] theorem memByte_nil (k : Nat) : memByte [] k = Config.unwrittenByte := rfl

theorem memByte_cons (c : Host.Cell) (m : List Host.Cell) (k : Nat) :
    memByte (c :: m) k = if c.1 = k then c.2 else memByte m k := by
  unfold memByte
  by_cases h : c.1 = k
  · simp [List.find?, h]
  · have hb : (c.1 == k) = false := by simpa using h
    simp [List.find?, hb, h]

theorem memByte_above {m : List Host.Cell} {k j : Nat} (h : Memory.above k m) (hj : j ≤ k) :
    memByte m j = Config.unwrittenByte := by
  induction m with
  | nil => rfl
  | cons c rest ih =>
    have hc : k < c.1 := h c (List.mem_cons_self ..)
    rw [memByte_cons, if_neg (by omega)]
    exact ih fun x hx => h x (List.mem_cons_of_mem _ hx)

/-- A byte at another key reads as before, whatever the memory. -/
theorem memByte_memInsert_other (m : List Host.Cell) (k : Nat) (b : Byte) {j : Nat} (hj : j ≠ k) :
    memByte (memInsert m k b) j = memByte m j := by
  induction m with
  | nil =>
    unfold memInsert
    split
    · rfl
    · rw [memByte_cons, if_neg (Ne.symm hj)]
  | cons c rest ih =>
    unfold memInsert
    split
    · rw [memByte_cons, memByte_cons, ih]
    · split
      · next h => split <;> simp [memByte_cons, h, Ne.symm hj]
      · split
        · rfl
        · rw [memByte_cons, if_neg (Ne.symm hj)]

/-- The stored byte reads back. -/
theorem memByte_memInsert_same (m : List Host.Cell) (k : Nat) (b : Byte) (h : Memory.wf m = true) :
    memByte (memInsert m k b) k = b := by
  induction m with
  | nil =>
    unfold memInsert
    split
    · next hb => simp [hb]
    · simp [memByte_cons]
  | cons c rest ih =>
    obtain ⟨_, h2, h3⟩ := (Memory.wf_cons c rest).1 h
    unfold memInsert
    split
    · next hlt => rw [memByte_cons, if_neg (by omega), ih h3]
    · split
      · next heq =>
        split
        · next hb => rw [hb]; exact memByte_above h2 (by omega)
        · simp [memByte_cons]
      · next hne =>
        split
        · next hb =>
          rw [hb]
          exact memByte_above (k := k) (fun x hx => by
            rcases List.mem_cons.1 hx with rfl | hx
            · omega
            · have := h2 x hx; omega) le_rfl
        · simp [memByte_cons]

theorem memInsert_above {m : List Host.Cell} {k j : Nat} {b : Byte} (h : Memory.above j m) (hk : j < k) :
    Memory.above j (memInsert m k b) := by
  induction m with
  | nil =>
    unfold memInsert
    split
    · exact h
    · intro c hc; rw [List.mem_singleton.1 hc]; exact hk
  | cons d rest ih =>
    have hd : j < d.1 := h d (List.mem_cons_self ..)
    have hr : Memory.above j rest := fun x hx => h x (List.mem_cons_of_mem _ hx)
    have hcons : ∀ (e : Host.Cell) (l : List Host.Cell), j < e.1 → Memory.above j l → Memory.above j (e :: l) :=
      fun e l he hl x hx => by
        rcases List.mem_cons.1 hx with rfl | hx
        · exact he
        · exact hl x hx
    unfold memInsert
    split
    · exact hcons _ _ hd (ih hr)
    · split
      · split
        · exact hr
        · exact hcons _ _ hk hr
      · split
        · exact h
        · exact hcons _ _ hk h

/-- A stored byte keeps the canonical form. -/
theorem memInsert_wf (m : List Host.Cell) (k : Nat) (b : Byte) (h : Memory.wf m = true) :
    Memory.wf (memInsert m k b) = true := by
  induction m with
  | nil =>
    unfold memInsert
    split
    · rfl
    · next hb => simpa [Memory.wf] using hb
  | cons c rest ih =>
    obtain ⟨h1, h2, h3⟩ := (Memory.wf_cons c rest).1 h
    unfold memInsert
    split
    · next hlt => exact (Memory.wf_cons _ _).2 ⟨h1, memInsert_above h2 hlt, ih h3⟩
    · split
      · next heq =>
        split
        · exact h3
        · next hb => exact (Memory.wf_cons _ _).2 ⟨hb, fun x hx => by have := h2 x hx; omega, h3⟩
      · split
        · exact h
        · next hne hb =>
          refine (Memory.wf_cons _ _).2 ⟨hb, fun x hx => ?_, h⟩
          rcases List.mem_cons.1 hx with rfl | hx
          · show k < x.1; omega
          · have := h2 x hx; show k < x.1; omega

theorem memWriteLane_wf (m : List Host.Cell) (a : WordAddr) (lanes : Lanes) (d : Word) (i : Nat)
    (h : Memory.wf m = true) : Memory.wf (memWriteLane m a lanes d i) = true := by
  unfold memWriteLane
  split
  · exact memInsert_wf _ _ _ h
  · exact h

/-- A stored word keeps the canonical form. -/
theorem memWrite_wf (m : List Host.Cell) (a : WordAddr) (lanes : Lanes) (d : Word) (h : Memory.wf m = true) :
    Memory.wf (memWrite m a lanes d) = true :=
  memWriteLane_wf _ _ _ _ _ (memWriteLane_wf _ _ _ _ _ (memWriteLane_wf _ _ _ _ _ (memWriteLane_wf _ _ _ _ _ h)))

/-- Lanes of other words, and lanes that are not written, keep their bytes. -/
theorem memByte_memWriteLane_other (m : List Host.Cell) (a : WordAddr) (lanes : Lanes) (d : Word) (i : Nat)
    {j : Nat} (hj : j ≠ byteKey a i) : memByte (memWriteLane m a lanes d i) j = memByte m j := by
  unfold memWriteLane
  split
  · exact memByte_memInsert_other _ _ _ hj
  · rfl

theorem byteKey_ne {a b : WordAddr} {i j : Nat} (hi : i < 4) (hj : j < 4) (h : a ≠ b) : byteKey a i ≠ byteKey b j := by
  have : a.toNat ≠ b.toNat := fun e => h (BitVec.eq_of_toNat_eq e)
  unfold byteKey
  omega

/-- A stored word leaves every byte of another word. -/
theorem memByte_memWrite_other (m : List Host.Cell) {a b : WordAddr} (lanes : Lanes) (d : Word) {i : Nat} (hi : i < 4)
    (h : b ≠ a) : memByte (memWrite m a lanes d) (byteKey b i) = memByte m (byteKey b i) := by
  unfold memWrite
  rw [memByte_memWriteLane_other _ _ _ _ _ (byteKey_ne hi (by omega) h),
    memByte_memWriteLane_other _ _ _ _ _ (byteKey_ne hi (by omega) h),
    memByte_memWriteLane_other _ _ _ _ _ (byteKey_ne hi (by omega) h),
    memByte_memWriteLane_other _ _ _ _ _ (byteKey_ne hi (by omega) h)]

end Sys2Proof.Machine
end

