-- ==== Sys2Proof/Laws/Moves.lean ====
section
/-!
SUPPORT. The Move Controller's and the Extension Arbiter's operations: those that neither admit nor end a move are
steady, and an admission, an end, a queue trial and the reports keep what no rail block changes.
-/

namespace Sys2Proof.Machine

/-! ### Stops, stalls and lane business (chapter 6) -/

theorem State.leaveLane_steady (s : State) (k : SlotIx) : Steady s (s.leaveLane k) := by
  unfold State.leaveLane
  split
  · exact Steady.refl s
  · split
    · exact Steady.refl s
    · have h : Steady s (s.updateMove k fun m => { m with lane := none }) :=
        s.updateMove_steady _ _ fun _ => ⟨rfl, rfl, rfl⟩
      dsimp only
      split
      · exact (State.withdrawGrant_steady _ _).after h
      · exact (State.leaveList_steady _ _ _).after h

theorem State.enterStopping_steady (s : State) (k : SlotIx) (r : EndReason) : Steady s (s.enterStopping k r) := by
  unfold State.enterStopping
  split
  · exact Steady.refl s
  · split
    · exact Steady.refl s
    · refine Steady.after (State.leaveLane_steady _ _) (Steady.after (State.updateMove_steady _ _ _ ?_) (s.restore_steady k))
      exact fun _ => ⟨rfl, rfl, rfl⟩

theorem State.stallMove_steady (s : State) (k : SlotIx) : Steady s (s.stallMove k) := by
  refine Steady.after (State.notify_steady _ _) (Steady.after (State.leaveLane_steady _ _)
    (Steady.after (State.updateMove_steady _ _ _ ?_) (s.restore_steady k)))
  exact fun _ => ⟨rfl, rfl, rfl⟩

theorem State.stallAgain_steady (s : State) (k : SlotIx) : Steady s (s.stallAgain k) := by
  refine Steady.after (State.notify_steady _ _) (s.updateMove_steady _ _ ?_)
  exact fun _ => ⟨rfl, rfl, rfl⟩

theorem State.endLane_steady (s : State) (k : SlotIx) : Steady s (s.endLane k) := by
  unfold State.endLane
  split
  · exact Steady.refl s
  · split
    · exact s.updateLane_steady _ _ fun _ => rfl
    · split
      · exact s.withdrawGrant_steady _
      · exact s.leaveList_steady _ _

/-! ### Progress -/

theorem State.settleProgress_steady (s : State) (k : SlotIx) : Steady s (s.settleProgress k) := by
  unfold State.settleProgress
  split
  · split
    · exact (State.trigger_steady _).after (s.settleByIndices_steady k)
    · exact Steady.refl s
  · exact Steady.refl s

theorem State.advance_steady (s : State) (m : Move) (g : Nat) : Steady s (s.advance m g) := by
  have h : Steady s ((s.mark g m.bench).updateMove m.slot fun x =>
      { x with
        f := x.f + 1
        shed := false
        silence := if x.f + 1 < x.h then x.silence.restart s.silenceFull else .stopped }) :=
    Steady.after (State.updateMove_steady _ _ _ fun _ => ⟨rfl, rfl, rfl⟩) (s.mark_steady g m.bench)
  unfold State.advance
  refine Steady.after (State.settleProgress_steady _ _) ?_
  split
  · split
    · exact (State.enterCrossing_steady _ _ _).after h
    · exact h
  · exact h

/-! ### Intrusions (R81 to R84, R103 to R105) -/

theorem State.intrudeEntered_steady (s : State) (l : LaneIx) (k : SlotIx) : Steady s (s.intrudeEntered l k) :=
  (State.enterStopping_steady _ _ _).after (s.putInFault_steady l _)

theorem State.intrudeFaulted_steady (s : State) (l : LaneIx) : Steady s (s.intrudeFaulted l) := by
  unfold State.intrudeFaulted
  dsimp only
  split
  · exact s.changeCause_steady l _
  · exact (State.notify_steady _ _).after (s.changeCause_steady l _)

theorem State.intrudeLane_steady (s : State) (l : LaneIx) : Steady s (s.intrudeLane l) := by
  unfold State.intrudeLane
  refine Steady.after (State.notify_steady _ _) ?_
  split
  · exact s.settleLane_steady l
  · exact s.settleLane_steady l
  · exact s.settleLane_steady l
  · split
    · exact s.intrudeEntered_steady _ _
    · exact (State.settleLane_steady _ _).after (s.revokeGrant_steady l)
  · split
    · exact s.intrudeEntered_steady _ _
    · exact s.intrudeFaulted_steady l

theorem State.stopIntruder_steady (s : State) (mv : Option Move) : Steady s (s.stopIntruder mv) := by
  unfold State.stopIntruder
  split
  · exact s.enterStopping_steady _ _
  · exact Steady.refl s

theorem State.intrude_steady (s : State) (mv : Option Move) (b g : Nat) : Steady s (s.intrude mv b g) := by
  unfold State.intrude
  split
  · unfold State.intrudeCell
    refine Steady.after (State.stopIntruder_steady _ _) (Steady.after (State.notify_steady _ _) ?_)
    split
    · exact s.intrudeLane_steady _
    · exact (State.mark_steady _ _ _).after (s.intrudeLane_steady _)
  · split
    · unfold State.intrudeHeld
      have h : ∀ k, Steady s ((s.enterStopping k .intrusion).setFence [g] .intrusion) := fun k =>
        (State.setFence_steady _ _ _).after (s.enterStopping_steady k _)
      have h2 : ∀ (c : Bool) (k : SlotIx) (o : Nat), Steady s
          (if c then (s.enterStopping k .intrusion).setFence [g] .intrusion
           else ((s.enterStopping k .intrusion).setFence [g] .intrusion).mark g o) := by
        intro c k o
        split
        · exact h k
        · exact (State.mark_steady _ _ _).after (h k)
      exact Steady.after (State.stopIntruder_steady _ _) (Steady.after (State.notify_steady _ _) (h2 _ _ _))
    · exact Steady.after (State.stopIntruder_steady _ _) (Steady.after (State.notify_steady _ _)
        (Steady.after (State.mark_steady _ _ _) (s.setFence_steady _ _)))

/-! ### Announcements and the arbiter (R9, chapter 3) -/

theorem State.announceLane_steady (s : State) (a : List Segment) (l : LaneIx) : Steady s (s.announceLane a l) := by
  unfold State.announceLane
  split
  · exact s.askRest_steady l
  · exact Steady.refl s

theorem State.announceLane_eq (s : State) (a : List Segment) (l : LaneIx) :
    ∃ x, s.announceLane a l = { s with crossingAsks := x } := by
  unfold State.announceLane
  split
  · exact ⟨_, s.askRest_eq l⟩
  · exact ⟨s.crossingAsks, rfl⟩

theorem State.trigger_eq (s : State) : ∃ a, s.trigger = { s with arbiter := a } := by
  unfold State.trigger
  split
  · split <;> exact ⟨_, rfl⟩
  all_goals exact ⟨s.arbiter, rfl⟩

/-- An announcement changes what the lanes are to ask for and the arbiter's marks, and nothing else (R9, R10). -/
theorem State.announce_eq (before s : State) :
    ∃ x a, before.announce s = { s with crossingAsks := x, arbiter := a } := by
  unfold State.announce
  dsimp only
  split
  · exact ⟨s.crossingAsks, s.arbiter, rfl⟩
  · obtain ⟨x0, h0⟩ := s.announceLane_eq (announced before.segs s.segs) 0
    obtain ⟨x1, h1⟩ := State.announceLane_eq { s with crossingAsks := x0 } (announced before.segs s.segs) 1
    obtain ⟨x2, h2⟩ := State.announceLane_eq { s with crossingAsks := x1 } (announced before.segs s.segs) 2
    obtain ⟨x3, h3⟩ := State.announceLane_eq { s with crossingAsks := x2 } (announced before.segs s.segs) 3
    obtain ⟨a, ha⟩ := State.trigger_eq { s with crossingAsks := x3 }
    exact ⟨x3, a, by rw [h0, h1, h2, h3, ha]⟩

theorem State.announce_steady (before s : State) : Steady s (before.announce s) := by
  unfold State.announce
  dsimp only
  split
  · exact Steady.refl s
  · exact ((((State.trigger_steady _).after (State.announceLane_steady _ _ _)).after
      (State.announceLane_steady _ _ _)).after (State.announceLane_steady _ _ _)).after (s.announceLane_steady _ _)

/-- A change of every move that leaves what is fixed, its number and its token, and of the arbiter. -/
theorem State.yieldAll_steady (s : State) (y : Yield → Yield) (a : Arbiter) :
    Steady s { s with moves := s.moves.map fun m => { m with yield := y m.yield }, arbiter := a } :=
  { Steady.refl s with
    pending := rfl, mode := rfl, clockCount := rfl, windows := rfl, latch := rfl, readData := rfl, mem := rfl
    reports := rfl, timing := rfl, enable := rfl, guardCapture := rfl, health := rfl, picks := rfl, layouts := rfl
    config := rfl, queue := rfl, tokens := rfl, admissionCounter := rfl, orders := rfl
    history := (Kept.refl s).history, notices := fun _ h => h
    moves := by rw [List.map_map]; rfl
    admissions := by rw [List.map_map]; rfl
    tokenFlags := by rw [List.map_map]; rfl }

theorem State.endPass_steady (s : State) : Steady s s.endPass := by
  unfold State.endPass
  dsimp only
  split
  · exact (State.trigger_steady _).after (s.yieldAll_steady Yield.onPassEnd _)
  · exact s.yieldAll_steady Yield.onPassEnd _

theorem State.beginPass_steady (s : State) : Steady s s.beginPass := s.yieldAll_steady Yield.onPassStart _

/-- A change of the arbiter alone. -/
theorem State.arbiter_steady (s : State) (a : Arbiter) : Steady s { s with arbiter := a } :=
  { Steady.refl s with
    pending := rfl, mode := rfl, clockCount := rfl, windows := rfl, latch := rfl, readData := rfl, mem := rfl
    reports := rfl, timing := rfl, enable := rfl, guardCapture := rfl, health := rfl, picks := rfl, layouts := rfl
    config := rfl, queue := rfl, tokens := rfl, admissionCounter := rfl, orders := rfl, moves := rfl
    admissions := rfl, tokenFlags := rfl
    history := (Kept.refl s).history, notices := fun _ h => h }

theorem State.startPass_steady (s : State) : Steady s s.startPass := by
  unfold State.startPass
  split
  · split
    · exact s.arbiter_steady _
    · split
      · exact s.beginPass_steady
      · exact (State.endPass_steady _).after s.beginPass_steady
  all_goals exact Steady.refl s

theorem State.grantNext_steady (s : State) (m : Move) : Steady s (s.grantNext m) := by
  refine Steady.after (State.updateMove_steady _ _ _ ?_) (s.hold_steady _ _)
  exact fun _ => ⟨rfl, rfl, rfl⟩

theorem State.joinBerth_steady (s : State) (m : Move) : Steady s (s.joinBerth m) := by
  unfold State.joinBerth
  split
  · refine Steady.after (State.joinList_steady _ _ _ _) (s.updateMove_steady _ _ ?_)
    exact fun _ => ⟨rfl, rfl, rfl⟩
  · exact Steady.refl s

/-- A change of the gridlock capture alone. -/
theorem State.gridlock_steady (s : State) (c : GridlockCapture) : Steady s { s with gridlock := c } :=
  { Steady.refl s with
    pending := rfl, mode := rfl, clockCount := rfl, windows := rfl, latch := rfl, readData := rfl, mem := rfl
    reports := rfl, timing := rfl, enable := rfl, guardCapture := rfl, health := rfl, picks := rfl, layouts := rfl
    config := rfl, queue := rfl, tokens := rfl, admissionCounter := rfl, orders := rfl, moves := rfl
    admissions := rfl, tokenFlags := rfl
    history := (Kept.refl s).history, notices := fun _ h => h }

theorem State.shedMove_steady (s : State) (k : SlotIx) (len : Nat) : Steady s (s.shedMove k len) := by
  refine Steady.after (State.notify_steady _ _) (Steady.after (State.gridlock_steady _ _)
    (Steady.after (State.updateMove_steady _ _ _ ?_) (s.restore_steady k)))
  exact fun _ => ⟨rfl, rfl, rfl⟩

theorem State.reportRing_steady (s : State) (ring : List SlotIx) (members : List Move) :
    Steady s (s.reportRing ring members) := by
  have key : ∀ {α : Type} (f : Move → α), (∀ m : Move, f { m with gridlocked := true } = f m) →
      (s.moves.map fun m => if m.slot ∈ ring then { m with gridlocked := true } else m).map f = s.moves.map f := by
    intro α f hf
    rw [List.map_map]
    refine List.map_congr_left fun m _ => ?_
    show f (if m.slot ∈ ring then { m with gridlocked := true } else m) = f m
    split
    · exact hf m
    · rfl
  have h : Steady s
      { s with moves := s.moves.map fun m => if m.slot ∈ ring then { m with gridlocked := true } else m } :=
    { Steady.refl s with
      pending := rfl, mode := rfl, clockCount := rfl, windows := rfl, latch := rfl, readData := rfl, mem := rfl
      reports := rfl, timing := rfl, enable := rfl, guardCapture := rfl, health := rfl, picks := rfl, layouts := rfl
      config := rfl, queue := rfl, tokens := rfl, admissionCounter := rfl, orders := rfl
      history := (Kept.refl s).history, notices := fun _ h => h
      moves := key _ fun _ => rfl, admissions := key _ fun _ => rfl, tokenFlags := key _ fun _ => rfl }
  unfold State.reportRing
  dsimp only
  split
  · exact h
  · split
    · exact h
    · exact (State.notify_steady _ _).after ((State.gridlock_steady _ _).after h)

theorem State.breakRing_steady (s : State) (ring : List SlotIx) : Steady s (s.breakRing ring) := by
  unfold State.breakRing
  dsimp only
  split
  · exact s.shedMove_steady _ _
  · exact s.reportRing_steady _ _

theorem State.followChain_steady (s : State) (c : WaitCheck) : Steady s (s.followChain c) := by
  unfold State.followChain
  split
  · exact s.arbiter_steady _
  · split
    · dsimp only
      split
      · exact (State.breakRing_steady _ _).after (s.arbiter_steady _)
      · exact s.arbiter_steady _
    · split
      · exact s.arbiter_steady _
      · split <;> exact s.arbiter_steady _

/-- What a check keeps when a move of its chain ends: its segment, and moves of its chain after that one (R55). -/
theorem WaitCheck.forget_some {c c' : WaitCheck} {k : SlotIx} (h : c.forget k = some c') (ne : c.chain ≠ [])
    (nd : c.chain.Nodup) :
    c'.segment = c.segment ∧ c'.chain ≠ [] ∧ c'.chain.Sublist c.chain ∧ k ∉ c'.chain := by
  unfold WaitCheck.forget at h
  split at h
  · have hs : (c.chain.dropWhile (· ≠ k)).Sublist c.chain := List.dropWhile_sublist _
    cases hd : c.chain.dropWhile (· ≠ k) with
    | nil => rw [hd] at h; simp at h
    | cons y rest =>
      have hy : y = k := by
        have := List.head?_dropWhile_not (fun x => decide (x ≠ k)) c.chain
        rw [hd] at this
        simpa using this
      rw [hd] at h hs
      cases rest with
      | nil => simp at h
      | cons z zs =>
        have he : c' = { c with chain := z :: zs } := by simpa using h.symm
        subst he hy
        exact ⟨rfl, by simp, (List.sublist_cons_self _ _).trans hs, (List.nodup_cons.mp (hs.nodup nd)).1⟩
  · injection h with h
    subst h
    exact ⟨rfl, ne, List.Sublist.refl _, by assumption⟩

theorem State.settleVisit_steady (s : State) (m : Move) : Steady s (s.settleVisit m) := by
  have h : Steady s (s.updateMove m.slot fun x => { x with state := s.tableState m, extending := false }) :=
    s.updateMove_steady _ _ fun _ => ⟨rfl, rfl, rfl⟩
  unfold State.settleVisit
  dsimp only
  split
  · exact (State.joinBerth_steady _ _).after h
  · exact (State.arbiter_steady _ _).after h
  all_goals exact h

theorem State.turn_steady (s : State) (k : SlotIx) : Steady s (s.turn k) := by
  unfold State.turn
  split
  · exact s.arbiter_steady _
  · split
    · split
      · exact s.grantNext_steady _
      · exact (State.settleVisit_steady _ _).after (s.arbiter_steady _)
    · exact s.arbiter_steady _

theorem State.closePass_steady (s : State) : Steady s s.closePass := by
  unfold State.closePass
  split
  · exact s.endPass_steady
  · exact Steady.refl s

theorem State.cutPass_steady (s : State) : Steady s s.cutPass := by
  have key : ∀ {α : Type} (f : Move → α),
      (∀ m : Move, f { m with state := s.indexState m, extending := false } = f m) →
      (s.moves.map fun (m : Move) =>
        if m.extending then { m with state := s.indexState m, extending := false } else m).map f = s.moves.map f := by
    intro α f hf
    rw [List.map_map]
    refine List.map_congr_left fun m _ => ?_
    show f (if m.extending then { m with state := s.indexState m, extending := false } else m) = f m
    split
    · exact hf m
    · rfl
  refine Steady.after (State.endPass_steady _) ?_
  exact
    { Steady.refl s with
      pending := rfl, mode := rfl, clockCount := rfl, windows := rfl, latch := rfl, readData := rfl, mem := rfl
      reports := rfl, timing := rfl, enable := rfl, guardCapture := rfl, health := rfl, picks := rfl, layouts := rfl
      config := rfl, queue := rfl, tokens := rfl, admissionCounter := rfl, orders := rfl
      history := (Kept.refl s).history, notices := fun _ h => h
      moves := key _ fun _ => rfl, admissions := key _ fun _ => rfl, tokenFlags := key _ fun _ => rfl }

/-- One request of the arbiter neither admits nor ends a move. -/
theorem State.request_steady (s : State) : Steady s s.request := by
  unfold State.request
  split
  · exact Steady.refl s
  · split
    · split
      · exact (State.closePass_steady _).after (s.followChain_steady _)
      · exact s.endPass_steady
      · exact (State.closePass_steady _).after (s.turn_steady _)
    all_goals exact s.cutPass_steady

theorem State.finishVisit_steady (fuel : Nat) (s : State) : Steady s (State.finishVisit fuel s) := by
  induction fuel generalizing s with
  | zero => exact Steady.refl s
  | succ n ih =>
    unfold State.finishVisit
    split
    · exact (ih _).after s.request_steady
    · exact Steady.refl s

theorem State.visit_steady (s : State) : Steady s s.visit := (State.finishVisit_steady _ _).after s.request_steady

/-! ### Verdicts, the queue and the end of a move (chapter 2) -/

theorem State.setVerdict_kept (s : State) (k : SlotIx) (v : Verdict) : Kept s (s.setVerdict k v) :=
  s.updateOrder_kept k _

theorem State.refuse_kept (s : State) (k : SlotIx) (r : RefuseReason) : Kept s (s.refuse k r) :=
  (State.notify_steady _ _).toKept.after (s.setVerdict_kept k _)

/-- A change of the tables that hold moves, orders and tokens alone. -/
theorem State.tables_kept (s : State) (ms : List Move) (q : List QueuedOrder) (n : Nat) (tk : List Nat) (a : Arbiter) :
    Kept s { s with moves := ms, queue := q, admissionCounter := n, tokens := tk, arbiter := a } :=
  { Kept.refl s with
    pending := rfl, mode := rfl, clockCount := rfl, windows := rfl, latch := rfl, readData := rfl, mem := rfl
    reports := rfl, timing := rfl, enable := rfl, guardCapture := rfl, health := rfl, picks := rfl, layouts := rfl
    config := rfl, history := (Kept.refl s).history, notices := fun _ h => h }

theorem State.readyCounter_kept (s : State) : Kept s s.readyCounter := by
  unfold State.readyCounter
  split
  · exact Kept.refl s
  · exact s.tables_kept _ _ _ _ _

theorem State.admit_kept (s : State) (q : QueuedOrder) : Kept s (s.admitOrder q) :=
  (State.trigger_steady _).toKept.after ((State.hold_steady _ _ _).toKept.after
    ((State.tables_kept _ _ _ _ _ _).after s.readyCounter_kept))

theorem State.tryHeads_kept (q : List QueuedOrder) (s : State) : Kept s (State.tryHeads q s) := by
  induction q generalizing s with
  | nil => exact s.tables_kept _ _ _ _ _
  | cons x rest ih =>
    have h : Kept s { s with queue := rest } := s.tables_kept _ _ _ _ _
    unfold State.tryHeads
    split
    · exact (State.admit_kept _ _).after h
    · exact (ih _).after ((State.refuse_kept _ _ _).after h)

theorem State.tryQueue_kept (s : State) : Kept s s.tryQueue := State.tryHeads_kept _ s

theorem State.removeMove_kept (s : State) (k : SlotIx) : Kept s (s.removeMove k) := s.tables_kept _ _ _ _ _

theorem State.endMove_kept (s : State) (k : SlotIx) (v : Nat → Verdict) (n : Notice) : Kept s (s.endMove k v n) := by
  unfold State.endMove
  split
  · exact Kept.refl s
  · exact (State.trigger_steady _).toKept.after ((State.tryQueue_kept _).after
      ((State.notify_steady _ _).toKept.after ((State.setVerdict_kept _ _ _).after
        ((State.removeMove_kept _ _).after ((State.strandAll_steady _ _).toKept.after
          ((State.endLane_steady _ _).toKept.after (s.release_steady _ _).toKept))))))

theorem State.afterTail_kept (s : State) (k : SlotIx) : Kept s (s.afterTail k) := by
  unfold State.afterTail
  split
  · split
    · exact s.endMove_kept _ _ _
    · exact (s.settleProgress_steady k).toKept
  · exact Kept.refl s

theorem State.tailRelease_kept (s : State) (m : Move) : Kept s (s.tailRelease m) := by
  have h : Steady s (((s.vacate (m.seg m.t) m.bench).release m.slot [m.seg m.t]).updateMove m.slot fun x =>
      { x with t := x.t + 1, stack := dropBottom x.stack }) := by
    refine Steady.after (State.updateMove_steady _ _ _ ?_) ((State.release_steady _ _ _).after (s.vacate_steady _ _))
    exact fun _ => ⟨rfl, rfl, rfl⟩
  unfold State.tailRelease
  refine Kept.after (State.afterTail_kept _ _) ?_
  split
  · split
    · exact ((State.endCrossing_steady _ _ _).after h).toKept
    · exact h.toKept
  · exact h.toKept

/-! ### Judgements of reports (chapter 5) -/

theorem State.outOfStep_kept (s : State) (m : Move) (r : RejectReason) : Kept s (s.outOfStep m r).1 :=
  (s.enterStopping_steady _ _).toKept

theorem arrivedReport_kept (b g : Nat) (s : State) : Kept s (arrivedReport b g s).1 := by
  unfold arrivedReport
  split
  · split
    · split
      · split
        · exact (s.advance_steady _ _).toKept
        · exact s.outOfStep_kept _ _
      · exact s.outOfStep_kept _ _
    · exact (s.intrude_steady _ _ _).toKept
  · split
    · exact Kept.refl s
    · exact (s.intrude_steady _ _ _).toKept

theorem leftReport_kept (b g : Nat) (s : State) : Kept s (leftReport b g s).1 := by
  unfold leftReport
  split
  · split
    · split
      · exact s.tailRelease_kept _
      · exact Kept.refl s
    · exact s.outOfStep_kept _ _
  · exact (s.vacate_steady _ _).toKept

theorem stalledReport_kept (b g : Nat) (s : State) : Kept s (stalledReport b g s).1 := by
  unfold stalledReport
  split
  · split
    · unfold State.takeStall
      split
      · exact (s.stallMove_steady _).toKept
      · exact (s.stallMove_steady _).toKept
      · exact (s.stallMove_steady _).toKept
      · exact (s.stallMove_steady _).toKept
      · exact (s.stallAgain_steady _).toKept
      · exact Kept.refl s
    · exact s.outOfStep_kept _ _
  · exact Kept.refl s

theorem State.takeHalt_kept (s : State) (m : Move) : Kept s (s.takeHalt m) := by
  unfold State.takeHalt
  split <;> exact s.endMove_kept _ _ _

theorem haltedReport_kept (b g : Nat) (s : State) : Kept s (haltedReport b g s).1 := by
  unfold haltedReport
  split
  · split
    · exact s.takeHalt_kept _
    · exact s.outOfStep_kept _ _
  · exact Kept.refl s

theorem seenReport_kept (b g : Nat) (s : State) : Kept s (seenReport b g s).1 := by
  unfold seenReport
  split
  · exact Kept.refl s
  · split
    · exact (s.updateSegs_steady [g] Segment.seen fun _ => ⟨rfl, rfl, rfl, fun _ => rfl, id⟩).toKept
    · split
      · exact (s.heard_steady _).toKept
      · exact Kept.refl s
      · split
        · exact Kept.refl s
        · unfold State.seenIntrusion
          split
          · exact ((State.notify_steady _ _).after ((State.mark_steady _ _ _).after (s.intrudeLane_steady _))).toKept
          · exact ((State.notify_steady _ _).after ((State.mark_steady _ _ _).after (s.setFence_steady _ _))).toKept

theorem emptyReport_kept (b g : Nat) (s : State) : Kept s (emptyReport b g s).1 := by
  unfold emptyReport
  split
  · exact Kept.refl s
  · split
    · exact ((State.enterStopping_steady _ _ _).after ((State.notify_steady _ _).after
        ((State.setFence_steady _ _ _).after (s.survey_steady _)))).toKept
    · split
      · exact ((State.clear_steady _ _).after (s.survey_steady _)).toKept
      · split
        · exact (s.clear_steady _).toKept
        · exact ((State.notify_steady _ _).after ((State.setFence_steady _ _ _).after (s.clear_steady _))).toKept
        · exact Kept.refl s

theorem checkedReport_kept {j : Nat → Nat → State → Judgement} (hj : ∀ b g s, Kept s (j b g s).1) (nb : Bool)
    (r : ReportRecord) (s : State) : Kept s (checkedReport j nb r s).1 := by
  unfold checkedReport
  split
  · exact Kept.refl s
  · split
    · exact hj _ _ s
    · exact Kept.refl s

theorem hearing_kept {j : Nat → Nat → State → Judgement} (hj : ∀ b g s, Kept s (j b g s).1) (b g : Nat) (s : State) :
    Kept s (hearing j b g s).1 := by
  unfold hearing
  dsimp only
  split
  · exact (State.heard_steady _ _).toKept.after (hj b g s)
  · exact hj b g s

/-- Every judgement of a report keeps what no rail block changes. -/
theorem carryReport_kept (kind : Option ReportKind) (r : ReportRecord) (s : State) :
    Kept s (carryReport kind r s).1 := by
  unfold carryReport
  split
  · exact checkedReport_kept (hearing_kept arrivedReport_kept) _ r s
  · exact checkedReport_kept (hearing_kept leftReport_kept) _ r s
  · exact checkedReport_kept (hearing_kept stalledReport_kept) _ r s
  · exact checkedReport_kept (hearing_kept haltedReport_kept) _ r s
  · exact checkedReport_kept seenReport_kept _ r s
  · exact checkedReport_kept emptyReport_kept _ r s
  · exact Kept.refl s

/-! ### Expiries -/

theorem State.silenceExpiry_kept (s : State) (k : SlotIx) : Kept s (s.silenceExpiry k) := by
  unfold State.silenceExpiry
  split
  · exact Kept.refl s
  · split
    · split
      · exact s.endMove_kept _ _ _
      · exact (s.enterStopping_steady _ _).toKept
    · exact Kept.refl s

theorem State.retryMove_steady (s : State) (k : SlotIx) : Steady s (s.retryMove k) := by
  have h : Steady s (s.updateMove k fun m => { m with retries := m.retries - 1, backoff := .stopped }) :=
    s.updateMove_steady _ _ fun _ => ⟨rfl, rfl, rfl⟩
  unfold State.retryMove
  dsimp only
  split
  · refine Steady.after (State.trigger_steady _) (Steady.after (State.resumeCrossing_steady _ _)
      (Steady.after (State.updateMove_steady _ _ _ ?_) h))
    exact fun _ => ⟨rfl, rfl, rfl⟩
  · exact (State.trigger_steady _).after ((State.settleByIndices_steady _ _).after h)

theorem State.backoffExpiry_steady (s : State) (k : SlotIx) : Steady s (s.backoffExpiry k) := by
  unfold State.backoffExpiry
  split
  · exact Steady.refl s
  · split
    · split
      · exact s.enterStopping_steady _ _
      · exact s.retryMove_steady _
    · exact Steady.refl s

theorem State.offerLapse_steady (s : State) (l : LaneIx) : Steady s (s.offerLapse l) := by
  unfold State.offerLapse
  split
  · refine Steady.after (State.advanceLane_steady _ _) (s.updateLane_steady _ _ ?_)
    exact fun _ => rfl
  · exact Steady.refl s

theorem State.entryDeadlineLapse_steady (s : State) (l : LaneIx) : Steady s (s.entryDeadlineLapse l) := by
  unfold State.entryDeadlineLapse
  split
  · exact (State.advanceLane_steady _ _).after (s.revokeGrant_steady l)
  · exact Steady.refl s

theorem State.crossingLimitExpiry_steady (s : State) (l : LaneIx) : Steady s (s.crossingLimitExpiry l) := by
  unfold State.crossingLimitExpiry
  split
  · exact s.faultLane_steady l _
  · exact Steady.refl s

theorem State.leaveFault_steady (s : State) (l : LaneIx) : Steady s (s.leaveFault l) := by
  refine Steady.after (State.startRound_steady _ _) (s.updateLane_steady _ _ ?_)
  exact fun _ => rfl

theorem State.leaveSettling_steady (s : State) (l : LaneIx) : Steady s (s.leaveSettling l) := by
  refine Steady.after (State.startRound_steady _ _) (s.updateLane_steady _ _ ?_)
  exact fun _ => rfl

theorem State.settleExpiry_steady (s : State) (l : LaneIx) : Steady s (s.settleExpiry l) := by
  unfold State.settleExpiry
  split
  · exact s.leaveSettling_steady l
  · exact Steady.refl s

theorem State.releaseExpiry_steady (s : State) (l : LaneIx) : Steady s (s.releaseExpiry l) := by
  unfold State.releaseExpiry
  split
  · exact s.leaveFault_steady l
  · exact Steady.refl s

end Sys2Proof.Machine
end

