-- ==== Sys2Proof/Laws/Orders.lean ====
section
/-!
SUPPORT. The order kinds: what each keeps, and the two shared answers (a refusal, an application) on every field.
-/

namespace Sys2Proof.Machine

/-- What no order changes, whatever its kind: everything of `Kept` but the mode (STOP_ALL, RESUME), the enable set
(NOTICE_MASK) and the fences (UNFENCE). -/
structure OrderKept (s t : State) : Prop where
  pending : t.pending = s.pending
  clockCount : t.clockCount = s.clockCount
  windows : t.windows = s.windows
  latch : t.latch = s.latch
  readData : t.readData = s.readData
  mem : t.mem = s.mem
  reports : t.reports = s.reports
  timing : t.timing = s.timing
  guardCapture : t.guardCapture = s.guardCapture
  health : t.health = s.health
  picks : t.picks = s.picks
  layouts : t.lanes.map (·.layout) = s.lanes.map (·.layout)
  config : t.segs.map (fun g => (g.id, g.kind, g.links)) = s.segs.map (fun g => (g.id, g.kind, g.links))
  surveys : List.Forall₂ (fun g g' => g.surveyed = true → g'.surveyed = true) s.segs t.segs
  notices : ∀ n : Notice, s.latched n = true → t.latched n = true

theorem Kept.orderKept {s t : State} (h : Kept s t) : OrderKept s t :=
  { pending := h.pending, clockCount := h.clockCount, windows := h.windows, latch := h.latch, readData := h.readData
    mem := h.mem, reports := h.reports, timing := h.timing, guardCapture := h.guardCapture, health := h.health
    picks := h.picks, layouts := h.layouts, config := h.config, notices := h.notices
    surveys := h.history.imp fun _ _ x => x.1 }

theorem OrderKept.trans {s t u : State} (h : OrderKept s t) (k : OrderKept t u) : OrderKept s u :=
  { pending := k.pending.trans h.pending
    clockCount := k.clockCount.trans h.clockCount, windows := k.windows.trans h.windows
    latch := k.latch.trans h.latch, readData := k.readData.trans h.readData, mem := k.mem.trans h.mem
    reports := k.reports.trans h.reports, timing := k.timing.trans h.timing
    guardCapture := k.guardCapture.trans h.guardCapture, health := k.health.trans h.health
    picks := k.picks.trans h.picks, layouts := k.layouts.trans h.layouts, config := k.config.trans h.config
    surveys := by
      have hh := h.surveys
      have hk := k.surveys
      generalize s.segs = a at hh
      generalize t.segs = b at hh hk
      generalize u.segs = c at hk
      induction hh generalizing c with
      | nil => cases hk; exact .nil
      | cons p _ ih => cases hk with
        | cons q r => exact .cons (fun x => q (p x)) (ih _ r)
    notices := fun n x => k.notices n (h.notices n x) }

/-- The later step first. -/
theorem OrderKept.after {s t u : State} (k : OrderKept t u) (h : OrderKept s t) : OrderKept s u := h.trans k

theorem State.applied_kept (s : State) (k : SlotIx) : Kept s (s.applied k) := s.setVerdict_kept k _

/-! ### The order kinds -/

theorem moveOrder_kept (k : SlotIx) (o : OrderRecord) (s : State) : Kept s (moveOrder k o s) := by
  unfold moveOrder
  split
  · exact s.refuse_kept _ _
  · split
    · exact s.refuse_kept _ _
    · split
      · unfold State.placeMove
        dsimp only
        split
        · exact s.refuse_kept _ _
        · split
          · exact s.admit_kept _
          · split
            · exact s.tables_kept _ _ _ _ _
            · exact s.refuse_kept _ _
      · exact s.refuse_kept _ _

theorem cancelOrder_kept (k : SlotIx) (o : OrderRecord) (s : State) : Kept s (cancelOrder k o s) := by
  unfold cancelOrder
  split
  · dsimp only
    split
    · exact (State.applied_kept _ _).after ((State.setVerdict_kept _ _ _).after (s.tables_kept _ _ _ _ _))
    · exact (State.applied_kept _ _).after (s.enterStopping_steady _ _).toKept
    · exact s.refuse_kept _ _
  · exact s.refuse_kept _ _

theorem fenceOrder_kept (k : SlotIx) (o : OrderRecord) (s : State) : Kept s (fenceOrder k o s) := by
  unfold fenceOrder
  split
  · exact (State.applied_kept _ _).after (s.setFence_steady _ _).toKept
  · exact s.refuse_kept _ _

theorem Segment.vouched_keeps (g : Segment) : g.vouched.id = g.id ∧ g.vouched.kind = g.kind ∧ g.vouched.links = g.links
    ∧ (g.surveyed = true → g.vouched.surveyed = true) ∧ (g.fence ≠ none → g.vouched.fence ≠ none) := by
  unfold Segment.vouched
  split
  · exact ⟨rfl, rfl, rfl, fun h => h, fun h => h⟩
  · exact ⟨rfl, rfl, rfl, fun _ => rfl, fun h => h⟩

theorem vouchOrder_kept (k : SlotIx) (o : OrderRecord) (s : State) : Kept s (vouchOrder k o s) := by
  unfold vouchOrder
  split
  · split
    · exact s.refuse_kept _ _
    · exact (State.applied_kept _ _).after (s.updateSegs_steady _ _ Segment.vouched_keeps).toKept
  · exact s.refuse_kept _ _

/-- A token set on one move. -/
theorem State.giveToken_kept (s : State) (k : SlotIx) : Kept s (s.updateMove k fun x => { x with token := true }) :=
  s.tables_kept _ _ _ _ _

theorem tokenOrder_kept (k : SlotIx) (o : OrderRecord) (s : State) : Kept s (tokenOrder k o s) := by
  unfold tokenOrder
  split
  · exact s.refuse_kept _ _
  · split
    · exact s.refuse_kept _ _
    · split
      · exact (State.trigger_steady _).toKept.after ((State.applied_kept _ _).after (s.giveToken_kept _))
      · split
        · exact (State.applied_kept _ _).after (s.tables_kept _ _ _ _ _)
        · exact s.refuse_kept _ _

theorem State.laneToCrossing_steady (s : State) (l : LaneIx) : Steady s (s.laneToCrossing l) :=
  s.updateLane_steady _ _ fun _ => rfl

theorem laneClearOrder_kept (k : SlotIx) (o : OrderRecord) (s : State) : Kept s (laneClearOrder k o s) := by
  unfold laneClearOrder
  split
  · dsimp only
    split
    · exact s.refuse_kept _ _
    · split
      · exact s.refuse_kept _ _
      · exact s.refuse_kept _ _
      · exact s.refuse_kept _ _
      · exact (State.applied_kept _ _).after (s.leaveSettling_steady _).toKept
      · unfold State.clearFaulted
        dsimp only
        split
        · exact s.refuse_kept _ _
        · split
          · exact (State.applied_kept _ _).after (s.leaveFault_steady _).toKept
          · split
            · exact (State.applied_kept _ _).after (s.laneToCrossing_steady _).toKept
            · exact s.refuse_kept _ _
  · exact s.refuse_kept _ _

theorem removeFence_orderKept (s : State) (ids : List Nat) : OrderKept s (s.removeFence ids) :=
  { (Kept.refl s).orderKept with
    pending := rfl, clockCount := rfl, windows := rfl, latch := rfl, readData := rfl, mem := rfl
    reports := rfl, timing := rfl, guardCapture := rfl, health := rfl, picks := rfl, layouts := rfl
    notices := fun _ h => h
    config := by
      show (s.segs.map fun g => if g.id ∈ ids then { g with fence := none } else g).map _ = _
      rw [List.map_map]
      refine List.map_congr_left fun g _ => ?_
      show (fun r : Segment => (r.id, r.kind, r.links)) (if g.id ∈ ids then { g with fence := none } else g) = _
      split <;> rfl
    surveys := by
      show List.Forall₂ _ s.segs (s.segs.map fun g => if g.id ∈ ids then { g with fence := none } else g)
      rw [List.forall₂_map_right_iff]
      refine List.forall₂_same.2 fun g _ => ?_
      split <;> exact id }

theorem haltPart_orderKept (s : State) : OrderKept s s.haltPart :=
  { (Kept.refl s).orderKept with
    pending := rfl, clockCount := rfl, windows := rfl, latch := rfl, readData := rfl, mem := rfl
    reports := rfl, timing := rfl, guardCapture := rfl, health := rfl, picks := rfl
    notices := fun _ h => h, config := rfl, surveys := (Kept.refl s).orderKept.surveys
    layouts := by
      show (s.lanes.map Lane.freeze).map (·.layout) = _
      rw [Vector.map_map]; rfl }

theorem State.thawLane_steady (s : State) (l : LaneIx) : Steady s (s.thawLane l) :=
  s.updateLane_steady _ _ fun _ => rfl

/-- A change of the mode and of the moves' timers. -/
theorem State.restart_orderKept (s : State) (m : Mode) (ms : List Move) : OrderKept s { s with mode := m, moves := ms } :=
  { (Kept.refl s).orderKept with
    pending := rfl, clockCount := rfl, windows := rfl, latch := rfl, readData := rfl, mem := rfl
    reports := rfl, timing := rfl, guardCapture := rfl, health := rfl, picks := rfl, layouts := rfl
    notices := fun _ h => h, config := rfl, surveys := (Kept.refl s).orderKept.surveys }

theorem State.thawLanes_steady (u : State) : Steady u u.thawLanes :=
  ((((((((u.thawLane_steady 0).trans (State.thawLane_steady _ 1)).trans (State.thawLane_steady _ 2)).trans
    (State.thawLane_steady _ 3)).trans (State.askRest_steady _ 0)).trans
    (State.askRest_steady _ 1)).trans (State.askRest_steady _ 2)).trans
    (State.askRest_steady _ 3)).trans (State.trigger_steady _)

theorem resumePart_orderKept (s : State) : OrderKept s s.resumePart :=
  (State.thawLanes_steady _).toKept.orderKept.after (s.restart_orderKept _ _)

theorem State.enable_orderKept (s : State) (e : BitVec 16) : OrderKept s { s with enable := e } :=
  { (Kept.refl s).orderKept with
    pending := rfl, clockCount := rfl, windows := rfl, latch := rfl, readData := rfl, mem := rfl
    reports := rfl, timing := rfl, guardCapture := rfl, health := rfl, picks := rfl, layouts := rfl
    notices := fun _ h => h, config := rfl, surveys := (Kept.refl s).orderKept.surveys }

/-- An order that is not UNFENCE, STOP_ALL, RESUME or NOTICE_MASK keeps mode, enable set and fences too. -/
theorem carryOrder_kept (kind : Option OrderKind) (h1 : kind ≠ some .unfence) (h2 : kind ≠ some .stopAll)
    (h3 : kind ≠ some .resume) (h4 : kind ≠ some .noticeMask) (k : SlotIx) (o : OrderRecord) (s : State) :
    Kept s (carryOrder kind k o s) := by
  unfold carryOrder
  split
  · exact moveOrder_kept k o s
  · exact cancelOrder_kept k o s
  · exact fenceOrder_kept k o s
  · exact absurd rfl h1
  · exact vouchOrder_kept k o s
  · exact tokenOrder_kept k o s
  · exact laneClearOrder_kept k o s
  · exact absurd rfl h2
  · exact absurd rfl h3
  · exact absurd rfl h4
  · exact s.refuse_kept k _

/-- Every order, of any kind, keeps what no order changes. -/
theorem carryOrder_orderKept (kind : Option OrderKind) (k : SlotIx) (o : OrderRecord) (s : State) :
    OrderKept s (carryOrder kind k o s) := by
  by_cases h : kind = some .unfence ∨ kind = some .stopAll ∨ kind = some .resume ∨ kind = some .noticeMask
  · rcases h with rfl | rfl | rfl | rfl
    · show OrderKept s (unfenceOrder k o s)
      unfold unfenceOrder
      split
      · exact (State.applied_kept _ _).orderKept.after (removeFence_orderKept s _)
      · exact (s.refuse_kept _ _).orderKept
    · show OrderKept s (stopAllOrder k o s)
      unfold stopAllOrder
      split
      · exact (State.applied_kept _ _).orderKept.after (haltPart_orderKept s)
      all_goals exact (s.applied_kept _).orderKept
    · show OrderKept s (resumeOrder k o s)
      unfold resumeOrder
      split
      · exact (State.applied_kept _ _).orderKept.after (resumePart_orderKept s)
      all_goals exact (s.applied_kept _).orderKept
    · exact (State.applied_kept _ _).orderKept.after (s.enable_orderKept _)
  · simp only [not_or] at h
    exact (carryOrder_kept kind h.1 h.2.1 h.2.2.1 h.2.2.2 k o s).orderKept

end Sys2Proof.Machine
end

