-- ==== Sys2Proof/Laws/Path.lean ====
section
/-!
SUPPORT. The bus: what a take, a written word and a read word change, and the row commands as the writes they carry.
-/

namespace Sys2Proof.Machine

/-! ### Takes -/

/-- Two states that differ as `Kept` allows still do when both take the same report slots. -/
theorem Kept.withReports {s t : State} (h : Kept s t) (x : Vector ReportSlot 16) :
    Kept { s with reports := x } { t with reports := x } :=
  { pending := h.pending, mode := h.mode, clockCount := h.clockCount, windows := h.windows, latch := h.latch
    readData := h.readData, mem := h.mem, reports := rfl, timing := h.timing, enable := h.enable
    guardCapture := h.guardCapture, health := h.health, picks := h.picks, layouts := h.layouts, config := h.config
    history := h.history, notices := h.notices }

/-- A take of an order, of any kind, changes nothing that no order changes (R137, R141). -/
theorem State.takeOrder_orderKept (s : State) (kind : Option OrderKind) (k : SlotIx) (w : Word) :
    OrderKept s (s.takeOrder (carryOrder kind) k w) := by
  have h1 : Kept s ((s.mergeTag k w).updateOrder k fun o => { o with lastTag := tagOf w }) :=
    (State.updateOrder_kept _ _ _).after (s.updateOrder_kept _ _)
  unfold State.takeOrder
  dsimp only
  split
  · exact ((State.notify_steady _ _).toKept.after ((State.notify_steady _ _).toKept.after
      ((State.updateOrder_kept _ _ _).after h1))).orderKept
  · split
    · exact ((State.refuse_kept _ _ _).after ((State.updateOrder_kept _ _ _).after h1)).orderKept
    · exact (State.announce_steady _ _).toKept.orderKept.after
        ((carryOrder_orderKept _ _ _ _).after ((State.updateOrder_kept _ _ _).after h1).orderKept)

theorem State.judge_kept (s : State) (kind : Option ReportKind) (j : ReportIx) :
    Kept s (s.judge (carryReport kind) j).1 := by
  unfold State.judge
  split
  · exact Kept.refl s
  · exact carryReport_kept kind _ s

theorem State.noteRejection_steady (s : State) (x : Acceptance) : Steady s (s.noteRejection x) := by
  unfold State.noteRejection
  split
  · exact s.notify_steady _
  all_goals exact Steady.refl s

/-- A take of a report, of any kind, changes the report slots and, beside them, nothing that no rail block changes
(R96). -/
theorem State.takeReport_kept (s : State) (kind : Option ReportKind) (j : ReportIx) (w : Word) :
    Kept { s with reports := (s.takeReport (carryReport kind) j w).reports } (s.takeReport (carryReport kind) j w) := by
  unfold State.takeReport
  dsimp only
  generalize hs : (s.mergeReportTag j w).updateReport j (fun r => { r with lastTag := tagOf w }) = s1
  have hv := (s1.judge_kept kind j)
  generalize s1.judge (carryReport kind) j = v at hv
  have ha := s.announce_steady ((v.1.updateReport j fun r => { r with acceptance := v.2, judgedTag := tagOf w }).noteRejection v.2)
  have hn := State.noteRejection_steady (v.1.updateReport j fun r => { r with acceptance := v.2, judgedTag := tagOf w }) v.2
  have hr : (s.announce ((v.1.updateReport j fun r =>
      { r with acceptance := v.2, judgedTag := tagOf w }).noteRejection v.2)).reports
      = (v.1.updateReport j fun r => { r with acceptance := v.2, judgedTag := tagOf w }).reports :=
    ha.reports.trans hn.reports
  rw [hr]
  refine (ha.toKept.after hn.toKept).after ?_
  have h2 := hv.withReports (v.1.updateReport j fun r => { r with acceptance := v.2, judgedTag := tagOf w }).reports
  subst hs
  exact h2

/-! ### Writes -/

/-- What a written word leaves in memory: the enabled lanes of its word where the judgement lets it pass (R151, R155). -/
theorem State.busWrite_mem (s : State) (w : WriteWord) :
    (s.busWrite w).mem = match s.writeCase w with
      | .suppressed => s.mem
      | .denied => s.mem
      | .partialTag => s.mem
      | .passes => memWrite s.mem (effAddr w.master w.addr) w.lanes w.data
      | .mergeOrder _ _ => memWrite s.mem (effAddr w.master w.addr) w.lanes w.data
      | .mergeReport _ _ => memWrite s.mem (effAddr w.master w.addr) w.lanes w.data
      | .orderTag _ => memWrite s.mem (effAddr w.master w.addr) w.lanes w.data
      | .reportTag _ => memWrite s.mem (effAddr w.master w.addr) w.lanes w.data := by
  unfold State.busWrite
  split <;> rename_i heq <;> rw [heq] <;> try rfl
  · unfold State.orderTagWrite
    split
    · exact (State.takeOrder_orderKept _ _ _ _).mem
    · rfl
  · unfold State.reportTagWrite
    split
    · exact (State.takeReport_kept _ _ _ _).mem
    · rfl

/-- A write reads as nothing else to the bus side: the windows, the latch, the readout word and the waiting commands
stay. -/
theorem State.busWrite_windows (s : State) (w : WriteWord) : (s.busWrite w).windows = s.windows := by
  unfold State.busWrite
  split <;> try rfl
  · unfold State.orderTagWrite
    split
    · exact (State.takeOrder_orderKept _ _ _ _).windows
    · rfl
  · unfold State.reportTagWrite
    split
    · exact (State.takeReport_kept _ _ _ _).windows
    · rfl

/-- A take that a row names is the take its shadow names (assumption 1). -/
theorem State.orderTaken_some {s : State} {kind : Option OrderKind} {addr : WordAddr} {tag : Word} {k : SlotIx}
    (h : s.orderTaken kind addr tag = some k) :
    s.writeCase (wholeWrite .planner addr tag) = .orderTag k ∧ takes tag s.orders[k].lastTag = true
      ∧ s.kindOf k = kind := by
  unfold State.orderTaken at h
  split at h <;> simp only [Option.ite_none_right_eq_some, Option.some.injEq, Bool.and_eq_true, decide_eq_true_eq,
    reduceCtorEq] at h
  obtain ⟨⟨h1, h2⟩, rfl⟩ := h
  exact ⟨by assumption, h1, h2⟩

/-- The same for reports. -/
theorem State.reportTaken_some {s : State} {kind : Option ReportKind} {addr : WordAddr} {tag : Word} {j : ReportIx}
    (h : s.reportTaken kind addr tag = some j) :
    s.writeCase (wholeWrite .field addr tag) = .reportTag j ∧ takes tag s.reports[j].lastTag = true
      ∧ s.reportKindOf j = kind := by
  unfold State.reportTaken at h
  split at h <;> simp only [Option.ite_none_right_eq_some, Option.some.injEq, Bool.and_eq_true, decide_eq_true_eq,
    reduceCtorEq] at h
  obtain ⟨⟨h1, h2⟩, rfl⟩ := h
  exact ⟨by assumption, h1, h2⟩

/-- A row that hands in an order is its write (assumption 1). -/
theorem State.orderRow_eq_busWrite (s : State) (kind : Option OrderKind) (addr : WordAddr) (tag : Word) :
    s.orderRow kind (carryOrder kind) addr tag = s.busWrite (wholeWrite .planner addr tag) := by
  unfold State.orderRow
  split
  · rename_i k h
    obtain ⟨h1, h2, h3⟩ := State.orderTaken_some h
    unfold State.busWrite
    rw [h1]
    show _ = (s.storeWord (wholeWrite .planner addr tag)).orderTagWrite (carryOrder (s.kindOf k)) k tag
    unfold State.orderTagWrite
    rw [if_pos (show takes tag (s.storeWord (wholeWrite .planner addr tag)).orders[k].lastTag = true from h2), h3]
  · rfl

/-- A row that hands in a report is its write (assumption 1). -/
theorem State.reportRow_eq_busWrite (s : State) (kind : Option ReportKind) (addr : WordAddr) (tag : Word) :
    s.reportRow kind (carryReport kind) addr tag = s.busWrite (wholeWrite .field addr tag) := by
  unfold State.reportRow
  split
  · rename_i k h
    obtain ⟨h1, h2, h3⟩ := State.reportTaken_some h
    unfold State.busWrite
    rw [h1]
    show _ = (s.storeWord (wholeWrite .field addr tag)).reportTagWrite (carryReport (s.reportKindOf k)) k tag
    unfold State.reportTagWrite
    rw [if_pos (show takes tag (s.storeWord (wholeWrite .field addr tag)).reports[k].lastTag = true from h2), h3]
  · rfl

/-! ### Reads -/

/-- A read changes the latch, the readout word, the notices and the two captures, and nothing else. -/
structure ReadOnly (s t : State) : Prop where
  only : t = { s with
    latch := t.latch, readData := t.readData, notices := t.notices, guardCapture := t.guardCapture
    gridlock := t.gridlock }

theorem ReadOnly.refl (s : State) : ReadOnly s s := ⟨rfl⟩

theorem ReadOnly.trans {s t u : State} (h : ReadOnly s t) (k : ReadOnly t u) : ReadOnly s u := by
  constructor
  have h1 := h.only
  have h2 := k.only
  rw [h1] at h2
  exact h2

theorem State.snapHeader_readOnly (s : State) (ws : Windows) (r : ReadWord) : ReadOnly s (s.snapHeader ws r) := by
  unfold State.snapHeader State.clearRead
  split
  · exact ReadOnly.refl s
  · split <;> exact ⟨rfl⟩

theorem State.snapOrder_readOnly (s : State) (k : SlotIx) : ReadOnly s (s.snapOrder k) := by
  unfold State.snapOrder
  split <;> exact ⟨rfl⟩

theorem State.snapReport_readOnly (s : State) (j : ReportIx) : ReadOnly s (s.snapReport j) := by
  unfold State.snapReport
  split <;> exact ⟨rfl⟩

theorem State.serveRead_readOnly (s : State) (r : ReadWord) : ReadOnly s (s.serveRead r) := by
  unfold State.serveRead
  split
  · exact ⟨rfl⟩
  · split
    · exact ⟨rfl⟩
    · unfold State.readRegion
      split
      · exact ⟨rfl⟩
      · exact (s.snapHeader_readOnly _ _).trans ⟨rfl⟩
      · exact (s.snapOrder_readOnly _).trans ⟨rfl⟩
      · exact ⟨rfl⟩
      · exact (s.snapReport_readOnly _).trans ⟨rfl⟩

/-- A read word of any kind (R151, R157). -/
theorem State.readWord_readOnly (s : State) (r : ReadWord) : ReadOnly s (s.readWord r) := by
  unfold State.readWord
  dsimp only
  have h0 : ReadOnly s (if r.index = 0 then s.emptyLatch else s) := by split <;> exact ⟨rfl⟩
  have h1 := h0.trans (State.serveRead_readOnly _ r)
  split
  · exact h1.trans ⟨rfl⟩
  · exact h1

end Sys2Proof.Machine
end

