-- ==== Sys2Proof/Laws/Rail.lean ====
section
/-!
SUPPORT. Facts about the tables: look-ups after a change of one move or of listed segments, the extension stack's sums,
the priority order, the extent of a visit, and what a stop and a stall make of the move they name.
-/

namespace Sys2Proof.Machine

/-! ### Look-ups after a change -/

theorem find_slot_map (ms : List Move) (j k : SlotIx) (u : Move → Move) (hu : ∀ m, (u m).slot = m.slot) :
    (ms.map fun m => if m.slot = k then u m else m).find? (fun m => m.slot == j)
      = (ms.find? fun m => m.slot == j).map fun m => if j = k then u m else m := by
  induction ms with
  | nil => rfl
  | cons m rest ih =>
    have hs : (if m.slot = k then u m else m).slot = m.slot := by split <;> simp [hu]
    simp only [List.map_cons, List.find?_cons, hs]
    by_cases h : m.slot = j
    · subst h; simp
    · have : (m.slot == j) = false := by simpa using h
      rw [this]; exact ih

/-- The move of a slot after a change of one move. -/
theorem State.move?_updateMove (s : State) (j k : SlotIx) (u : Move → Move) (hu : ∀ m, (u m).slot = m.slot) :
    (s.updateMove k u).move? j = (s.move? j).map fun m => if j = k then u m else m :=
  find_slot_map s.moves j k u hu

/-- The record of a segment after a change of listed segments. -/
theorem State.seg?_updateSegs (s : State) (ids : List Nat) (u : Segment → Segment) (g : Nat)
    (hu : ∀ r, (u r).id = r.id) :
    (s.updateSegs ids u).seg? g = (s.seg? g).map fun r => if g ∈ ids then u r else r := by
  unfold State.seg? State.updateSegs
  dsimp only
  induction s.segs with
  | nil => rfl
  | cons r rest ih =>
    have hs : (if r.id ∈ ids then u r else r).id = r.id := by split <;> simp [hu]
    simp only [List.map_cons, List.find?_cons, hs]
    by_cases h : r.id = g
    · subst h; simp
    · have : (r.id == g) = false := by simpa using h
      rw [this]; exact ih

/-- A found move bears the slot it was looked up by, and stands in the table. -/
theorem State.move?_some {s : State} {k : SlotIx} {m : Move} (h : s.move? k = some m) : m.slot = k ∧ m ∈ s.moves :=
  ⟨by simpa using List.find?_some h, List.mem_of_find?_eq_some h⟩

/-- A found bench's move bears the bench, and stands in the table. -/
theorem State.moveOfBench_some {s : State} {b : Nat} {m : Move} (h : s.moveOfBench b = some m) :
    m.bench = b ∧ m ∈ s.moves ∧ b ≠ 0 := by
  unfold State.moveOfBench at h
  split at h
  · cases h
  · exact ⟨by simpa using List.find?_some h, List.mem_of_find?_eq_some h, by assumption⟩

/-- A found record bears the ID it was looked up by, and stands in the table. -/
theorem State.seg?_some {s : State} {g : Nat} {r : Segment} (h : s.seg? g = some r) : r.id = g ∧ r ∈ s.segs :=
  ⟨by simpa using List.find?_some h, List.mem_of_find?_eq_some h⟩

/-- With one move to a slot, a move of the table is the one its slot finds. -/
theorem State.move?_of_mem {s : State} {m : Move} (h : (s.moves.map (·.slot)).Nodup) (hm : m ∈ s.moves) :
    s.move? m.slot = some m := by
  unfold State.move?
  revert h hm
  induction s.moves with
  | nil => intro _ hm; cases hm
  | cons x rest ih =>
    intro h hm
    rw [List.map_cons, List.nodup_cons] at h
    rw [List.find?_cons]
    rcases List.mem_cons.1 hm with rfl | hm
    · simp
    · have : x.slot ≠ m.slot := fun e => h.1 (e ▸ List.mem_map_of_mem hm)
      have hb : (x.slot == m.slot) = false := by simpa using this
      rw [hb]
      exact ih h.2 hm

/-- With one record to an ID, a record of the table is the one its ID finds. -/
theorem State.seg?_of_mem {s : State} {r : Segment} (h : s.SegLaw) (hr : r ∈ s.segs) : s.seg? r.id = some r := by
  unfold State.seg?
  have ids := h.1
  revert hr ids
  induction s.segs with
  | nil => intro hm _; cases hm
  | cons x rest ih =>
    intro hm h
    rw [List.map_cons, List.nodup_cons] at h
    rw [List.find?_cons]
    rcases List.mem_cons.1 hm with rfl | hm
    · simp
    · have : x.id ≠ r.id := fun e => h.1 (e ▸ List.mem_map_of_mem hm)
      have hb : (x.id == r.id) = false := by simpa using this
      rw [hb]
      exact ih hm h.2

/-! ### The extension stack (R49 to R52) -/

theorem mergeBottom_sum (l : List Nat) : (mergeBottom l).sum = l.sum := by
  fun_induction mergeBottom l <;> simp_all

theorem mergeBottom_length (l : List Nat) : (mergeBottom l).length = if l.length ≤ 1 then l.length else l.length - 1 := by
  fun_induction mergeBottom l with
  | case1 => rfl
  | case2 => rfl
  | case3 => rfl
  | case4 a b c rest ih =>
    rw [List.length_cons, ih]
    simp

theorem mergeBottom_pos (l : List Nat) (h : ∀ n ∈ l, 1 ≤ n) : ∀ n ∈ mergeBottom l, 1 ≤ n := by
  fun_induction mergeBottom l with
  | case1 => simp
  | case2 a => exact h
  | case3 a b =>
    intro n hn
    have := h a (by simp)
    rw [List.mem_singleton.1 hn]; omega
  | case4 a b c rest ih =>
    intro n hn
    rcases List.mem_cons.1 hn with rfl | hn
    · exact h _ (by simp)
    · exact ih (fun x hx => h x (List.mem_cons_of_mem _ hx)) n hn

/-- A push adds its count (R45, R50). -/
theorem pushEntry_sum (n : Nat) (l : List Nat) : (pushEntry n l).sum = n + l.sum := by
  unfold pushEntry
  split <;> simp [mergeBottom_sum]

/-- A push keeps the stack at 1 to 8 entries (R49, R50). -/
theorem pushEntry_length (n : Nat) (l : List Nat) (h : l.length ≤ 8) :
    1 ≤ (pushEntry n l).length ∧ (pushEntry n l).length ≤ 8 := by
  unfold pushEntry Config.stackSize
  split
  · simp; omega
  · simp only [List.length_cons, mergeBottom_length]
    split <;> omega

theorem pushEntry_pos (n : Nat) (l : List Nat) (hn : 1 ≤ n) (h : ∀ x ∈ l, 1 ≤ x) : ∀ x ∈ pushEntry n l, 1 ≤ x := by
  unfold pushEntry
  intro x hx
  split at hx <;> rcases List.mem_cons.1 hx with rfl | hx
  · exact hn
  · exact h x hx
  · exact hn
  · exact mergeBottom_pos l h x hx

/-- A pushed entry that grows is a push of the greater count (R45). -/
theorem addTop_pushEntry (n k : Nat) (l : List Nat) : addTop n (pushEntry k l) = pushEntry (k + n) l := by
  unfold pushEntry
  split <;> rfl

/-- Counts added to the top entry add up. -/
theorem addTop_addTop (n k : Nat) (l : List Nat) : addTop n (addTop k l) = addTop (k + n) l := by
  cases l with
  | nil => rfl
  | cons a rest => simp [addTop, Nat.add_assoc]

/-- A grant within a visit adds its count (R45). -/
theorem addTop_sum (n : Nat) (l : List Nat) (hl : l ≠ []) : (addTop n l).sum = l.sum + n := by
  cases l with
  | nil => exact absurd rfl hl
  | cons a rest => simp only [addTop, List.sum_cons]; omega

theorem addTop_length (n : Nat) (l : List Nat) : (addTop n l).length = l.length := by
  cases l <;> rfl

theorem addTop_pos (n : Nat) (l : List Nat) (h : ∀ x ∈ l, 1 ≤ x) : ∀ x ∈ addTop n l, 1 ≤ x := by
  cases l with
  | nil => exact h
  | cons a rest =>
    intro x hx
    rcases List.mem_cons.1 hx with rfl | hx
    · have := h a (by simp)
      omega
    · exact h x (List.mem_cons_of_mem _ hx)

/-- A tail release takes one segment off (R51). -/
theorem dropBottom_sum (l : List Nat) (h : ∀ n ∈ l, 1 ≤ n) (hl : l ≠ []) : (dropBottom l).sum + 1 = l.sum := by
  fun_induction dropBottom l with
  | case1 => exact absurd rfl hl
  | case2 a ha => have := h a (by simp); simp; omega
  | case3 a ha => simp; omega
  | case4 a b rest ih =>
    have := ih (fun x hx => h x (List.mem_cons_of_mem _ hx)) (by simp)
    simp only [List.sum_cons] at this ⊢
    omega

/-- A restore leaves the count of positions t to f (R52). -/
theorem popTo_sum (f : Nat) : ∀ (h : Nat) (l : List Nat), f ≤ h → h ≤ f + l.sum → (popTo f h l).sum + h = l.sum + f
  | h, [] => by intro h1 h2; simp [popTo] at *; omega
  | h, c :: rest => by
    intro h1 h2
    unfold popTo
    simp only [List.sum_cons] at h2 ⊢
    split
    · have := popTo_sum f (h - c) rest (by omega) (by omega)
      omega
    · simp only [List.sum_cons]; omega

/-- A restored move has its horizon at its front, and keeps the rest (R52). -/
theorem Move.restored_h (m : Move) : m.restored.h = m.f ∧ m.restored.f = m.f ∧ m.restored.t = m.t := by
  unfold Move.restored
  split
  · next h => exact ⟨h, rfl, rfl⟩
  · exact ⟨rfl, rfl, rfl⟩

/-! ### Priority (R42) -/

theorem insertByPriority_perm (m : Move) (l : List Move) : (insertByPriority m l).Perm (m :: l) := by
  induction l with
  | nil => exact List.Perm.refl _
  | cons x rest ih =>
    unfold insertByPriority
    split
    · exact (ih.cons x).trans (List.Perm.swap m x rest)
    · exact List.Perm.refl _

theorem byPriority_perm (l : List Move) : (byPriority l).Perm l := by
  induction l with
  | nil => exact List.Perm.refl _
  | cons m rest ih => exact (insertByPriority_perm m _).trans (ih.cons m)

theorem Move.before_iff (a b : Move) :
    a.before b = true ↔ a.cls.rank < b.cls.rank ∨ (a.cls.rank = b.cls.rank ∧ a.admission < b.admission) := by
  simp [Move.before]

/-! ### The requests of a visit (R44, R45, R55) -/

/-- The rest of a visit that is over changes nothing. -/
theorem State.finishVisit_over (s : State) (fuel : Nat) (h : s.midVisit = false) : State.finishVisit fuel s = s := by
  cases fuel with
  | zero => rfl
  | succ n => simp [State.finishVisit, h]

/-- The rest of a visit under way goes on with its next request. -/
theorem State.finishVisit_next (s : State) (fuel : Nat) (h : s.midVisit = true) :
    State.finishVisit (fuel + 1) s = State.finishVisit fuel s.request := by
  simp [State.finishVisit, h]

/-- A property of a state that every request keeps holds after the rest of a visit. -/
theorem State.finishVisit_keeps {P : State → Prop} (h : ∀ s, P s → P s.request) (fuel : Nat) (s : State) (hs : P s) :
    P (State.finishVisit fuel s) := by
  induction fuel generalizing s with
  | zero => exact hs
  | succ n ih =>
    unfold State.finishVisit
    split
    · exact ih _ (h s hs)
    · exact hs

/-- What a grant leaves of the indices of the move: the horizon alone is one further (R44, R45). -/
theorem Move.extended_indices (m : Move) : m.extended.t = m.t ∧ m.extended.f = m.f ∧ m.extended.h = m.h + 1
    ∧ m.extended.route = m.route ∧ m.extended.state = m.state := ⟨rfl, rfl, rfl, rfl, rfl⟩

/-! ### Lists checked for repeats -/

theorem noRepeats_iff_nodup (l : List Nat) : noRepeats l = true ↔ l.Nodup := by
  induction l with
  | nil => simp [noRepeats]
  | cons a rest ih => simp [noRepeats, ih]

/-! ### What a stop and a stall make of the move they name -/

theorem State.leaveList_oneLane (s : State) (l : LaneIx) (k : SlotIx) : OneLane l s (s.leaveList l k) := by
  unfold State.leaveList
  dsimp only
  split
  · exact ((State.updateLane_oneLane _ _ _).trans (State.updateLane_oneLane _ _ _)).trans (State.advanceLane_oneLane _ _)
  · exact State.updateLane_oneLane _ _ _

theorem State.withdrawGrant_oneLane (s : State) (l : LaneIx) : OneLane l s (s.withdrawGrant l) :=
  (State.updateLane_oneLane _ _ _).trans (State.advanceLane_oneLane _ _)

theorem OneLane.moves {l : LaneIx} {s t : State} (h : OneLane l s t) : t.moves = s.moves := by rw [h.only]

theorem OneLane.segs {l : LaneIx} {s t : State} (h : OneLane l s t) : t.segs = s.segs := by rw [h.only]

/-- Leaving a lane changes no segment, and of the moves only the lane reference of the one that leaves (R35, R77). -/
theorem State.leaveLane_moves (s : State) (k : SlotIx) :
    (s.leaveLane k).segs = s.segs
      ∧ ((s.leaveLane k).moves = s.moves
        ∨ (s.leaveLane k).moves = (s.updateMove k fun m => { m with lane := none }).moves) := by
  unfold State.leaveLane
  split
  · exact ⟨rfl, .inl rfl⟩
  · split
    · exact ⟨rfl, .inl rfl⟩
    · dsimp only
      split
      · have h := State.withdrawGrant_oneLane (s.updateMove k fun m => { m with lane := none })
        exact ⟨(h _).segs, .inr (h _).moves⟩
      · have h := State.leaveList_oneLane (s.updateMove k fun m => { m with lane := none })
        exact ⟨(h _ _).segs, .inr (h _ _).moves⟩

/-- The move itself after the lane business: the same but for its lane reference. -/
theorem State.leaveLane_move (s : State) (k : SlotIx) (m : Move) (h : s.move? k = some m) :
    ∃ x, (s.leaveLane k).move? k = some { m with lane := x } := by
  rcases (s.leaveLane_moves k).2 with e | e
  · exact ⟨m.lane, by unfold State.move? at h ⊢; rw [e, h]⟩
  · refine ⟨none, ?_⟩
    have h2 := s.move?_updateMove k k (fun m => { m with lane := none }) fun _ => rfl
    unfold State.move? at h2 h ⊢
    rw [e, h2, h]
    simp

theorem State.restore_move (s : State) (k : SlotIx) (m : Move) (h : s.move? k = some m) :
    (s.restore k).move? k = some m.restored := by
  unfold State.restore
  rw [h]
  dsimp only
  rw [State.move?_updateMove _ _ _ _ fun m => congrArg Prod.fst m.restored_fixed.1]
  show Option.map _ (s.move? k) = _
  rw [h]
  simp

/-- The move that enters STOPPING (R35): restored, with its reason, its yield mark and back-off gone, its silence
started; the lane reference alone depends on the lane. -/
theorem State.enterStopping_move (s : State) (k : SlotIx) (r : EndReason) (m : Move) (h : s.move? k = some m)
    (hs : m.state ≠ .stopping) :
    ∃ x, (s.enterStopping k r).move? k = some
      { m.restored with
        state := .stopping, endReason := some r, yield := .clear, extending := false, backoff := .stopped
        silence := s.startTimer s.silenceFull, lane := x } := by
  unfold State.enterStopping
  rw [h]
  dsimp only
  rw [if_neg hs]
  have h1 := s.restore_move k m h
  refine State.leaveLane_move _ _ { m.restored with
        state := .stopping, endReason := some r, yield := .clear, extending := false, backoff := .stopped
        silence := s.startTimer s.silenceFull } ?_
  rw [State.move?_updateMove]
  · rw [h1]; simp
  · exact fun _ => rfl

/-- A move already STOPPING is left by a further cause (R35). -/
theorem State.enterStopping_again (s : State) (k : SlotIx) (r : EndReason) (m : Move) (h : s.move? k = some m)
    (hs : m.state = .stopping) : s.enterStopping k r = s := by
  unfold State.enterStopping
  rw [h]
  dsimp only
  rw [if_pos hs]

/-- The move a STALLED report holds (R120, R121). -/
theorem State.stallMove_move (s : State) (k : SlotIx) (m : Move) (h : s.move? k = some m) :
    ∃ x, (s.stallMove k).move? k = some
      { m.restored with
        state := .stalled, yield := .clear, extending := false, silence := .stopped
        backoff := s.startTimer s.backoffFull, lane := x } := by
  have h1 := s.restore_move k m h
  refine State.leaveLane_move _ _ { m.restored with
        state := .stalled, yield := .clear, extending := false, silence := .stopped
        backoff := s.startTimer s.backoffFull } ?_
  rw [State.move?_updateMove]
  · rw [h1]; simp
  · exact fun _ => rfl

/-! ### The start of a round (R67, R68) -/

/-- What a round start makes of its lane. -/
theorem State.startRound_lane (s : State) (l : LaneIx) :
    (s.startRound l).lanes[l] = match s.lanes[l].nextBerth 0 with
      | some k => { s.lanes[l] with
          crossed := false, runCounter := 0, state := .offering, berth := k, offered := true
          offerTimer := s.startTimer (s.offerFull l) }
      | none => { s.lanes[l] with
          offered := false, crossed := false, runCounter := 0, state := .quiet, berth := s.emptyRoundBerth l } := by
  unfold State.startRound
  split <;> rename_i heq <;> rw [heq]
  · simp [State.clearRound, State.enterOffering, State.startTimer, State.offerFull]
    rfl
  · simp [State.clearRound, State.enterQuiet]

end Sys2Proof.Machine
end

