-- ==== Sys2Proof/Tests/Slice0.lean ====
section
/-!
SUPPORT. The model's own tests: ill-formed commands the check refuses; for every statement, states and operands that
meet its hypotheses, clause by clause; and single steps of the records and sequences the spec writes out.
-/

open Sys2Proof Sys2Proof.Machine

namespace Sys2Proof.Tests

set_option maxRecDepth 8000
set_option synthInstance.maxSize 4000

/-! ### A small rail -/

/-- The windows of the tests: the Order Ring at 0x0C000, the Report Ring at 0x0D000, and a guard over 0x30000. -/
def windows : Windows := ⟨⟨0x0C000, 0x1FF⟩, ⟨0x0D000, 0x3F⟩, [⟨⟨0x30000, 0xFFF⟩, false, false, true, false⟩]⟩

/-- A surveyed segment with nothing on it. -/
def seg (id : Nat) (kind : SegKind) (links : List Nat) : Segment := ⟨id, kind, links, true, none, none, none⟩

/-- An aisle 1, 2, 3 and lane 0: berths 20 and 21 beside its one cell 30; the part is RUNNING. -/
def rail : State :=
  { State.reset with
    mode := .running
    windows := some windows
    health := some ⟨.ok, .ok, .ok, 0, 7⟩
    enable := 0xFFFF
    notices := 1
    segs := [seg 1 .plain [2], seg 2 .plain [1, 3], seg 3 .plain [2, 20], seg 20 (.berth 0 0) [3, 30],
      seg 30 (.laneCell 0 0) [20, 21], seg 21 (.berth 0 1) [30]]
    lanes := State.reset.lanes.set 0 (.fresh (some ⟨[30], [20, 21]⟩)) }

/-- The same rail in HALTED mode. -/
def halted : State := { rail with mode := .halted }

/-- A part in BLOCKING mode whose windows are established. -/
def blocking : State := { State.reset with mode := .blocking, windows := some windows }

/-- A live move of bench b in slot k, with its indices and state. -/
def mv (k : SlotIx) (b : Nat) (route : List Nat) (t f h : Nat) (st : MoveState) : Move where
  slot := k
  tag := 1
  bench := b
  cls := .restock
  admission := k.val
  retries := 1
  route := route
  t := t
  f := f
  h := h
  stack := [h + 1 - t]
  state := st
  token := false
  gridlocked := false
  shed := false
  yield := .clear
  extending := false
  lane := none
  endReason := none
  silence := if f < h ∨ st = .stopping then .running 20000 else .stopped
  backoff := if st = .stalled then .running 10000 else .stopped

/-- The state with a move in the Move Table, its run held and its bench recorded. -/
def put (s : State) (m : Move) : State :=
  (({ s with moves := s.moves ++ [m], admissionCounter := 40 }).hold m.slot (m.span m.t m.h)).updateSegs (m.span m.t m.f)
    fun g => { g with occupant := some (.bench m.bench) }

/-- The state with a bench recorded on a segment. -/
def stand (s : State) (g b : Nat) : State := s.updateSegs [g] fun r => { r with occupant := some (.bench b) }

/-- Four bytes of a word. -/
def pack (a b c d : Nat) : Word := BitVec.ofNat 32 (a + b * 2 ^ 8 + c * 2 ^ 16 + d * 2 ^ 24)

/-- The shadow of an order slot with these fields. -/
def orderWords (kind cls retries bench : Nat) (ids : List Nat) (w4 : Nat) : Vector Word 8 :=
  #v[BitVec.ofNat 32 (kind + cls * 2 ^ 8 + retries * 2 ^ 12 + bench * 2 ^ 16),
    pack ids.length (ids.getD 0 0) (ids.getD 1 0) (ids.getD 2 0),
    pack (ids.getD 3 0) (ids.getD 4 0) (ids.getD 5 0) (ids.getD 6 0),
    pack (ids.getD 7 0) (ids.getD 8 0) (ids.getD 9 0) (ids.getD 10 0), BitVec.ofNat 32 w4, 0, 0, 0]

/-- The state with an order record in slot k. -/
def order (s : State) (k : SlotIx) (kind cls retries bench : Nat) (ids : List Nat) (w4 : Nat) : State :=
  s.updateOrder k fun o => { o with shadow := orderWords kind cls retries bench ids w4 }

/-- The state with a report record in slot j. -/
def report (s : State) (j : ReportIx) (kind bench segment : Nat) : State :=
  s.updateReport j fun r =>
    { r with shadow := #v[BitVec.ofNat 32 (kind + bench * 2 ^ 16), BitVec.ofNat 32 segment, 0, 0] }

/-- The address of word w of order slot k. -/
def oAddr (k w : Nat) : WordAddr := BitVec.ofNat 22 (0x0C008 + 8 * k + w)

/-- The address of word w of report slot j. -/
def rAddr (j w : Nat) : WordAddr := BitVec.ofNat 22 (0x0D000 + 4 * j + w)

/-- Lane 0 with a change. -/
def lane0 (s : State) (u : Lane → Lane) : State := s.updateLane 0 u

/-! ### Well-formedness -/

theorem test_wf_partial_tag_with_all_lanes : Instr.wf (.partialTagWrite ⟨.planner, oAddr 0 7, 0xF, 9⟩) = false := by
  decide

theorem test_wf_read_index_outside_burst : Instr.wf (.noticeWordRead ⟨.planner, 0x0C000, .four, 4⟩) = false := by decide

theorem test_wf_burst_past_the_end : Instr.wf (.deniedRead ⟨.planner, 0x3FFFFC, .eight, 0⟩) = false := by decide

theorem test_wf_guard_read_index : Instr.wf (.guardCaptureRead ⟨.planner, 0x0C000, .one, 1⟩) = false := by decide

theorem test_wf_gridlock_read_index : Instr.wf (.gridlockCaptureRead ⟨.field, 0x0C000, .two, 2⟩) = false := by decide

theorem test_wf_overlong_image : Instr.wf (.imageLoadEnd (List.replicate 485 0)) = false := by decide

theorem test_wf_longest_image : Instr.wf (.imageLoadEnd (List.replicate 484 0)) = true := by decide

theorem test_wf_last_burst : Instr.wf (.noticeWordRead ⟨.planner, 0x3FFFF8, .eight, 7⟩) = true := by decide

/-! ### Witnesses: the step, writes and reads -/

theorem test_hyp_own_step : rail.pending = [] ∧ rail.dueSteps = []
    ∧ ({ rail with arbiter := ⟨none, none, false, true⟩ } : State).dueSteps = [.command .extensionPass]
    ∧ ({ rail with arbiter := ⟨some [4], none, false, false⟩ } : State).dueSteps = [.request]
    ∧ ({ rail with crossingAsks := #v[true, false, false, false] } : State).dueSteps = [.rest 0] := by decide

theorem test_hyp_interrupt_line : State.reset.StartingLaw ∧ State.reset.mode = .starting := by decide

theorem test_hyp_rows : Instr.write? (.move (oAddr 3 7) 9) = some ⟨.planner, oAddr 3 7, 0xF, 9⟩
    ∧ Instr.write? (.empty (rAddr 15 3) 9) = some ⟨.field, rAddr 15 3, 0xF, 9⟩ := by decide

theorem test_hyp_plain_write : State.reset.windows = none ∧ windows.denies .planner .write 0x0E000 = false
    ∧ windows.region 0x0E000 = .outside ∧ windows.denies .planner .write 0x0C108 = false
    ∧ windows.region 0x0C108 = .orderPlain ∧ windows.region 0x0C1FF = .orderPlain
    ∧ windows.region 0x0C107 = .orderWord 31 7 ∧ windows.region 0x0C200 = .outside := by decide

theorem test_hyp_stored_lanes : Memory.wf [(4, 1), (6, 2)] = true ∧ (3 : Nat) < 4 := by decide

theorem test_hyp_ring_writes : rail.windows = some windows
    ∧ (∀ w : Fin 8, windows.denies .planner .write (oAddr 0 w) = false ∧ windows.region (oAddr 0 w) = .orderWord 0 w
        ∧ windows.region (oAddr 31 w) = .orderWord 31 w
        ∧ windows.region (BitVec.ofNat 22 (0x0C000 + w.val)) = .header w)
    ∧ (∀ w : Fin 4, windows.denies .field .write (rAddr 0 w) = false ∧ windows.region (rAddr 0 w) = .reportWord 0 w
        ∧ windows.region (rAddr 15 w) = .reportWord 15 w)
    ∧ effAddr .field (rAddr 15 3) = rAddr 15 3 ∧ (0x7 : Lanes) ≠ allLanes
    ∧ rail.partOwned (oAddr 31 6) = true ∧ rail.partOwned (rAddr 15 2) = true ∧ rail.partOwned 0x0C007 = true
    ∧ rail.partOwned (oAddr 31 7) = false := by decide

theorem test_hyp_merging_writes : rail.writeCase ⟨.planner, oAddr 31 4, 0x3, 5⟩ = .mergeOrder 31 4
    ∧ rail.writeCase ⟨.planner, oAddr 0 0, 0xF, 5⟩ = .mergeOrder 0 0
    ∧ rail.writeCase ⟨.field, rAddr 15 1, 0x1, 5⟩ = .mergeReport 15 1
    ∧ rail.writeCase ⟨.planner, oAddr 2 7, 0xF, 0x100⟩ = .orderTag 2 ∧ tagOf 0x100 = 0
    ∧ tagOf 0x100 = rail.orders[2].lastTag ∧ rail.writeCase ⟨.field, rAddr 2 3, 0xF, 0⟩ = .reportTag 2 := by decide

theorem test_hyp_partial_tag : windows.denies .planner .write (oAddr 7 7) = false
    ∧ windows.region (oAddr 7 7) = .orderWord 7 7 ∧ (0xE : Lanes) ≠ allLanes := by decide

theorem test_hyp_memory_frame : ∃ t, exec (.busWrite ⟨.planner, 0x00010, 0xF, 7⟩) rail = .next t
    ∧ ∀ w, Instr.write? (.busWrite ⟨.planner, 0x00010, 0xF, 7⟩) = some w → effAddr w.master w.addr ≠ 0x00011 :=
  ⟨_, rfl, by intro w h; cases h; decide⟩

theorem test_hyp_denied_words : rail.writeCase ⟨.field, oAddr 3 7, 0x1, 5⟩ = .denied
    ∧ rail.writeCase ⟨.planner, rAddr 3 3, 0x1, 5⟩ = .denied ∧ rail.writeCase ⟨.planner, 0x30FFF, 0xF, 5⟩ = .denied
    ∧ rail.guardCapture.count = 0 ∧ windows.denies .planner .read (readAddr ⟨.planner, 0x30000, .one, 0⟩) = true
    ∧ windows.denies .field .read (readAddr ⟨.field, 0x30000, .one, 0⟩) = false := by decide

theorem test_hyp_single_header_reads :
    windows.denies .planner .read (readAddr ⟨.planner, 0x0C000, .one, 0⟩) = false
    ∧ windows.region (readAddr ⟨.planner, 0x0C000, .one, 0⟩) = .header 0
    ∧ windows.region (readAddr ⟨.field, 0x0C004, .one, 0⟩) = .header 4
    ∧ windows.region (readAddr ⟨.planner, 0x0C005, .one, 0⟩) = .header 5 := by decide

theorem test_hyp_header_burst :
    (∀ j : Fin 8, windows.denies .planner .read (burstAddr ⟨.planner, 0x0C000, .eight, 0⟩ j) = false
      ∧ windows.region (burstAddr ⟨.planner, 0x0C000, .eight, 0⟩ j) = .header j)
    ∧ (({ rail with latch := ⟨some rail.headerWords, [], []⟩ } : State).latch.header = some rail.headerWords)
    ∧ windows.region (readAddr ⟨.planner, 0x0C000, .eight, 7⟩) = .header 7
    ∧ windows.region (readAddr ⟨.field, 0x0C000, .two, 1⟩) = .header 1 := by decide

theorem test_hyp_header_words : rail.CapacityLaw ∧ rail.SegLaw ∧ rail.lanes[0].layout ≠ none
    ∧ rail.lanes[3].layout = none ∧ rail.health = some ⟨.ok, .ok, .ok, 0, 7⟩
    ∧ ({ rail with health := some ⟨.error, .warning, .ok, 11, 7⟩ } : State).health ≠ none := by decide

/-- The rail in the middle of a burst that has served order slot 9 and report slot 15. -/
def midBurst : State := { rail with latch := ⟨none, [rail.orderSnap 9], [rail.reportSnap 15]⟩ }

theorem test_hyp_one_moment :
    (∀ i : Fin 8, windows.denies .field .read (readAddr ⟨.field, oAddr 9 0, .eight, i⟩) = false
      ∧ windows.region (readAddr ⟨.field, oAddr 9 0, .eight, i⟩) = .orderWord 9 i
      ∧ windows.region (readAddr ⟨.field, oAddr 9 i, .one, 0⟩) = .orderWord 9 i)
    ∧ (∀ i : Fin 4, windows.denies .planner .read (readAddr ⟨.planner, rAddr 15 0, .four, i⟩) = false
      ∧ windows.region (readAddr ⟨.planner, rAddr 15 0, .four, i⟩) = .reportWord 15 i)
    ∧ midBurst.latch.order? 9 = some (rail.orderSnap 9) ∧ midBurst.latch.order? 10 = none
    ∧ midBurst.latch.report? 15 = some (rail.reportSnap 15) ∧ midBurst.latch.report? 14 = none
    ∧ BurstLen.words .four ≤ 3 + 1 ∧ 2 + 1 < BurstLen.words .four
    ∧ State.reset.windows = none ∧ windows.denies .planner .read (readAddr ⟨.planner, 0x0C200, .one, 0⟩) = false
    ∧ windows.region (readAddr ⟨.planner, 0x0C200, .one, 0⟩) = .outside
    ∧ windows.region (readAddr ⟨.planner, 0x0C108, .one, 0⟩) = .orderPlain := by decide

/-- A queued order of bench 8 in slot 6. -/
def waiting : QueuedOrder := ⟨6, 1, 8, .service, 2, [1, 2]⟩

theorem test_hyp_authority :
    (put rail (mv 3 5 [1, 2, 3] 0 0 1 .moving)).move? 3 = some (mv 3 5 [1, 2, 3] 0 0 1 .moving)
    ∧ (put rail (mv 3 5 [1, 2, 3] 0 0 0 .stopping)).move? 3 = some (mv 3 5 [1, 2, 3] 0 0 0 .stopping)
    ∧ (put halted (mv 3 5 [1, 2, 3] 0 0 0 .stalled)).move? 3 = some (mv 3 5 [1, 2, 3] 0 0 0 .stalled)
    ∧ (put halted (mv 3 5 [1, 2, 3] 0 0 1 .moving)).move? 3 ≠ none
    ∧ ({ rail with queue := [waiting] } : State).queued? 6 = some waiting
    ∧ ({ rail with queue := [waiting] } : State).move? 6 = none
    ∧ rail.live 3 = false ∧ State.reset.BareLaw ∧ (put rail (mv 3 5 [1, 2, 3] 0 0 1 .moving)).RunLaw := by decide

theorem test_hyp_kept_verdicts : rail.orders[3].verdict = .free
    ∧ ∀ v ∈ [Verdict.applied, .refused .laneBusyStranded, .done 11, .cancelled 0, .stopped 11 .driveHalted],
      (rail.updateOrder 3 fun o => { o with verdict := v }).live 3 = false
      ∧ (rail.updateOrder 3 fun o => { o with verdict := v }).orders[3].verdict = v := by decide

/-! ### Witnesses: orders -/

theorem test_hyp_fence_unfence :
    (order rail 3 3 0 0 0 [1, 2] 0).TakesOrder (some .fence) (oAddr 3 7) 9 3
    ∧ (order rail 3 4 0 0 0 [] 0).TakesOrder (some .unfence) (oAddr 3 7) 9 3
    ∧ (order rail 3 4 0 0 0 [] 0).listOk ((order rail 3 4 0 0 0 [] 0).orderOf 3) = false
    ∧ (order (rail.setFence [1] .host) 3 4 0 0 0 [1] 0).TakesOrder (some .unfence) (oAddr 3 7) 9 3
    ∧ (order (rail.setFence [1] .host) 3 4 0 0 0 [1] 0).listOk
        ((order (rail.setFence [1] .host) 3 4 0 0 0 [1] 0).orderOf 3) = true
    ∧ (∃ g ∈ (order (rail.setFence [1] .host) 3 4 0 0 0 [1] 0).segs,
        g.id ∈ ((order (rail.setFence [1] .host) 3 4 0 0 0 [1] 0).orderOf 3).ids ∧ g.fenced = true ∧ g.isOpen = true)
    ∧ (order (rail.setFence [1] .host) 3 4 0 0 0 [1] 0).NoEntered := by decide

/-- The rail with segment 2 not yet surveyed. -/
def unswept : State := rail.updateSegs [2] fun g => { g with surveyed := false }

theorem test_hyp_vouch :
    (order unswept 3 5 0 0 0 [2, 3] 0).TakesOrder (some .vouch) (oAddr 3 7) 9 3
    ∧ (order unswept 3 5 0 0 0 [2, 3] 0).listOk ((order unswept 3 5 0 0 0 [2, 3] 0).orderOf 3) = true
    ∧ (∀ g ∈ ((order unswept 3 5 0 0 0 [2, 3] 0).orderOf 3).ids, (order unswept 3 5 0 0 0 [2, 3] 0).holder g = none)
    ∧ (∃ g ∈ (order unswept 3 5 0 0 0 [2, 3] 0).segs,
        g.id ∈ ((order unswept 3 5 0 0 0 [2, 3] 0).orderOf 3).ids ∧ g.surveyed = false ∧ g.holder = none)
    ∧ (order unswept 3 5 0 0 0 [2, 3] 0).NoEntered
    ∧ (order unswept 3 5 0 0 0 [200] 0).listOk ((order unswept 3 5 0 0 0 [200] 0).orderOf 3) = false
    ∧ (∃ g ∈ ((order (put rail (mv 4 5 [1, 2] 0 0 0 .blocked)) 3 5 0 0 0 [1] 0).orderOf 3).ids,
        ((order (put rail (mv 4 5 [1, 2] 0 0 0 .blocked)) 3 5 0 0 0 [1] 0).holder g).isSome) := by decide

theorem test_hyp_token :
    (order rail 3 6 0 0 0 [] 0).TakesOrder (some .token) (oAddr 3 7) 9 3
    ∧ ((order rail 3 6 0 0 0 [] 0).orderOf 3).bench = 0
    ∧ ((order { rail with tokens := [5] } 3 6 0 0 5 [] 0).orderOf 3).bench = 5
    ∧ 5 ∈ (order { rail with tokens := [5] } 3 6 0 0 5 [] 0).tokens
    ∧ (order (put rail (mv 4 5 [1, 2] 0 0 0 .blocked)) 3 6 0 0 5 [] 0).moveOfBench 5
        = some (mv 4 5 [1, 2] 0 0 0 .blocked)
    ∧ (order rail 3 6 0 0 5 [] 0).moveOfBench 5 = none
    ∧ (order { rail with tokens := [1, 2, 3, 4] } 3 6 0 0 5 [] 0).tokens.length = 4
    ∧ 5 ∉ (order { rail with tokens := [1, 2, 3, 4] } 3 6 0 0 5 [] 0).tokens := by decide

/-- Lane 0 FAULTED with a crossing of the bench of slot 4, which stands on its cell. -/
def strandedLane (st : MoveState) : State :=
  lane0 (put rail { mv 4 5 [20, 30, 21] 1 1 2 st with lane := some 0 })
    fun ln => { ln with state := .faulted, cause := some .crossingLimit, crossing := some ⟨4, true⟩ }

theorem test_hyp_lane_clear :
    (order rail 3 7 0 0 0 [] 4).TakesOrder (some .laneClear) (oAddr 3 7) 9 3
    ∧ ((order rail 3 7 0 0 0 [] 4).orderOf 3).target = 4
    ∧ ((order rail 3 7 0 0 0 [] 1).orderOf 3).target = 1 ∧ rail.lanes[1].layout = none
    ∧ rail.lanes[0].layout ≠ none ∧ rail.lanes[0].state = .quiet
    ∧ (lane0 rail fun ln => { ln with state := .settling }).lanes[0].state = .settling
    ∧ (lane0 rail fun ln => { ln with state := .settling }).lanes[0].cause = none
    ∧ (lane0 rail fun ln => { ln with state := .settling }).lanes[0].releaseTimer = .stopped
    ∧ (∃ x ∈ (lane0 (stand rail 30 77) fun ln => { ln with state := .faulted }).cellOccupants 0,
        (lane0 (stand rail 30 77) fun ln => { ln with state := .faulted }).unmanagedOccupant x = true)
    ∧ (lane0 rail fun ln => { ln with state := .faulted }).cellOccupants 0 = []
    ∧ (∀ x ∈ (strandedLane .stopping).cellOccupants 0, (strandedLane .stopping).unmanagedOccupant x = false)
    ∧ (∃ x ∈ (strandedLane .stopping).cellOccupants 0, (strandedLane .stopping).clearableOccupant 0 x = false)
    ∧ (strandedLane .crossing).cellOccupants 0 ≠ []
    ∧ (∀ x ∈ (strandedLane .crossing).cellOccupants 0, (strandedLane .crossing).clearableOccupant 0 x = true) := by
  decide

theorem test_hyp_stop_all_and_resume :
    (order rail 3 8 0 0 0 [] 0).TakesOrder (some .stopAll) (oAddr 3 7) 9 3
    ∧ (order halted 3 8 0 0 0 [] 0).TakesOrder (some .stopAll) (oAddr 3 7) 9 3
    ∧ (order rail 3 9 0 0 0 [] 0).TakesOrder (some .resume) (oAddr 3 7) 9 3
    ∧ (order halted 3 9 0 0 0 [] 0).TakesOrder (some .resume) (oAddr 3 7) 9 3
    ∧ (order halted 3 9 0 0 0 [] 0).NoEntered ∧ rail.mode = .running ∧ halted.mode = .halted := by decide

/-- A crossing of lane 0 by bench 5 in slot 4: the indices and state of its move, and the mark of entry. -/
def crosser (t f h : Nat) (st : MoveState) (entered : Bool) : State :=
  lane0 (put rail { mv 4 5 [20, 30, 21] t f h st with lane := some 0 })
    fun ln => { ln with
      state := .crossing
      crossing := some ⟨4, entered⟩
      offered := true
      offerTimer := if entered then .stopped else .running 5000
      crossingTimer := if entered then .running 90000 else .stopped }

/-- A crossing that waits for its exit berth while the part is HALTED. -/
def haltedCrosser : State :=
  let s := crosser 1 1 1 .crossing true
  { s with mode := .halted, moves := s.moves.map Move.freeze, lanes := s.lanes.map Lane.freeze }

theorem test_hyp_resume_a_crossing :
    (order haltedCrosser 3 9 0 0 0 [] 0).TakesOrder (some .resume) (oAddr 3 7) 9 3
    ∧ (order haltedCrosser 3 9 0 0 0 [] 0).SlotLaw ∧ haltedCrosser.enteredLane 4 = some 0 := by decide +kernel

theorem test_hyp_notice_mask : (order rail 3 10 0 0 0 [] 0x4321).TakesOrder (some .noticeMask) (oAddr 3 7) 9 3 := by
  decide

theorem test_hyp_cancel :
    (order rail 3 2 0 0 0 [] 32).TakesOrder (some .cancel) (oAddr 3 7) 9 3
    ∧ ((order rail 3 2 0 0 0 [] 32).orderOf 3).target = 32 ∧ ((order rail 3 2 0 0 0 [] 31).orderOf 3).target = 31
    ∧ rail.live 31 = false
    ∧ ({ rail with queue := [waiting] } : State).queued? 6 = some waiting
    ∧ (put rail (mv 4 5 [1, 2] 0 0 0 .stopping)).move? 4 = some (mv 4 5 [1, 2] 0 0 0 .stopping)
    ∧ (order (put rail (mv 4 5 [1, 2] 0 0 1 .moving)) 3 2 0 0 0 [] 4).TakesOrder (some .cancel) (oAddr 3 7) 9 3
    ∧ (put rail (mv 4 5 [1, 2] 0 0 1 .moving)).move? 4 = some (mv 4 5 [1, 2] 0 0 1 .moving) := by decide

/-- Bench 5 on segment 1, and a MOVE for it in slot 3. -/
def ready : State := order (stand rail 1 5) 3 1 2 4 5 [1, 2, 3] 0

theorem test_hyp_move_admitted :
    ready.TakesOrder (some .move) (oAddr 3 7) 9 3 ∧ moveClass (ready.orderOf 3).classCode = some .restock
    ∧ (ready.orderOf 3).bench = 5 ∧ ready.routeOk (ready.orderOf 3).length (ready.orderOf 3).ids = true
    ∧ ready.moves.length < 24
    ∧ ready.admissionFault (ready.orderOf 3).bench ((ready.orderOf 3).ids.headD 0) true = none
    ∧ ({ ready with admissionCounter := 65535 } : State).TakesOrder (some .move) (oAddr 3 7) 9 3 := by decide

/-- A full Move Table: 24 moves of other benches. -/
def full (s : State) : State :=
  { s with moves := (List.range 24).map fun i => mv (Fin.ofNat 32 (i + 8)) (100 + i) [1, 2] 0 0 0 .blocked }

theorem test_hyp_move_refused :
    moveClass ((order rail 3 1 0 0 5 [1, 2] 0).orderOf 3).classCode = none
    ∧ ((order rail 3 1 3 0 0 [1, 2] 0).orderOf 3).bench = 0
    ∧ moveClass ((order rail 3 1 3 0 5 [1] 0).orderOf 3).classCode = some .service
    ∧ rail.routeOk ((order rail 3 1 3 0 5 [1] 0).orderOf 3).length ((order rail 3 1 3 0 5 [1] 0).orderOf 3).ids = false
    ∧ (order rail 3 1 3 0 5 [1, 2] 0).TakesOrder (some .move) (oAddr 3 7) 9 3
    ∧ rail.routeOk 2 [1, 2] = true ∧ rail.admissionFault 5 1 true = some .unlocated
    ∧ (full ready).TakesOrder (some .move) (oAddr 3 7) 9 3 ∧ 24 ≤ (full ready).moves.length
    ∧ (full ready).admissionFault 5 1 false = none ∧ (full ready).queue.length < 6
    ∧ 6 ≤ ({ full ready with queue := List.replicate 6 waiting } : State).queue.length := by decide

theorem test_hyp_admission_checks :
    (∃ q ∈ ({ rail with queue := [waiting] } : State).queue, q.bench = 8)
    ∧ rail.benchAt 5 = [] ∧ (stand (stand rail 1 5) 2 5).benchAt 5 = [1, 2] ∧ (stand rail 1 5).benchAt 5 = [1]
    ∧ ((put rail (mv 4 5 [1, 2, 3] 0 0 2 .moving)).holder 3).isSome
    ∧ (stand (put rail (mv 4 5 [1, 2, 3] 0 0 2 .moving)) 3 9).benchAt 9 = [3] := by decide

theorem test_hyp_orders_turned_away :
    (order (put rail (mv 3 5 [1, 2] 0 0 0 .blocked)) 3 2 0 0 0 [] 3).orderTaken (some .cancel) (oAddr 3 7) 9 = some 3
    ∧ (put rail (mv 3 5 [1, 2] 0 0 0 .blocked)).live 3 = true
    ∧ (order blocking 3 8 0 0 0 [] 0).orderTaken (some .stopAll) (oAddr 3 7) 9 = some 3 ∧ blocking.live 3 = false
    ∧ (order rail 3 11 0 0 0 [] 0).TakesOrder none (oAddr 3 7) 9 3
    ∧ (order rail 3 0 0 0 0 [] 0).TakesOrder none (oAddr 3 7) 9 3 := by decide

/-! ### Witnesses: reports -/

theorem test_hyp_reports_rejected :
    (report blocking 2 1 5 1).reportTaken (some .arrived) (rAddr 2 3) 9 = some 2
    ∧ (report rail 2 7 5 1).TakesReport none (rAddr 2 3) 9 2
    ∧ (report rail 2 2 0 1).TakesReport (some .left) (rAddr 2 3) 9 2 ∧ ((report rail 2 2 0 1).reportOf 2).bench = 0
    ∧ (report rail 2 3 0 1).TakesReport (some .stalled) (rAddr 2 3) 9 2
    ∧ (report rail 2 4 0 1).TakesReport (some .halted) (rAddr 2 3) 9 2
    ∧ (report rail 2 1 5 200).TakesReport (some .arrived) (rAddr 2 3) 9 2
    ∧ (report rail 2 5 0 0).TakesReport (some .seen) (rAddr 2 3) 9 2
    ∧ (report rail 2 6 0 193).TakesReport (some .empty) (rAddr 2 3) 9 2
    ∧ (report rail 2 2 5 200).TakesReport (some .left) (rAddr 2 3) 9 2
    ∧ (report rail 2 3 5 0).TakesReport (some .stalled) (rAddr 2 3) 9 2
    ∧ (report rail 2 4 5 193).TakesReport (some .halted) (rAddr 2 3) 9 2 ∧ ((report rail 2 4 5 193).reportOf 2).bench = 5
    ∧ rail.configured 200 = false ∧ rail.configured 0 = false ∧ rail.configured 193 = false := by decide

/-- A move of bench 5 in slot 4 that rests on segment 1 and holds 2. -/
def running : State := put rail (mv 4 5 [1, 2, 3] 0 0 1 .moving)

/-- The same move across segments 1 and 2. -/
def across (st : MoveState) : State := put rail (mv 4 5 [1, 2, 3] 0 1 1 st)

theorem test_hyp_arrived :
    (report running 2 1 5 2).SlotLaw ∧ (report running 2 1 5 2).TakesReport (some .arrived) (rAddr 2 3) 9 2
    ∧ ((report running 2 1 5 2).reportOf 2).segment = 2 ∧ running.configured 2 = true
    ∧ running.moveOfBench 5 = some (mv 4 5 [1, 2, 3] 0 0 1 .moving) ∧ running.holder 2 = some 4
    ∧ (mv 4 5 [1, 2, 3] 0 0 1 .moving).t = (mv 4 5 [1, 2, 3] 0 0 1 .moving).f
    ∧ 2 = (mv 4 5 [1, 2, 3] 0 0 1 .moving).seg 1 := by decide

/-- A move of bench 5 alone in the list of berth 0 of lane 0, which is in this state. -/
def atBerth (st : LaneState) : State :=
  lane0 (put rail { mv 4 5 [20, 30, 21] 0 0 0 .laneWait with lane := some 0 })
    fun ln => { ln with
      state := st
      lists := ln.lists.set 0 [4]
      offered := true
      offerTimer := if st = .offering then .running 5000 else .stopped
      settleTimer := if st = .settling then .running 3000 else .stopped
      cause := if st = .faulted then some .stranded else none }

theorem test_hyp_arrived_enters_the_crossing :
    (report (crosser 0 0 2 .crossing false) 2 1 5 30).SlotLaw
    ∧ (report (crosser 0 0 2 .crossing false) 2 1 5 30).TakesReport (some .arrived) (rAddr 2 3) 9 2
    ∧ (crosser 0 0 2 .crossing false).lanes[0].state = .crossing
    ∧ (crosser 0 0 2 .crossing false).lanes[0].crossing = some ⟨4, false⟩
    ∧ (crosser 0 0 2 .crossing false).holder 30 = some 4 ∧ rail.isCell 30 = true ∧ rail.isCell 20 = false
    ∧ (∃ m, (crosser 0 0 2 .crossing false).moveOfBench 5 = some m ∧ m.lane = some 0 ∧ m.seg (m.f + 1) = 30) :=
  ⟨by decide, by decide, by decide, by decide, by decide, by decide, by decide, ⟨_, rfl, by decide⟩⟩

theorem test_hyp_unmanaged_arrival :
    (report (stand rail 1 9) 2 1 9 1).TakesReport (some .arrived) (rAddr 2 3) 9 2 ∧ rail.moveOfBench 9 = none
    ∧ (stand rail 1 9).occupant 1 = some (.bench 9) ∧ rail.configured 1 = true ∧ rail.cellLane 1 = none
    ∧ rail.holder 1 = none ∧ (report rail 2 1 0 1).TakesReport (some .arrived) (rAddr 2 3) 9 2 := by decide

/-- What the clause on an intruding ARRIVED of bench b onto segment g asks of a state. -/
abbrev Intrudes (s : State) (b g : Nat) : Prop :=
  (report s 2 1 b g).RunLaw ∧ (report s 2 1 b g).LaneLaw
    ∧ (report s 2 1 b g).TakesReport (some .arrived) (rAddr 2 3) 9 2 ∧ s.configured g = true
    ∧ (∀ m ∈ s.moves, m.bench = b → s.holder g ≠ some m.slot) ∧ (b = 0 ∨ s.occupant g ≠ some (.bench b))

theorem test_hyp_intrusion_off_the_lanes : Intrudes rail 9 1 ∧ Intrudes rail 0 20 ∧ Intrudes running 5 3
    ∧ Intrudes running 9 2 ∧ running.underItsHolder 2 = false ∧ Intrudes running 9 1
    ∧ running.underItsHolder 1 = true ∧ running.moveOfBench 5 ≠ none ∧ running.moveOfBench 9 = none
    ∧ Intrudes (put running (mv 7 6 [3, 20] 0 0 0 .blocked)) 6 2
    ∧ Intrudes (put (across .stopping) (mv 7 6 [3, 20] 0 0 0 .stopping)) 6 2
    ∧ Intrudes (across .stopping) 9 2 := by decide +kernel

theorem test_hyp_intrusion_on_a_cell : Intrudes rail 9 30 ∧ rail.cellLane 30 = some 0
    ∧ (∀ st ∈ [LaneState.offering, .settling, .faulted], Intrudes (atBerth st) 9 30 ∧ Intrudes (atBerth st) 5 30)
    ∧ Intrudes (crosser 0 0 2 .crossing false) 9 30 ∧ Intrudes (crosser 1 2 2 .crossing true) 9 30
    ∧ (∀ st ∈ [MoveState.crossing, .stalled, .stopping], Intrudes (crosser 1 1 1 st true) 0 30)
    ∧ (crosser 1 1 1 .stalled true).underItsHolder 30 = true := by decide +kernel

theorem test_hyp_marks : (∀ x ∈ rail.benchAt 9, x = 1)
    ∧ ((stand rail 2 9).benchAt 9).filter (fun y => y ≠ 1) = [2] ∧ (stand rail 2 9).linked 2 1 = true
    ∧ ((stand rail 3 9).benchAt 9).filter (fun y => y ≠ 1) = [3] ∧ (stand rail 3 9).linked 3 1 = false
    ∧ 2 ≤ (((stand (stand rail 2 9) 3 9).benchAt 9).filter (fun y => y ≠ 1)).length := by decide

theorem test_hyp_left_vacates :
    (report (stand rail 1 9) 2 2 9 1).TakesReport (some .left) (rAddr 2 3) 9 2 ∧ rail.moveOfBench 9 = none
    ∧ (report (stand rail 1 9) 2 2 9 1).NoEntered ∧ rail.configured 1 = true
    ∧ (report running 2 2 5 1).TakesReport (some .left) (rAddr 2 3) 9 2
    ∧ running.moveOfBench 5 = some (mv 4 5 [1, 2, 3] 0 0 1 .moving) ∧ 1 = (mv 4 5 [1, 2, 3] 0 0 1 .moving).seg 0
    ∧ (mv 4 5 [1, 2, 3] 0 0 1 .moving).f ≠ (mv 4 5 [1, 2, 3] 0 0 1 .moving).t + 1 := by decide

/-- A LEFT of bench 5 from the segment at its tail, while it straddles. -/
abbrev LeavesTail (s : State) (m : Move) : Prop :=
  (report s 2 2 5 (m.seg m.t)).RunLaw ∧ (report s 2 2 5 (m.seg m.t)).TakesReport (some .left) (rAddr 2 3) 9 2
    ∧ s.moveOfBench 5 = some m ∧ m.f = m.t + 1 ∧ s.configured (m.seg m.t) = true

theorem test_hyp_left_releases :
    (∀ st ∈ [MoveState.moving, .blocked, .stalled, .stopping], LeavesTail (across st) (mv 4 5 [1, 2, 3] 0 1 1 st))
    ∧ LeavesTail (put rail (mv 4 5 [1, 2] 0 1 1 .moving)) (mv 4 5 [1, 2] 0 1 1 .moving)
    ∧ (mv 4 5 [1, 2] 0 1 1 .moving).f + 1 = (mv 4 5 [1, 2] 0 1 1 .moving).route.length
    ∧ (report (put rail (mv 4 5 [1, 2] 0 1 1 .moving)) 2 2 5 1).TableLaw := by decide +kernel

/-- The move that leaves lane 0 over its cell to berth 0, in the states an entered crossing gives it. -/
def leaver (st : MoveState) : Move := { mv 4 5 [21, 30, 20, 3] 1 2 2 st with lane := some 0 }

/-- The leaver on the rail, lane 0 in this state at berth 1, with a run limit; bench 6 waits at berth 1 if asked. -/
def leaving (st : MoveState) (ls : LaneState) (limit : Nat) (follower strict : Bool) : State :=
  let m : Move := { mv 7 6 [21, 30, 20] 0 0 0 .laneWait with lane := some 0 }
  let s := if follower then put (put rail (leaver st)) m else put rail (leaver st)
  let timing := { LaneTiming.default with runLimit := limit, strictOrder := strict, autoRelease := true }
  lane0 { s with timing := { s.timing with lanes := s.timing.lanes.set 0 timing } } fun ln => { ln with
    state := ls
    berth := 1
    cause := if ls = .faulted then some .crossingLimit else none
    crossing := some ⟨4, true⟩
    offered := true
    crossed := true
    lists := if follower then ln.lists.set 1 [7] else ln.lists }

theorem test_hyp_left_ends_the_crossing :
    LeavesTail (leaving .crossing .crossing 0 false false) (leaver .crossing)
    ∧ LeavesTail (leaving .crossing .crossing 1 true false) (leaver .crossing)
    ∧ LeavesTail (leaving .crossing .crossing 1 true true) (leaver .crossing)
    ∧ LeavesTail (leaving .stopping .faulted 0 true false) (leaver .stopping)
    ∧ (leaving .crossing .crossing 1 true false).LeavesLane (leaver .crossing)
    ∧ (report (leaving .crossing .crossing 0 false false) 2 2 5 30).LaneLaw
    ∧ (report (leaving .crossing .crossing 1 true false) 2 2 5 30).LaneLaw
    ∧ (report (leaving .crossing .crossing 1 true true) 2 2 5 30).LaneLaw
    ∧ (report (leaving .stopping .faulted 0 true false) 2 2 5 30).LaneLaw := by decide +kernel

theorem test_hyp_left_within_a_crossing :
    LeavesTail (crosser 0 1 1 .crossing true) { mv 4 5 [20, 30, 21] 0 1 1 .crossing with lane := some 0 }
    ∧ LeavesTail (crosser 0 1 2 .crossing true) { mv 4 5 [20, 30, 21] 0 1 2 .crossing with lane := some 0 }
    ∧ (∃ r ∈ (crosser 0 1 1 .crossing true).seg? 20,
        r.surveyed = true ∧ r.occupant = some (.bench 5) ∧ r.kind.lane = some 0)
    ∧ ((crosser 1 1 1 .crossing true).awaitsRest 0).isSome = true
    ∧ ¬(crosser 0 1 1 .crossing true).LeavesLane { mv 4 5 [20, 30, 21] 0 1 1 .crossing with lane := some 0 } := by
  decide +kernel

theorem test_hyp_stalled :
    (report running 2 3 5 1).SlotLaw ∧ (report running 2 3 5 1).TakesReport (some .stalled) (rAddr 2 3) 9 2
    ∧ running.moveOfBench 5 = some (mv 4 5 [1, 2, 3] 0 0 1 .moving) ∧ 1 = (mv 4 5 [1, 2, 3] 0 0 1 .moving).seg 0
    ∧ (report (across .stalled) 2 3 5 2).TakesReport (some .stalled) (rAddr 2 3) 9 2
    ∧ (across .stalled).moveOfBench 5 = some (mv 4 5 [1, 2, 3] 0 1 1 .stalled)
    ∧ 2 = (mv 4 5 [1, 2, 3] 0 1 1 .stalled).seg 1
    ∧ (report (across .stopping) 2 3 5 2).TakesReport (some .stalled) (rAddr 2 3) 9 2
    ∧ (across .stopping).moveOfBench 5 = some (mv 4 5 [1, 2, 3] 0 1 1 .stopping)
    ∧ (report rail 2 3 9 1).TakesReport (some .stalled) (rAddr 2 3) 9 2 ∧ rail.moveOfBench 9 = none := by decide

theorem test_hyp_halted :
    (report running 2 4 5 1).SlotLaw ∧ (report running 2 4 5 1).TakesReport (some .halted) (rAddr 2 3) 9 2
    ∧ (report (across .stopping) 2 4 5 2).TakesReport (some .halted) (rAddr 2 3) 9 2
    ∧ (across .stopping).moveOfBench 5 = some (mv 4 5 [1, 2, 3] 0 1 1 .stopping)
    ∧ (report rail 2 4 9 1).TakesReport (some .halted) (rAddr 2 3) 9 2 ∧ rail.moveOfBench 9 = none := by decide

theorem test_hyp_halted_strands_a_lane :
    (report (crosser 1 1 2 .crossing true) 2 4 5 30).TakesReport (some .halted) (rAddr 2 3) 9 2
    ∧ (report (crosser 1 1 2 .crossing true) 2 4 5 30).TableLaw
    ∧ (report (crosser 1 1 2 .crossing true) 2 4 5 30).RunLaw
    ∧ (report (crosser 1 1 2 .crossing true) 2 4 5 30).LaneLaw
    ∧ (crosser 1 1 2 .crossing true).benchOnLane 5 0 = true
    ∧ (crosser 1 1 2 .stopping true).benchOnLane 5 0 = true ∧ running.benchOnLane 5 0 = false := by decide +kernel

/-- A full Move Table: 24 moves that rest on segments 1 to 24 before 25; 26 is free; a queued order of bench 8. -/
def crowd : State :=
  (List.range 24).foldl
    (fun s i => put s { mv (Fin.ofNat 32 i) (100 + i) [i + 1, 25] 0 0 0 .blocked with admission := i })
    { rail with
      segs := (List.range 24).map (fun i => seg (i + 1) .plain [25]) ++ [seg 25 .plain [26], seg 26 .plain [25]]
      lanes := State.reset.lanes
      queue := [⟨30, 1, 8, .service, 2, [26, 25]⟩] }

theorem test_hyp_queue_head :
    (report crowd 2 4 100 1).TableLaw ∧ (report crowd 2 4 100 1).RunLaw
    ∧ (report crowd 2 4 100 1).TakesReport (some .halted) (rAddr 2 3) 9 2 ∧ crowd.benchAt 8 = []
    ∧ (stand (stand crowd 25 8) 26 8).benchAt 8 = [25, 26] ∧ (stand crowd 25 8).benchAt 8 = [25]
    ∧ (stand crowd 26 8).benchAt 8 = [26] ∧ crowd.holder 26 = none ∧ (stand crowd 2 8).benchAt 8 = [2]
    ∧ crowd.holder 2 = some 1 := by decide +kernel

theorem test_hyp_out_of_step :
    (report running 2 2 5 3).SlotLaw ∧ (report running 2 2 5 3).TakesReport (some .left) (rAddr 2 3) 9 2
    ∧ (report running 2 3 5 3).TakesReport (some .stalled) (rAddr 2 3) 9 2
    ∧ (report running 2 4 5 3).TakesReport (some .halted) (rAddr 2 3) 9 2
    ∧ 3 ≠ (mv 4 5 [1, 2, 3] 0 0 1 .moving).seg 0 ∧ running.configured 3 = true
    ∧ (report running 2 1 5 1).TakesReport (some .arrived) (rAddr 2 3) 9 2 ∧ running.holder 1 = some 4
    ∧ 1 ≠ (mv 4 5 [1, 2, 3] 0 0 1 .moving).seg 1 ∧ (across .blocked).holder 2 = some 4
    ∧ (report (across .blocked) 2 1 5 2).TakesReport (some .arrived) (rAddr 2 3) 9 2
    ∧ (mv 4 5 [1, 2, 3] 0 1 1 .blocked).t ≠ (mv 4 5 [1, 2, 3] 0 1 1 .blocked).f
    ∧ (across .stopping).moveOfBench 5 = some (mv 4 5 [1, 2, 3] 0 1 1 .stopping) := by decide

theorem test_hyp_seen :
    (report unswept 2 5 0 2).TakesReport (some .seen) (rAddr 2 3) 9 2
    ∧ (∃ r, unswept.seg? 2 = some r ∧ r.surveyed = false)
    ∧ (report running 2 5 0 2).TakesReport (some .seen) (rAddr 2 3) 9 2
    ∧ (∃ r, running.seg? 2 = some r ∧ r.surveyed = true ∧ r.occupant = none ∧ r.holder ≠ none)
    ∧ (report rail 2 5 0 2).TakesReport (some .seen) (rAddr 2 3) 9 2
    ∧ (∃ r, rail.seg? 2 = some r ∧ r.surveyed = true ∧ r.occupant = none ∧ r.holder = none
        ∧ rail.cellLane r.id = none) :=
  ⟨by decide, ⟨_, rfl, by decide⟩, by decide, ⟨_, rfl, by decide⟩, by decide, ⟨_, rfl, by decide⟩⟩

theorem test_hyp_seen_under_a_bench :
    (report (stand rail 2 9) 2 5 0 2).TakesReport (some .seen) (rAddr 2 3) 9 2
    ∧ (∃ r, (stand rail 2 9).seg? 2 = some r ∧ r.surveyed = true ∧ r.occupant = some (.bench 9))
    ∧ (stand rail 2 9).moveOfBench 9 = none
    ∧ (report running 2 5 0 1).TakesReport (some .seen) (rAddr 2 3) 9 2
    ∧ (∃ r, running.seg? 1 = some r ∧ r.surveyed = true ∧ r.occupant = some (.bench 5)) :=
  ⟨by decide, ⟨_, rfl, by decide⟩, by decide, by decide, ⟨_, rfl, by decide⟩⟩

/-- What the clause on SEEN of an open cell of lane 0 asks of a state. -/
abbrev SeesOpenCell (s : State) : Prop :=
  (report s 2 5 0 30).RunLaw ∧ (report s 2 5 0 30).LaneLaw
    ∧ (report s 2 5 0 30).TakesReport (some .seen) (rAddr 2 3) 9 2 ∧ s.cellLane 30 = some 0
    ∧ ∃ r ∈ s.seg? 30, r.surveyed = true ∧ r.occupant = none ∧ r.holder = none

theorem test_hyp_seen_on_an_open_cell :
    SeesOpenCell rail ∧ ∀ st ∈ [LaneState.offering, .settling, .faulted], SeesOpenCell (atBerth st) := by
  decide +kernel

theorem test_hyp_empty_under_a_move :
    (report running 2 6 0 1).SlotLaw ∧ (report running 2 6 0 1).TakesReport (some .empty) (rAddr 2 3) 9 2
    ∧ (∃ r, running.seg? 1 = some r ∧ running.moveOfOccupant r.occupant = some (mv 4 5 [1, 2, 3] 0 0 1 .moving))
    ∧ (∃ r, (across .stopping).seg? 1 = some r
        ∧ (across .stopping).moveOfOccupant r.occupant = some (mv 4 5 [1, 2, 3] 0 1 1 .stopping)) :=
  ⟨by decide, by decide, ⟨_, rfl, by decide⟩, ⟨_, rfl, by decide⟩⟩

theorem test_hyp_empty :
    (report unswept 2 6 0 2).TakesReport (some .empty) (rAddr 2 3) 9 2
    ∧ (∃ r, unswept.seg? 2 = some r ∧ unswept.moveOfOccupant r.occupant = none)
    ∧ (report (stand rail 2 9) 2 6 0 2).TakesReport (some .empty) (rAddr 2 3) 9 2
    ∧ (∃ r, (stand rail 2 9).seg? 2 = some r ∧ r.surveyed = true ∧ r.occupant = some (.bench 9)
        ∧ (stand rail 2 9).moveOfOccupant r.occupant = none)
    ∧ (report (stand rail 2 9) 2 6 0 2).NoEntered :=
  ⟨by decide, ⟨_, rfl, by decide⟩, by decide, ⟨_, rfl, by decide⟩, by decide⟩

/-! ### Witnesses: expiries -/

theorem test_hyp_silence :
    running.SlotLaw ∧ running.move? 4 = some (mv 4 5 [1, 2, 3] 0 0 1 .moving)
    ∧ (mv 4 5 [1, 2, 3] 0 0 1 .moving).silence.isRunning = true
    ∧ (across .stopping).move? 4 = some (mv 4 5 [1, 2, 3] 0 1 1 .stopping)
    ∧ (mv 4 5 [1, 2, 3] 0 1 1 .stopping).silence.isRunning = true := by decide

theorem test_hyp_silence_ends : (across .stopping).TableLaw ∧ (across .stopping).RunLaw ∧ (across .stopping).LaneLaw
    ∧ (crosser 1 1 1 .stopping true).RunLaw ∧ (crosser 1 1 1 .stopping true).LaneLaw
    ∧ (crosser 1 1 1 .stopping true).benchOnLane 5 0 = true := by decide +kernel

/-- Benches 5 and 6 wait, in that order, at the offered berth of lane 0. -/
def twoAtBerth : State :=
  lane0 (put rail { mv 4 5 [20, 30, 21] 0 0 0 .laneWait with lane := some 0 }) fun ln => { ln with
    state := .offering, lists := ln.lists.set 0 [9, 4], offered := true, offerTimer := .running 5000 }

/-- How the move of slot 4 leaves lane 0: from its berth list, from the head of the offered one, by a grant withdrawn;
an entered crossing it keeps. -/
theorem test_hyp_quits_a_lane :
    (order (atBerth .offering) 3 2 0 0 0 [] 4).TakesOrder (some .cancel) (oAddr 3 7) 9 3
    ∧ (report (atBerth .offering) 2 3 5 20).SlotLaw
    ∧ (report (atBerth .offering) 2 3 5 20).TakesReport (some .stalled) (rAddr 2 3) 9 2
    ∧ (report (atBerth .offering) 2 4 5 3).TakesReport (some .halted) (rAddr 2 3) 9 2
    ∧ (∃ m, (atBerth .offering).moveOfBench 5 = some m ∧ m.lane = some 0 ∧ m.seg m.t = 20 ∧ m.state = .laneWait)
    ∧ (atBerth .offering).lanes[0].head? = some 4 ∧ twoAtBerth.lanes[0].head? = some 9
    ∧ (atBerth .offering).lanes[0].crosses 4 = false ∧ (atBerth .offering).lanes[0].entered 4 = false
    ∧ Lane.head? { (atBerth .offering).lanes[0] with lists := Vector.replicate 8 [] } = none
    ∧ (crosser 0 0 2 .crossing false).SlotLaw ∧ (crosser 0 0 2 .crossing false).lanes[0].crosses 4 = true
    ∧ (crosser 0 0 2 .crossing false).lanes[0].entered 4 = false
    ∧ (∃ m, (crosser 0 0 2 .crossing false).move? 4 = some m ∧ m.lane = some 0 ∧ m.silence.isRunning = true)
    ∧ (crosser 1 1 1 .stalled true).lanes[0].entered 4 = true
    ∧ (∃ r, (atBerth .offering).seg? 20 = some r ∧ (atBerth .offering).moveOfOccupant r.occupant ≠ none)
    ∧ Intrudes (atBerth .offering) 5 3 ∧ (atBerth .offering).holder 3 = none :=
  ⟨by decide, by decide, by decide, by decide, ⟨_, rfl, by decide⟩, by decide, by decide, by decide, by decide, by decide,
    by decide, by decide, by decide, ⟨_, rfl, by decide⟩, by decide, ⟨_, rfl, by decide⟩, by decide +kernel, by decide⟩

theorem test_hyp_backoff :
    (across .stalled).SlotLaw ∧ (across .stalled).move? 4 = some (mv 4 5 [1, 2, 3] 0 1 1 .stalled)
    ∧ (mv 4 5 [1, 2, 3] 0 1 1 .stalled).backoff.isRunning = true ∧ (mv 4 5 [1, 2, 3] 0 1 1 .stalled).retries ≠ 0
    ∧ (across .stalled).enteredLane 4 = none
    ∧ ({ mv 4 5 [1, 2, 3] 0 1 1 .stalled with retries := 0 } : Move).retries = 0
    ∧ (crosser 1 1 1 .stalled true).SlotLaw ∧ (crosser 1 1 1 .stalled true).enteredLane 4 ≠ none
    ∧ (∃ m, (crosser 1 1 1 .stalled true).move? 4 = some m ∧ m.state = .stalled ∧ m.retries ≠ 0
        ∧ m.backoff.isRunning = true) :=
  ⟨by decide, by decide, by decide, by decide, by decide, by decide, by decide, by decide, ⟨_, rfl, by decide⟩⟩

theorem test_hyp_offer_timer :
    (atBerth .offering).lanes[0].state = .offering ∧ (atBerth .offering).lanes[0].offerTimer.isRunning = true
    ∧ (crosser 0 0 2 .crossing false).lanes[0].state = .crossing ∧ (crosser 0 0 2 .crossing false).lanes[0].crossing = some ⟨4, false⟩
    ∧ (crosser 0 0 2 .crossing false).lanes[0].offerTimer.isRunning = true
    ∧ (∃ m, (crosser 0 0 2 .crossing false).move? 4 = some m ∧ m.f < m.h) :=
  ⟨by decide, by decide, by decide, by decide, by decide, ⟨_, rfl, by decide⟩⟩

/-- Lane 0 with the offer timer of its offer or entry deadline running, in strict or normal order. -/
def ordered (s : State) (strict crossed standoff : Bool) (lists : List (List SlotIx)) : State :=
  let timing := { LaneTiming.default with strictOrder := strict }
  lane0 { s with timing := { s.timing with lanes := s.timing.lanes.set 0 timing } } fun ln =>
    { ln with crossed := crossed, standoff := standoff, lists := Vector.ofFn fun i => lists.getD i.val [] }

/-- Each order, with the next berth ahead of the current one, at it and absent, and with stand-off judged and not. -/
theorem test_hyp_advances : ∀ strict : Bool,
    (ordered (atBerth .offering) strict false false [[4], [7]]).lanes[0].standsOff strict = strict
    ∧ (ordered (atBerth .offering) strict false false [[4], []]).lanes[0].standsOff strict = true
    ∧ (ordered (atBerth .offering) strict true false [[4], []]).lanes[0].standsOff strict = false
    ∧ (ordered (atBerth .offering) strict false true [[4], []]).lanes[0].standsOff strict = false
    ∧ (ordered (atBerth .offering) false false false [[4], [7]]).lanes[0].offersNext false = some 1
    ∧ (ordered (atBerth .offering) true false false [[4], [7]]).lanes[0].offersNext true = some 0
    ∧ (ordered (crosser 0 0 2 .crossing false) strict false false [[], []]).lanes[0].offersNext strict = none
    ∧ (ordered (atBerth .offering) strict false false [[], [7]]).lanes[0].nextBerth 0 = some 1
    ∧ (ordered (atBerth .offering) strict false false [[4], []]).lanes[0].nextBerth 1 = none := by decide

theorem test_hyp_crossing_limit :
    (crosser 1 1 1 .stalled true).lanes[0].state = .crossing
    ∧ (crosser 1 1 1 .stalled true).lanes[0].crossing = some ⟨4, true⟩
    ∧ (crosser 1 1 1 .stalled true).lanes[0].crossingTimer.isRunning = true := by decide

theorem test_hyp_settle_and_release :
    (lane0 rail fun ln => { ln with state := .settling, settleTimer := .running 1 }).lanes[0].state = .settling
    ∧ (lane0 rail fun ln => { ln with state := .settling, settleTimer := .running 1 }).lanes[0].settleTimer.isRunning = true
    ∧ (lane0 rail fun ln => { ln with state := .settling, settleTimer := .running 1 }).lanes[0].cause = none
    ∧ (lane0 rail fun ln => { ln with state := .settling, settleTimer := .running 1 }).lanes[0].releaseTimer = .stopped
    ∧ (lane0 rail fun ln => { ln with state := .faulted, releaseTimer := .running 1 }).lanes[0].releaseTimer.isRunning = true
    ∧ (lane0 rail fun ln => { ln with state := .faulted, releaseTimer := .running 1 }).lanes[0].settleTimer = .stopped := by
  decide

/-! ### Witnesses: the arbiter, the offers, the starts -/

/-- A pass in progress: the turn of slot 4, which rests on segment 1 before 2 and 3, and then that of slot 5. -/
def visiting : State :=
  { put (put rail (mv 4 5 [1, 2, 3] 0 0 0 .blocked)) (mv 5 6 [20, 3] 0 0 0 .blocked) with
    arbiter := ⟨some [4, 5], none, false, false⟩ }

/-- Two moves, each held up on the segment the other holds; slot 7 holds ahead. -/
def ringed : State :=
  { put (put { rail with segs := [seg 1 .plain [2], seg 2 .plain [1, 3], seg 3 .plain [2, 4], seg 4 .plain [3]] }
      (mv 4 5 [1, 2, 3] 0 0 0 .blocked)) (mv 7 6 [3, 2, 1] 0 0 1 .moving) with
    arbiter := ⟨some [4, 7], none, false, false⟩ }

theorem test_hyp_passes : running.mode = .running ∧ running.arbiter.pass = none ∧ (∃ m ∈ running.moves, m.eligible = true)
    ∧ visiting.arbiter.pass ≠ none ∧ halted.mode = .halted := by decide

/-- What the statements about a visit ask of a state whose pass visits slot 4. -/
abbrev Visited (s : State) : Prop :=
  s.RunLaw ∧ s.AdmissionLaw ∧ s.ArbiterLaw ∧ s.mode = .running ∧ s.arbiter.pass.bind List.head? = some 4
    ∧ s.arbiter.check = none ∧ ∃ m ∈ s.move? 4, m.eligible = true ∧ m.yield = .clear

/-- The slot whose turn it is may be granted its next position. -/
def grants (s : State) : Bool := (s.move? 4).any fun m => s.mayExtend m (m.h + 1)

/-- A visit before its first grant, after it, and after its last, and one of a move held up by a bench. -/
theorem test_hyp_visits : Visited visiting ∧ grants visiting = true
    ∧ Visited visiting.request ∧ grants visiting.request = true ∧ visiting.request.midVisit = true
    ∧ Visited visiting.request.request ∧ grants visiting.request.request = false
    ∧ Visited (stand visiting 2 9) ∧ grants (stand visiting 2 9) = false
    ∧ (∃ m ∈ (stand visiting 2 9).move? 4, (stand visiting 2 9).tableState m = .blocked)
    ∧ (∃ m ∈ visiting.request.request.move? 4, visiting.request.request.tableState m = .moving) := by decide +kernel

/-- Bench 5 rests on berth 20 of lane 0, in this state, and is visited. -/
def joining (ls : LaneState) : State :=
  lane0 { put rail (mv 4 5 [20, 30, 21] 0 0 0 .blocked) with arbiter := ⟨some [4], none, false, false⟩ }
    fun ln => { ln with state := ls }

theorem test_hyp_visit_joins_a_list : ∀ ls ∈ [LaneState.quiet, .settling], Visited (joining ls)
    ∧ (joining ls).berthOf 20 = some (0, 0) ∧ (joining ls).lanes[0].state = ls
    ∧ (joining ls).tableState (mv 4 5 [20, 30, 21] 0 0 0 .blocked) = .laneWait
    ∧ Lane.nextBerth { (joining ls).lanes[0] with lists := (joining ls).lanes[0].lists.set 0 [4] } 0 = some 0 := by
  decide +kernel

/-- A pass with these turns over the move of slot 4, with this yield mark, and a STALLED one in slot 9. -/
def turns (pass : List SlotIx) (y : Yield) (further : Bool) : State :=
  { put (put rail { mv 4 5 [1, 2, 3] 0 0 0 .blocked with yield := y, shed := y ≠ .clear })
      (mv 9 6 [3, 20] 0 0 0 .stalled) with arbiter := ⟨some pass, none, further, false⟩ }

theorem test_hyp_turns_passed_over :
    (∀ y ∈ [Yield.beforePass, .inPass], (turns [4, 9] y false).ArbiterLaw
      ∧ ∃ m ∈ (turns [4, 9] y false).move? 4, m.yield ≠ .clear)
    ∧ (turns [9, 4] .clear false).ArbiterLaw ∧ (∃ m ∈ (turns [9, 4] .clear false).move? 9, m.eligible = false)
    ∧ (turns [] .inPass true).arbiter.pass = some [] ∧ (turns [9] .inPass false).arbiter.pass = some [9]
    ∧ (turns [7] .inPass false).move? 7 = none := by decide

/-- A visit that has granted when the part is halted. -/
def haltedVisit : State := { visiting.request with mode := .halted, moves := visiting.request.moves.map Move.freeze }

theorem test_hyp_pass_ends :
    (∀ s ∈ [turns [4] .clear true, turns [9] .inPass false, turns [4] .inPass false],
      s.RunLaw ∧ s.ArbiterLaw ∧ s.mode = .running ∧ ∃ t, exec .extensionVisit s = .next t)
    ∧ (∃ m ∈ (turns [9] .inPass false).moves, m.yield = .inPass) ∧ (turns [4] .clear true).arbiter.further = true
    ∧ haltedVisit.mode = .halted ∧ haltedVisit.arbiter.pass ≠ none ∧ (∃ m ∈ haltedVisit.moves, m.extending = true) :=
  ⟨by
    intro s hs
    rcases List.mem_cons.mp hs with h | hs
    · subst h; exact ⟨by decide +kernel, by decide, by decide, ⟨_, rfl⟩⟩
    rcases List.mem_cons.mp hs with h | hs
    · subst h; exact ⟨by decide +kernel, by decide, by decide, ⟨_, rfl⟩⟩
    rcases List.mem_cons.mp hs with h | hs
    · subst h; exact ⟨by decide +kernel, by decide, by decide, ⟨_, rfl⟩⟩
    · exact absurd hs (by simp), by decide, by decide, by decide, by decide, by decide⟩

/-- Three moves on a loop of three, each held up on the segment the next holds; none holds ahead. -/
def knot (seen : Bool) : State :=
  let m (k : SlotIx) (b : Nat) (r : List Nat) : Move := { mv k b r 0 0 0 .blocked with gridlocked := seen }
  { put (put (put { rail with segs := [seg 1 .plain [2], seg 2 .plain [3], seg 3 .plain [1]] }
      (m 4 5 [1, 2])) (m 7 6 [2, 3])) (m 9 8 [3, 1]) with arbiter := ⟨some [4, 7, 9], none, false, false⟩ }

/-- What the statement about rings asks beside that: slot 4 is granted nothing and is settled BLOCKED. -/
abbrev HeldUp (s : State) : Prop :=
  Visited s ∧ ∃ m ∈ s.move? 4, s.mayExtend m (m.h + 1) = false ∧ s.tableState m = .blocked

theorem test_hyp_ring : HeldUp ringed ∧ ringed.findRing 24 [4] 2 = some [4, 7]
    ∧ (∃ v ∈ ringed.moves, v.slot = 7 ∧ v.f < v.h ∧ v.shed = false)
    ∧ HeldUp (knot false) ∧ (knot false).findRing 24 [4] 2 = some [4, 7, 9]
    ∧ (∀ v ∈ (knot false).moves, v.f < v.h → v.shed = true) ∧ (∃ w ∈ (knot false).moves, w.gridlocked = false)
    ∧ HeldUp (knot true) ∧ (∀ w ∈ (knot true).moves, w.gridlocked = true)
    ∧ HeldUp (stand visiting 2 9) ∧ (stand visiting 2 9).findRing 24 [4] 2 = none := by decide +kernel

/-- Twenty-five moves on a loop, each held up on the segment of the next, and a check over the first 24 of them. -/
def longLoop : State :=
  let s := (List.range 25).foldl
    (fun s i => put s { mv (Fin.ofNat 32 i) (100 + i) [i + 1, (i + 1) % 25 + 1] 0 0 0 .blocked with admission := i })
    { rail with segs := (List.range 25).map (fun i => seg (i + 1) .plain [(i + 1) % 25 + 1]), lanes := State.reset.lanes }
  { s with arbiter := ⟨some [], some ⟨(List.range 24).map (Fin.ofNat 32), 25⟩, false, false⟩ }

/-- The two moves of a ring, a check between them, and the second one stalled since. -/
def stalledRing : State := ringed.request.request.stallMove 7

/-- What the statement about the links of a check asks of a state. -/
abbrev Checked (s : State) (chain : List SlotIx) (g : Nat) : Prop :=
  s.RunLaw ∧ s.AdmissionLaw ∧ s.mode = .running ∧ s.arbiter.pass ≠ none ∧ s.arbiter.check = some ⟨chain, g⟩

/-- A link with no holder, one that goes on, one that closes the ring, one that closes a ring stalled since, one whose
holder is not held up, and the twenty-fifth. -/
theorem test_hyp_links :
    Checked (stand visiting 2 9).request [4] 2 ∧ (stand visiting 2 9).request.holder 2 = none
    ∧ Checked ringed.request [4] 2 ∧ ringed.request.holder 2 = some 7
    ∧ (∃ x ∈ ringed.request.move? 7, ringed.request.heldUpOn x = some 1)
    ∧ Checked ringed.request.request [4, 7] 1 ∧ ringed.request.request.holder 1 = some 4
    ∧ (∀ a ∈ ([4, 7] : List SlotIx), ∃ x ∈ ringed.request.request.move? a, x.eligible = true)
    ∧ Checked stalledRing [4, 7] 1 ∧ stalledRing.holder 1 = some 4 ∧ (∃ x ∈ stalledRing.move? 7, x.eligible = false)
    ∧ Checked { running with arbiter := ⟨some [], some ⟨[9], 2⟩, false, false⟩ } [9] 2 ∧ running.holder 2 = some 4
    ∧ (∃ x ∈ running.move? 4, running.heldUpOn x = none)
    ∧ Checked longLoop ((List.range 24).map (Fin.ofNat 32)) 25 ∧ longLoop.holder 25 = some 24
    ∧ (∃ x ∈ longLoop.move? 24, longLoop.heldUpOn x = some 1) := by decide +kernel

theorem test_hyp_offer_check :
    (atBerth .offering).mode = .running ∧ (atBerth .offering).lanes[0].head? = some 4
    ∧ (∃ m, (atBerth .offering).move? 4 = some m ∧ (atBerth .offering).exitBeyond m = 2 ∧ 2 < m.route.length
        ∧ ∀ g ∈ m.span (m.h + 1) 2, (atBerth .offering).grantable m.token g = true)
    ∧ (∃ m, (stand (atBerth .offering) 21 9).move? 4 = some m
        ∧ ¬(∀ g ∈ m.span (m.h + 1) 2, (stand (atBerth .offering) 21 9).grantable m.token g = true)) :=
  ⟨by decide, by decide, ⟨_, rfl, by decide⟩, ⟨_, rfl, by decide⟩⟩

/-- A crossing that waits for its exit berth, open or taken, and a lane with none. -/
theorem test_hyp_rest_of_a_crossing :
    (crosser 1 1 1 .crossing true).mode = .running ∧ (crosser 1 1 1 .crossing true).lanes[0].state = .crossing
    ∧ (crosser 1 1 1 .crossing true).lanes[0].crossing = some ⟨4, true⟩
    ∧ (∃ m ∈ (crosser 1 1 1 .crossing true).move? 4, m.state = .crossing ∧ m.h = m.f
        ∧ (crosser 1 1 1 .crossing true).exitEntered m = 2 ∧ m.f < 2 ∧ 2 < m.route.length
        ∧ (∀ g ∈ m.span (m.h + 1) 2, (crosser 1 1 1 .crossing true).grantable m.token g = true)
        ∧ ¬(∀ g ∈ m.span (m.h + 1) 2, (stand (crosser 1 1 1 .crossing true) 21 9).grantable m.token g = true))
    ∧ (strandedLane .crossing).lanes[0].state = .faulted ∧ (strandedLane .crossing).lanes[0].cause = some .crossingLimit
    ∧ rail.awaitsRest 0 = none := by decide

theorem test_hyp_starts : blocking.mode = .blocking ∧ State.reset.mode = .starting ∧ rail.mode = .running
    ∧ halted.mode = .halted := by decide

/-- The code word 0 has no bit in error, one bit set is corrected, and two are not. -/
theorem test_hyp_code : judgeCode 0 = .clean 0 ∧ judgeCode (1#40 <<< 5) = .corrected 0
    ∧ judgeCode (1#40 <<< 5 ||| 1#40 <<< 39) = .uncorrectable := by decide

/-! ### Witnesses: the laws -/

theorem test_hyp_laws : running.MemoryLaw ∧ running.TableLaw ∧ running.CapacityLaw ∧ running.AdmissionLaw
    ∧ running.ModeLaw ∧ running.RunLaw ∧ running.SegLaw :=
  ⟨by decide, by decide, by decide, by decide, by decide, by decide, by decide⟩

theorem test_hyp_lane_laws : (crosser 0 0 2 .crossing false).TableLaw ∧ (crosser 0 0 2 .crossing false).RunLaw
    ∧ (crosser 0 0 2 .crossing false).LaneLaw ∧ (atBerth .offering).TableLaw ∧ (atBerth .offering).RunLaw
    ∧ (atBerth .offering).LaneLaw ∧ (leaving .crossing .crossing 1 true false).LaneLaw := by decide +kernel

theorem test_hyp_arbiter_laws : visiting.request.TableLaw ∧ visiting.request.RunLaw ∧ visiting.request.LaneLaw
    ∧ visiting.request.ArbiterLaw ∧ ringed.request.ArbiterLaw ∧ (turns [4, 9] .inPass true).ArbiterLaw
    ∧ (crosser 0 0 2 .crossing false).ArbiterLaw ∧ (atBerth .offering).ArbiterLaw := by decide +kernel

theorem test_hyp_lane_steps_go_on :
    (∃ t, step { crosser 0 0 2 .crossing false with pending := [.entryDeadlineLapse 0] } = .next t)
    ∧ (∃ t, step { atBerth .offering with pending := [.offerCheck 0] } = .next t)
    ∧ ∃ t, step visiting.request = .next t := ⟨⟨_, rfl⟩, ⟨_, rfl⟩, ⟨_, rfl⟩⟩

theorem test_hyp_step_goes_on : ∃ t, step { running with pending := [.silenceExpiry 4] } = .next t := ⟨_, rfl⟩

theorem test_hyp_place_law : rail.PlaceLaw := fun _ _ => trivial

theorem test_hyp_history : Instr.isStart .extensionPass = false ∧ rail.latched .restarted = true
    ∧ rail.takesKind .extensionPass (some .unfence) = false
    ∧ (order rail 3 4 0 0 0 [1] 0).takesKind (.unfence (oAddr 3 7) 9) (some .unfence) = true
    ∧ windows.includes ⟨.planner, 0x0C000, .eight, 0⟩ 0 = true := by decide

/-! ### Records and words the spec writes out (chapter 11) -/

theorem test_move_record_of_the_spec :
    orderRecord #v[0x01B92101, 0x16151403, 0, 0, 0, 0, 0, 5]
      = ⟨1, 1, 2, 441, 3, [20, 21, 22, 0, 0, 0, 0, 0, 0, 0, 0, 0], 0, 0⟩ := by decide

theorem test_go_word_of_the_spec : (Authority.go 2 22).word = 0x00160202 ∧ Authority.none.word = 0 := by decide

theorem test_tag_field_is_bits_7_to_0 : takes 0x00000100 0 = false ∧ takes 0x00000105 5 = false ∧ takes 0x105 4 = true := by
  decide

theorem test_verdict_word : (VerdictView.mk 10 22 3 3 true false false).word = 0x0133160A := by decide

theorem test_acceptance_word : (rail.updateReport 2 fun r =>
    { r with acceptance := .rejected .sequence, judgedTag := 9 }).acceptanceWord 2 = 0x00091303 := by decide

theorem test_summary_word : running.summaryWord = 0x00000009 ∧ (unswept.setFence [1, 3] .host).summaryWord = 0x00102001 := by
  decide

theorem test_lane_word : rail.laneWord = 0x00000001 ∧ (crosser 0 0 2 .crossing false).laneWord = 0x00000005 ∧ (strandedLane .crossing).laneWord = 0x9 := by
  decide

theorem test_health_word : rail.healthWord = 0x5C107000 ∧ State.reset.healthWord = 0 := by decide

/-! ### Single steps -/

/-- What a command leaves. -/
def after (c : Instr) (s : State) : State :=
  match exec c s with
  | .next t => t
  | .fault _ => s
  | .refused _ => s

theorem test_move_is_admitted : (after (.move (oAddr 3 7) 9) ready).verdictWord 3 = 0x2
    ∧ (after (.move (oAddr 3 7) 9) ready).authority 3 = .go 0 1 ∧ (after (.move (oAddr 3 7) 9) ready).holder 1 = some 3 := by
  decide

theorem test_visit_extends_to_the_berth :
    (after .extensionVisit { put rail (mv 4 5 [1, 2, 3, 20] 0 0 0 .blocked) with arbiter := ⟨some [4], none, false, false⟩ }).authority 4
      = .go 3 20 := by decide

/-- Between two grants of one visit a snapshot shows the first (R45). -/
theorem test_visit_grants_one_by_one : visiting.authority 4 = .go 0 1 ∧ visiting.request.authority 4 = .go 1 2
    ∧ visiting.request.request.authority 4 = .go 2 3 ∧ (∃ m ∈ visiting.request.request.move? 4, m.stack = [2, 1]) := by
  decide

/-- A check closes its ring and sheds a member, finds none through a member stalled since, and goes on past an end
(R57, R63). -/
theorem test_check_reads_moves_as_they_stand : ringed.request.request.request.gridlock = ⟨7, 2, false⟩
    ∧ stalledRing.request.gridlock = .empty ∧ (ringed.request.request.removeMove 4).arbiter.check = some ⟨[7], 1⟩
    ∧ (ringed.request.request.removeMove 7).arbiter.check = none := by decide

theorem test_visit_joins_the_berth_list :
    (after .extensionVisit { put rail (mv 4 5 [20, 30, 21] 0 0 0 .blocked) with arbiter := ⟨some [4], none, false, false⟩ }).lanes[0].lists[0]
      = [4] := by decide

theorem test_offer_check_grants : (after (.offerCheck 0) (atBerth .offering)).authority 4 = .go 2 21
    ∧ (after (.offerCheck 0) (atBerth .offering)).lanes[0].crossing = some ⟨4, false⟩ := by decide

theorem test_arrival_enters_the_crossing :
    (after (.arrived (rAddr 2 3) 9) (report (crosser 0 0 2 .crossing false) 2 1 5 30)).lanes[0].crossing = some ⟨4, true⟩
    ∧ (after (.arrived (rAddr 2 3) 9) (report (crosser 0 0 2 .crossing false) 2 1 5 30)).verdictWord 4 = 0x00210005 := by decide

/-- A crossing that waits for berth 21, its request still to be made, beside a move at 22 whose visit asks for 21. -/
def contest : State :=
  let s := crosser 1 1 1 .crossing true
  let segs := [seg 21 (.berth 0 1) [30, 22], seg 22 .plain [21]]
  { put { s with segs := s.segs.filter (fun g => g.id ≠ 21) ++ segs } (mv 7 6 [22, 21] 0 0 0 .blocked) with
    arbiter := ⟨some [7], none, false, false⟩
    crossingAsks := #v[true, false, false, false] }

/-- Either request comes first, and the other is refused (R10, R91). -/
theorem test_rest_and_extension_in_either_order : contest.dueSteps = [.rest 0, .request]
    ∧ (contest.makeAsk 0).request.holder 21 = some 4 ∧ (contest.makeAsk 0).request.authority 4 = .go 2 21
    ∧ (contest.request.makeAsk 0).holder 21 = some 7 ∧ (contest.request.makeAsk 0).authority 4 = .go 1 30 := by decide

theorem test_opening_asks_for_the_rest :
    (after (.left (rAddr 2 3) 9) (report (crosser 0 1 1 .crossing true) 2 2 5 20)).crossingAsks[0] = true := by decide

theorem test_left_at_the_last_position_ends_done :
    (after (.left (rAddr 2 3) 9) (report (put rail (mv 4 5 [1, 2] 0 1 1 .moving)) 2 2 5 1)).verdictWord 4 = 0x00110008 := by
  decide

theorem test_silence_stops_then_ends :
    (after (.silenceExpiry 4) running).authority 4 = .stop
    ∧ (after (.silenceExpiry 4) (after (.silenceExpiry 4) running)).verdictWord 4 = 0x0000110A := by decide

theorem test_denied_burst_counts_each_word :
    (after (.busWrite ⟨.field, 0x30001, 0xF, 1⟩) (after (.busWrite ⟨.field, 0x30000, 0xF, 1⟩) rail)).guardCapture
      = ⟨0x30000, .field, .write, 2⟩ := by decide

theorem test_field_address_bits_18_to_21_are_zero :
    (after (.noticeWordRead ⟨.field, 0x20C000, .one, 0⟩) rail).readData = 1
    ∧ (after (.noticeWordRead ⟨.planner, 0x20C000, .one, 0⟩) rail).readData = 0 := by decide

theorem test_planner_read_clears_the_notices :
    (after (.noticeWordRead ⟨.planner, 0x0C000, .one, 0⟩) rail).interruptLine = false
    ∧ (after (.noticeWordRead ⟨.field, 0x0C000, .one, 0⟩) rail).interruptLine = true := by decide

/-- A code word of an image word: the check byte by R185. -/
def codeWord (w : Nat) : CodeWord :=
  let c : CodeWord := BitVec.ofNat 40 w
  let c1 : CodeWord := c ||| (BitVec.ofNat 40 (syndrome c) <<< 32)
  if oddParity c1 then c1 ||| (1#40 <<< 38) else c1

/-- Two linked PLAIN segments, no lane, no guard, segment 2 fenced; TIMING at its defaults; a LABEL of revision 7. -/
def image : List CodeWord :=
  ([0x00000B01, 0x1234, 0x00010002, 0x0C000, 0x1FF, 0x0D000, 0x3F, 0x01000001, 2, 0x01000002, 1, 2] : List Nat).map codeWord
    ++ ([0x00000E02, 0x00031F40, 0xFFFF0A14] : List Nat).map codeWord
    ++ ((List.replicate 4 [0x001E0032, 0x005A0014, 0]).flatten : List Nat).map codeWord
    ++ ([0x00000103, 0x00071234] : List Nat).map codeWord

theorem test_image_loads : (after (.imageLoadEnd image) State.reset).mode = .running
    ∧ (after (.imageLoadEnd image) State.reset).health = some ⟨.ok, .ok, .ok, 0, 7⟩
    ∧ (after (.imageLoadEnd image) State.reset).fencedCount = 1
    ∧ (after (.imageLoadEnd image) State.reset).timing = Timing.default
    ∧ (after (.imageLoadEnd image) State.reset).notices = 1 := by decide +kernel

theorem test_absent_memory_blocks : (after (.imageLoadEnd []) State.reset).mode = .blocking
    ∧ (after (.imageLoadEnd []) State.reset).notices = 0x7 := by decide +kernel

theorem test_line_reset_restores : (after .lineReset running).notices = 1 ∧ (after .lineReset running).moves = []
    ∧ (after .lineReset running).occupant 1 = some (.bench 5) ∧ (after .lineReset running).unsurveyedCount = 6 := by decide

end Sys2Proof.Tests
end

section
/-!
PROOFS. The order-slot words of section 11.3: what a slot's link makes of its authority and its verdict (Tables 2.5 and
7.3), what a live move holds under the run law (R49, R34), and the fields of the verdict word (Table 11.5).
-/

open Sys2Proof Sys2Proof.Machine

namespace Sys2Proof.Machine

/-! ### The link of a slot (R135) -/

theorem State.link_of_move {s : State} {k : SlotIx} {m : Move} (hm : s.move? k = some m) :
    s.link k = .tableEntry m := by
  simp [State.link, hm]

theorem State.link_of_queued {s : State} {k : SlotIx} {q : QueuedOrder} (hm : s.move? k = none)
    (hq : s.queued? k = some q) : s.link k = .queueEntry q := by
  simp [State.link, hm, hq]

theorem State.live_eq_false_iff (s : State) (k : SlotIx) :
    s.live k = false ↔ s.move? k = none ∧ s.queued? k = none := by
  simp [State.live]

theorem State.link_of_not_live {s : State} {k : SlotIx} (h : s.live k = false) : s.link k = .absent := by
  obtain ⟨hm, hq⟩ := (s.live_eq_false_iff k).1 h
  simp [State.link, hm, hq]

/-- With no rail no slot is live (R23, R181). -/
theorem State.Bare.not_live {s : State} (h : s.Bare) (k : SlotIx) : s.live k = false := by
  obtain ⟨-, hmoves, hqueue, -⟩ := h
  simp [State.live, State.move?, State.queued?, hmoves, hqueue]

/-! ### The authority (Table 2.5) -/

theorem State.authority_of_move {s : State} {k : SlotIx} {m : Move} (hm : s.move? k = some m) :
    s.authority k = m.authority s.mode := by
  simp [State.authority, State.link_of_move hm]

theorem State.authority_of_queued {s : State} {k : SlotIx} {q : QueuedOrder} (hm : s.move? k = none)
    (hq : s.queued? k = some q) (hmode : s.mode = .running ∨ s.mode = .halted) : s.authority k = .hold := by
  rcases hmode with h | h <;> simp [State.authority, State.link_of_queued hm hq, h]

theorem State.authority_of_not_live {s : State} {k : SlotIx} (h : s.live k = false) : s.authority k = .none := by
  simp [State.authority, State.link_of_not_live h]

theorem Move.authority_of_stopping {mode : Mode} {m : Move} (hmode : mode = .running ∨ mode = .halted)
    (h : m.state = .stopping) : m.authority mode = .stop := by
  rcases hmode with rfl | rfl <;> simp [Move.authority, h]

theorem Move.authority_of_stalled {mode : Mode} {m : Move} (hmode : mode = .running ∨ mode = .halted)
    (h : m.state = .stalled) : m.authority mode = .hold := by
  rcases hmode with rfl | rfl <;> simp [Move.authority, h]

theorem Move.authority_halted {m : Move} (h : m.state ≠ .stopping) : m.authority .halted = .hold := by
  cases hs : m.state <;> simp_all [Move.authority]

theorem Move.authority_running {m : Move} (h1 : m.state ≠ .stopping) (h2 : m.state ≠ .stalled) :
    m.authority .running = .go m.h (m.seg m.h) := by
  cases hs : m.state <;> simp_all [Move.authority]

/-- GO is shown in RUNNING mode alone, and names the move's own horizon (R34). -/
theorem Move.eq_of_authority_go {mode : Mode} {m : Move} {h g : Nat} (hgo : m.authority mode = .go h g) :
    mode = .running ∧ m.h = h ∧ m.seg m.h = g := by
  cases mode with
  | starting => cases hgo
  | blocking => cases hgo
  | halted =>
    by_cases hstop : m.state = .stopping
    · simp [Move.authority_of_stopping (.inr rfl) hstop] at hgo
    · simp [Move.authority_halted hstop] at hgo
  | running =>
    by_cases hstop : m.state = .stopping
    · simp [Move.authority_of_stopping (.inl rfl) hstop] at hgo
    by_cases hstall : m.state = .stalled
    · simp [Move.authority_of_stalled (.inl rfl) hstall] at hgo
    rw [Move.authority_running hstop hstall] at hgo
    obtain ⟨hh, hg⟩ := Authority.go.inj hgo
    exact ⟨rfl, hh, hg⟩

/-- A slot that shows GO has a live move, whose authority it is (R34). -/
theorem State.move_of_authority_go {s : State} {k : SlotIx} {h g : Nat} (hgo : s.authority k = .go h g) :
    ∃ m, s.move? k = some m ∧ m.authority s.mode = .go h g := by
  cases hm : s.move? k with
  | some m => exact ⟨m, rfl, State.authority_of_move hm ▸ hgo⟩
  | none =>
    cases hq : s.queued? k with
    | some q => cases hmode : s.mode <;> simp [State.authority, State.link_of_queued hm hq, hmode] at hgo
    | none =>
      rw [State.authority_of_not_live ((s.live_eq_false_iff k).2 ⟨hm, hq⟩)] at hgo
      cases hgo

/-! ### What a live move holds (R26, R49) -/

/-- A route the check passes has 2 to 12 entries, each a configured segment (R26). -/
theorem State.RouteLaw.bounds {s : State} {route : List Nat} (h : s.RouteLaw route) :
    2 ≤ route.length ∧ route.length ≤ 12 ∧ ∀ g ∈ route, s.configured g = true := by
  simp only [State.RouteLaw, State.routeOk, Bool.and_eq_true, decide_eq_true_eq, List.all_eq_true] at h
  obtain ⟨⟨⟨⟨⟨⟨⟨hmin, hmax⟩, -⟩, hconf⟩, -⟩, -⟩, -⟩, -⟩ := h
  exact ⟨hmin, hmax, hconf⟩

/-- The laws of a live move, found by its slot (R26, R49). -/
theorem State.RunLaw.of_move {s : State} (h : s.RunLaw) {k : SlotIx} {m : Move} (hm : s.move? k = some m) :
    s.RouteLaw m.route ∧ m.IndexLaw ∧ m.StackLaw := by
  obtain ⟨-, -, hmoves, -, -⟩ := h
  exact hmoves m (State.move?_some hm).2

theorem Move.seg_mem_route {m : Move} {i : Nat} (h : i < m.route.length) : m.seg i ∈ m.route := by
  rw [Move.seg, List.getD_eq_getElem _ _ h]
  exact List.getElem_mem h

theorem Move.seg_mem_span {m : Move} {a b i : Nat} (ha : a ≤ i) (hb : i ≤ b) (h : i < m.route.length) :
    m.seg i ∈ m.span a b := by
  rw [Move.seg, List.getD_eq_getElem _ _ h, Move.span, List.mem_take_iff_getElem]
  refine ⟨i - a, by simp only [List.length_drop]; omega, ?_⟩
  simp [Nat.add_sub_cancel' ha]

/-- A live move is the recorded holder of each of its route positions t to h (R49). -/
theorem State.RunLaw.holder_seg {s : State} (h : s.RunLaw) {k : SlotIx} {m : Move} (hm : s.move? k = some m) {i : Nat}
    (ht : m.t ≤ i) (hh : i ≤ m.h) : s.holder (m.seg i) = some k := by
  obtain ⟨hroute, ⟨-, -, hlen, -⟩, -⟩ := h.of_move hm
  obtain ⟨-, -, -, -, hhold⟩ := h
  obtain ⟨-, -, hconf⟩ := hroute.bounds
  have hi : i < m.route.length := by omega
  obtain ⟨r, hr⟩ := Option.isSome_iff_exists.1 (hconf _ (Move.seg_mem_route hi))
  obtain ⟨hid, hmem⟩ := State.seg?_some hr
  obtain ⟨hslot, hm'⟩ := State.move?_some hm
  have hspan : s.spans k r.id := ⟨m, hm', hslot, hid ▸ Move.seg_mem_span ht hh hi⟩
  simpa [State.holder, hr] using (hhold r hmem k).2 hspan

/-- R34: where the holds agree with the moves, a GO names a segment its move holds. -/
theorem State.RunLaw.goLaw {s : State} (hrun : s.RunLaw) : s.GoLaw := by
  intro k h g hgo
  obtain ⟨m, hm, hauth⟩ := State.move_of_authority_go hgo
  obtain ⟨hmode, rfl, rfl⟩ := Move.eq_of_authority_go hauth
  obtain ⟨-, ⟨htf, hfh, -, -⟩, -⟩ := hrun.of_move hm
  exact ⟨hmode, m, hm, rfl, rfl, hrun.holder_seg hm (htf.trans hfh) le_rfl⟩

/-! ### The verdict (Tables 7.3, 11.5 and 11.8) -/

/-- The parts of a verdict fit the bits that Table 11.5 gives them. -/
def VerdictView.Fits (v : VerdictView) : Prop := v.state < 32 ∧ v.reason < 32 ∧ v.front < 16 ∧ v.horizon < 16

/-- The verdict word shows each part of a verdict that fits in its own field (Table 11.5). -/
theorem VerdictView.Fits.fields {v : VerdictView} (h : v.Fits) :
    verdictFields v.word v.state v.reason v.front v.horizon v.overrun v.token v.gridlocked := by
  obtain ⟨hstate, hreason, hfront, hhorizon⟩ := h
  have hoverrun := v.overrun.toNat_lt
  have htoken := v.token.toNat_lt
  have hgridlocked := v.gridlocked.toNat_lt
  simp only [verdictFields, field, VerdictView.word, BitVec.toNat_ofNat]
  omega

theorem MoveState.code_lt (x : MoveState) : x.code < 32 := by cases x <;> decide

theorem RefuseReason.code_lt (r : RefuseReason) : r.code < 32 := by cases r <;> decide

theorem StopReason.code_lt (r : StopReason) : r.code < 32 := by cases r <;> decide

/-- A kept verdict fits its word when its front index is one of a route (Tables 7.3 and 11.5). -/
theorem Verdict.view_fits {v : Verdict} {overrun : Bool} (h : (v.view overrun).front ≤ 11) : (v.view overrun).Fits := by
  cases v with
  | free => simp [Verdict.view, VerdictView.Fits]
  | applied => simp [Verdict.view, VerdictView.Fits]
  | refused r => simp [Verdict.view, VerdictView.Fits, r.code_lt]
  | done f => simp only [Verdict.view, VerdictView.Fits] at h ⊢; omega
  | cancelled f => simp only [Verdict.view, VerdictView.Fits] at h ⊢; omega
  | stopped f r =>
    have hcode := r.code_lt
    simp only [Verdict.view, VerdictView.Fits] at h ⊢; omega

theorem State.verdictView_of_move {s : State} {k : SlotIx} {m : Move} (hm : s.move? k = some m) :
    s.verdictView k = ⟨m.state.code, 0, m.f, m.h, s.orders[k].overrun, m.token, m.gridlocked⟩ := by
  simp only [State.verdictView, State.link_of_move hm]

theorem State.verdictView_of_queued {s : State} {k : SlotIx} {q : QueuedOrder} (hm : s.move? k = none)
    (hq : s.queued? k = some q) : s.verdictView k = ⟨1, 0, 0, 0, s.orders[k].overrun, false, false⟩ := by
  simp only [State.verdictView, State.link_of_queued hm hq]

theorem State.verdictView_of_not_live {s : State} {k : SlotIx} (h : s.live k = false) :
    s.verdictView k = s.orders[k].verdict.view s.orders[k].overrun := by
  simp only [State.verdictView, State.link_of_not_live h]

theorem State.verdictFields_of_view {s : State} {k : SlotIx} {v : VerdictView} (hview : s.verdictView k = v)
    (hfits : v.Fits) :
    verdictFields (s.verdictWord k) v.state v.reason v.front v.horizon v.overrun v.token v.gridlocked := by
  rw [State.verdictWord, hview]
  exact hfits.fields

/-- A live move shows its own state and indices, which its route keeps within 0 to 11 (R26, R145). -/
theorem State.verdictFields_of_move {s : State} (h : s.RunLaw) {k : SlotIx} {m : Move} (hm : s.move? k = some m) :
    verdictFields (s.verdictWord k) m.state.code 0 m.f m.h s.orders[k].overrun m.token m.gridlocked := by
  obtain ⟨hroute, ⟨-, hfh, hlen, -⟩, -⟩ := h.of_move hm
  obtain ⟨-, hmax, -⟩ := hroute.bounds
  have hhorizon : m.h < 16 := by omega
  exact State.verdictFields_of_view (State.verdictView_of_move hm)
    ⟨m.state.code_lt, Nat.zero_lt_succ _, hfh.trans_lt hhorizon, hhorizon⟩

theorem State.verdictFields_of_queued {s : State} {k : SlotIx} {q : QueuedOrder} (hm : s.move? k = none)
    (hq : s.queued? k = some q) : verdictFields (s.verdictWord k) 1 0 0 0 s.orders[k].overrun false false :=
  State.verdictFields_of_view (State.verdictView_of_queued hm hq) (by simp [VerdictView.Fits])

/-- The kept verdict of a slot that no entry is linked to, part by part (R144). -/
theorem State.verdictFields_of_not_live {s : State} {k : SlotIx} {v : Verdict} {x : VerdictView}
    (h : s.live k = false) (hv : s.orders[k].verdict = v) (hx : v.view s.orders[k].overrun = x) (hfront : x.front ≤ 11) :
    verdictFields (s.verdictWord k) x.state x.reason x.front x.horizon x.overrun x.token x.gridlocked := by
  subst hv hx
  exact State.verdictFields_of_view (State.verdictView_of_not_live h) (Verdict.view_fits hfront)

/-- Settles O16: the authority by the link's case, GO by the run law, the verdict by the link's case. -/
theorem verdictAndAuthorityByTables : Obligations.VerdictAndAuthorityByTables := by
  refine ⟨fun s k => ⟨?liveAuthority, ?queued, ?idle, ?bare, rfl, rfl, State.RunLaw.goLaw, ?liveVerdict, ?queuedVerdict,
    ?keptVerdict⟩, rfl, rfl⟩
  case liveAuthority =>
    intro m hm hmode
    rw [State.authority_of_move hm]
    exact ⟨Move.authority_of_stopping hmode, Move.authority_of_stalled hmode,
      fun hstop _ hhalt => hhalt ▸ Move.authority_halted hstop,
      fun hstop hstall hrun => hrun ▸ Move.authority_running hstop hstall⟩
  case queued => exact fun q => State.authority_of_queued
  case idle => exact State.authority_of_not_live
  case bare => exact fun hbare hmode => State.authority_of_not_live ((hbare hmode).not_live k)
  case liveVerdict => exact fun hrun m => State.verdictFields_of_move hrun
  case queuedVerdict => exact fun q => State.verdictFields_of_queued
  case keptVerdict =>
    intro hlive
    cases hv : s.orders[k].verdict with
    | free => exact State.verdictFields_of_not_live hlive hv rfl (Nat.zero_le _)
    | applied => exact State.verdictFields_of_not_live hlive hv rfl (Nat.zero_le _)
    | refused r => exact State.verdictFields_of_not_live hlive hv rfl (Nat.zero_le _)
    | done f => exact State.verdictFields_of_not_live hlive hv rfl
    | cancelled f => exact State.verdictFields_of_not_live hlive hv rfl
    | stopped f r => exact State.verdictFields_of_not_live hlive hv rfl

end Sys2Proof.Machine
end


section
/-!
PROOFS. Writes to order slots: the judgement of a written word of an order slot (R153, R155) and the partial write of
its tag (R138).
-/

open Sys2Proof Sys2Proof.Machine

namespace Sys2Proof.Machine

/-! ### The judgement of a written word (R153, R155) -/

theorem effAddr_planner (a : WordAddr) : effAddr .planner a = a := rfl

theorem State.writeCase_of_windows {s : State} {ws : Windows} (hws : s.windows = some ws) (w : WriteWord) :
    s.writeCase w = ws.writeCase w.master w.lanes (effAddr w.master w.addr) := by
  simp only [State.writeCase, hws]

/-- A word of an order slot that the guards let pass is judged by Table 8.1. -/
theorem Windows.writeCase_of_orderWord {ws : Windows} {m : Master} {a : WordAddr} {k : SlotIx} {i : Fin 8}
    (hpermit : ws.denies m .write a = false) (hword : ws.region a = .orderWord k i) (lanes : Lanes) :
    ws.writeCase m lanes a = orderWrite m lanes k i := by
  simp [Windows.writeCase, hpermit, hword]

theorem orderWrite_partialTag {lanes : Lanes} (hpartial : lanes ≠ allLanes) (k : SlotIx) :
    orderWrite .planner lanes k 7 = .partialTag := by
  simp [orderWrite, hpartial]

/-! ### The partial write of a tag (R138, R156) -/

theorem State.busWrite_of_partialTag {s : State} {w : WriteWord} (hcase : s.writeCase w = .partialTag) :
    s.busWrite w = s.notify .partialTag := by
  simp only [State.busWrite, hcase]

theorem exec_partialTagWrite (w : WriteWord) (s : State) : exec (.partialTagWrite w) s = .next (s.busWrite w) := by
  rfl

/-- Settles O10: the guards permit the word, Table 8.1 judges it a partial tag, and the path only latches the notice. -/
theorem partialTagIsSuppressed : Obligations.PartialTagIsSuppressed := by
  intro w s ws k hws hplanner hpermit hword hpartial
  have hcase : s.writeCase w = .partialTag :=
    calc s.writeCase w
      _ = ws.writeCase .planner w.lanes w.addr := by rw [State.writeCase_of_windows hws, hplanner, effAddr_planner]
      _ = orderWrite .planner w.lanes k 7 := Windows.writeCase_of_orderWord hpermit hword w.lanes
      _ = .partialTag := orderWrite_partialTag hpartial k
  rw [exec_partialTagWrite, State.busWrite_of_partialTag hcase, State.notify]

end Sys2Proof.Machine
end


section
/-!
PROOFS. The interrupt line as a level over the two notice sets (R167): a common bit of two words, the cause of each bit
(Table 11.9), and the line while STARTING.
-/

open Sys2Proof Sys2Proof.Machine

namespace Sys2Proof.Machine

/-! ### Bits and causes (Table 11.9) -/

/-- The sixteen causes fill the sixteen bits of a notice set: no bit of it is without its cause. -/
theorem Notice.exists_bit_eq : ∀ i < 16, ∃ n : Notice, n.bit = i
  | 0, _ => ⟨.restarted, rfl⟩
  | 1, _ => ⟨.imageWarning, rfl⟩
  | 2, _ => ⟨.imageFault, rfl⟩
  | 3, _ => ⟨.orderRefused, rfl⟩
  | 4, _ => ⟨.slotOverrun, rfl⟩
  | 5, _ => ⟨.partialTag, rfl⟩
  | 6, _ => ⟨.moveDone, rfl⟩
  | 7, _ => ⟨.moveStopped, rfl⟩
  | 8, _ => ⟨.stall, rfl⟩
  | 9, _ => ⟨.intrusion, rfl⟩
  | 10, _ => ⟨.vanished, rfl⟩
  | 11, _ => ⟨.gridlock, rfl⟩
  | 12, _ => ⟨.laneFault, rfl⟩
  | 13, _ => ⟨.laneStandoff, rfl⟩
  | 14, _ => ⟨.guardDenied, rfl⟩
  | 15, _ => ⟨.reportRejected, rfl⟩
  | _ + 16, h => absurd h (by omega)

theorem and_ne_zero_iff_common_bit {w : Nat} (x y : BitVec w) :
    x &&& y ≠ 0 ↔ ∃ i < w, x.getLsbD i = true ∧ y.getLsbD i = true := by
  simp [BitVec.eq_of_getLsbD_eq_iff]

/-! ### The line (R167) -/

theorem State.interruptLine_iff_ne_zero (s : State) : s.interruptLine = true ↔ s.notices &&& s.enable ≠ 0 := by
  simp [State.interruptLine]

theorem State.interruptLine_iff_common_cause (s : State) :
    s.interruptLine = true ↔ ∃ n : Notice, s.latched n = true ∧ s.enable.getLsbD n.bit = true := by
  rw [State.interruptLine_iff_ne_zero, and_ne_zero_iff_common_bit]
  constructor
  · rintro ⟨i, hi, hlatched, henabled⟩
    obtain ⟨n, rfl⟩ := Notice.exists_bit_eq i hi
    exact ⟨n, hlatched, henabled⟩
  · rintro ⟨n, hlatched, henabled⟩
    exact ⟨n.bit, BitVec.lt_of_getLsbD hlatched, hlatched, henabled⟩

theorem State.interruptLine_of_no_notices {s : State} (h : s.notices = 0) : s.interruptLine = false := by
  simp [State.interruptLine, h]

/-- Settles O4: a common bit of the two sets is a common cause, and the notice set of a part in STARTING is empty. -/
theorem interruptLineIsTheCommonCause : Obligations.InterruptLineIsTheCommonCause := by
  intro s
  refine ⟨s.interruptLine_iff_common_cause, fun hlaw hstarting => ?_⟩
  obtain ⟨-, hnotices, -⟩ := hlaw hstarting
  exact State.interruptLine_of_no_notices hnotices

end Sys2Proof.Machine
end


section
/-!
PROOFS. The step, the reset and the starts (section 10.4): what the step takes when commands wait and when none does,
and the exact states that power-on and the reset input leave.
-/

open Sys2Proof Sys2Proof.Machine

namespace Sys2Proof.Machine

/-! ### The step (R10, R93, R178) -/

theorem step_of_pending (c : Instr) (rest : List Instr) (s : State) :
    step { s with pending := c :: rest } = exec c { s with pending := rest } := by
  simp [step]

theorem step_of_idle {s : State} (h : s.pending = []) : step s = s.ownStep := by
  simp [step, h]

theorem State.ownStep_of_nothing_due {s : State} (h : s.dueSteps = []) : s.ownStep = .next s.clockCycle := by
  simp [State.ownStep, h]

/-- With steps due, the own step is one of them, over a count of choices (assumption 3). -/
theorem State.ownStep_of_due {s : State} (h : s.dueSteps ≠ []) :
    ∃ d ∈ s.dueSteps, ∃ n, s.ownStep = { s with picks := n }.takeOwn d := by
  unfold State.ownStep
  split
  case h_1 heq => exact absurd heq h
  case h_2 d heq => exact ⟨d, by simp [heq], s.picks, rfl⟩
  case h_3 d e rest heq =>
    have hlt : Config.freePick s.picks % (d :: e :: rest).length < (d :: e :: rest).length := Nat.mod_lt _ (by simp)
    refine ⟨(d :: e :: rest)[Config.freePick s.picks % (d :: e :: rest).length], ?_, s.picks + 1, ?_⟩
    · rw [heq]
      exact List.getElem_mem hlt
    · simp only [State.takeDue, List.getElem?_eq_getElem hlt]

theorem State.clockCycle_eq (s : State) :
    s.clockCycle = if s.clockCount + 1 < s.timing.prescale then { s with clockCount := s.clockCount + 1 }
      else { s with clockCount := 0, moves := s.moves.map Move.tick, lanes := s.lanes.map Lane.tick } := by
  unfold State.clockCycle
  by_cases h : s.clockCount + 1 < s.timing.prescale
  · rw [if_neg (Nat.not_le.2 h), if_pos h]
  · rw [if_pos (Nat.not_lt.1 h), if_neg h]

theorem State.rest_mem_dueSteps {s : State} {l : LaneIx} (h : s.crossingAsks[l] = true) : .rest l ∈ s.dueSteps := by
  have hrest : OwnStep.rest l ∈ s.restDueSteps l := by simp [State.restDueSteps, h]
  have hmem : OwnStep.rest l ∈ s.restDueSteps 0 ++ s.restDueSteps 1 ++ s.restDueSteps 2 ++ s.restDueSteps 3 := by
    fin_cases l <;> simp at hrest ⊢ <;> tauto
  exact List.mem_append_left _ (List.mem_append_right _ hmem)

theorem State.request_mem_dueSteps {s : State} (h : s.arbiter.pass ≠ none) : .request ∈ s.dueSteps := by
  have hreq : OwnStep.request ∈ s.arbiterDueSteps := by
    simp [State.arbiterDueSteps, Option.isSome_iff_ne_none.2 h]
  exact List.mem_append_right _ hreq

/-- Settles O1: the front command is run on the rest of the queue. -/
theorem stepRunsTheFrontCommand : Obligations.StepRunsTheFrontCommand := step_of_pending

/-- Settles O2: by what is due: nothing, or at least one step. -/
theorem ownStepIsADueStepOrAClockCycle : Obligations.OwnStepIsADueStepOrAClockCycle := by
  intro s hidle
  rw [step_of_idle hidle]
  refine ⟨fun hnone => ?_, State.ownStep_of_due, fun _ => rfl, rfl, fun _ => rfl, fun _ => State.rest_mem_dueSteps,
    State.request_mem_dueSteps⟩
  rw [State.ownStep_of_nothing_due hnone, State.clockCycle_eq]

/-! ### The reset and the starts (R165, R173, R181 to R183) -/

theorem State.reset_order (k : SlotIx) : State.reset.orders[k] = .fresh := by
  simp [State.reset]

theorem State.reset_report (j : ReportIx) : State.reset.reports[j] = .fresh := by
  simp [State.reset]

theorem State.reset_lane (l : LaneIx) : State.reset.lanes[l] = .fresh none := by
  simp [State.reset]

/-- Settles O3: every field of the reset state by its definition. -/
theorem resetHoldsNoState : Obligations.ResetHoldsNoState :=
  ⟨rfl, rfl, rfl, rfl, rfl, rfl, rfl, rfl, rfl, rfl, rfl, rfl, rfl, rfl, rfl, rfl, State.reset_order, State.reset_report,
    fun l => by rw [State.reset_lane]; exact ⟨rfl, rfl⟩⟩

theorem State.lineReset_of_not_working {s : State} (h : s.mode = .blocking ∨ s.mode = .starting) :
    s.lineReset = s.beginLoad := by
  rcases h with h | h <;> simp [State.lineReset, h]

theorem State.lineReset_of_working {s : State} (h : s.mode = .running ∨ s.mode = .halted) :
    s.lineReset = s.warmReset := by
  rcases h with h | h <;> simp [State.lineReset, h]

/-- Settles O47: both starts are `beginLoad`. -/
theorem fullLoadBeginsWithNothing : Obligations.FullLoadBeginsWithNothing := fun _ =>
  ⟨rfl, fun h => congrArg Host.Outcome.next (State.lineReset_of_not_working h)⟩

/-- The notices of a start with no finding of the load (R165). -/
theorem startNotices_none : startNotices false false = Notice.mask .restarted := by decide

/-- Settles O48: in the two working modes the reset input is the warm reset. -/
theorem lineResetKeepsTheConfiguration : Obligations.LineResetKeepsTheConfiguration := by
  intro s h
  show Host.Outcome.next s.lineReset = _
  rw [State.lineReset_of_working h, State.warmReset, startNotices_none]
  rfl

end Sys2Proof.Machine
end


section
/-!
PROOFS. Writes (chapter 8): what the path makes of a written word in each of its cases, the rings by Table 8.1, and
the board memory by byte lanes.
-/

open Sys2Proof Sys2Proof.Machine

namespace Sys2Proof.Machine

/-! ### What kind of command each row is (assumptions 1 and 8) -/

/-- A row that carries a write transfer is that transfer (assumption 1). -/
theorem exec_of_write {c : Instr} {w : WriteWord} (h : Instr.write? c = some w) (s : State) :
    exec c s = .next (s.busWrite w) := by
  cases c <;> simp only [Instr.write?, Option.some.injEq, reduceCtorEq] at h <;> subst h
  case move a t => exact congrArg _ (s.orderRow_eq_busWrite (some .move) a t)
  case cancel a t => exact congrArg _ (s.orderRow_eq_busWrite (some .cancel) a t)
  case fence a t => exact congrArg _ (s.orderRow_eq_busWrite (some .fence) a t)
  case unfence a t => exact congrArg _ (s.orderRow_eq_busWrite (some .unfence) a t)
  case vouch a t => exact congrArg _ (s.orderRow_eq_busWrite (some .vouch) a t)
  case token a t => exact congrArg _ (s.orderRow_eq_busWrite (some .token) a t)
  case laneClear a t => exact congrArg _ (s.orderRow_eq_busWrite (some .laneClear) a t)
  case stopAll a t => exact congrArg _ (s.orderRow_eq_busWrite (some .stopAll) a t)
  case resume a t => exact congrArg _ (s.orderRow_eq_busWrite (some .resume) a t)
  case noticeMask a t => exact congrArg _ (s.orderRow_eq_busWrite (some .noticeMask) a t)
  case orderOfUnknownKind a t => exact congrArg _ (s.orderRow_eq_busWrite none a t)
  case arrived a t => exact congrArg _ (s.reportRow_eq_busWrite (some .arrived) a t)
  case left a t => exact congrArg _ (s.reportRow_eq_busWrite (some .left) a t)
  case stalled a t => exact congrArg _ (s.reportRow_eq_busWrite (some .stalled) a t)
  case halted a t => exact congrArg _ (s.reportRow_eq_busWrite (some .halted) a t)
  case seen a t => exact congrArg _ (s.reportRow_eq_busWrite (some .seen) a t)
  case empty a t => exact congrArg _ (s.reportRow_eq_busWrite (some .empty) a t)
  case reportOfUnknownKind a t => exact congrArg _ (s.reportRow_eq_busWrite none a t)
  all_goals rfl

/-- A row that carries a read transfer is that transfer (assumption 8). -/
theorem exec_of_read {c : Instr} {r : ReadWord} (h : Instr.read? c = some r) (s : State) :
    exec c s = .next (s.readWord r) := by
  cases c <;> simp only [Instr.read?, Option.some.injEq, reduceCtorEq] at h <;> subst h <;> rfl

/-- A command that is no transfer and no start keeps what no rail block changes. -/
theorem exec_of_own {c : Instr} (hw : Instr.write? c = none) (hr : Instr.read? c = none) (hs : Instr.isStart c = false)
    (s : State) : ∃ t, exec c s = .next t ∧ Kept s t := by
  cases c <;> simp only [Instr.write?, Instr.read?, Instr.isStart, reduceCtorEq] at hw hr hs
  case silenceExpiry k => exact ⟨_, rfl, (State.announce_steady _ _).toKept.after (s.silenceExpiry_kept k)⟩
  case backoffExpiry k => exact ⟨_, rfl, ((State.announce_steady _ _).after (s.backoffExpiry_steady k)).toKept⟩
  case offerLapse l => exact ⟨_, rfl, ((State.announce_steady _ _).after (s.offerLapse_steady l)).toKept⟩
  case entryDeadlineLapse l => exact ⟨_, rfl, ((State.announce_steady _ _).after (s.entryDeadlineLapse_steady l)).toKept⟩
  case crossingLimitExpiry l => exact ⟨_, rfl, ((State.announce_steady _ _).after (s.crossingLimitExpiry_steady l)).toKept⟩
  case settleExpiry l => exact ⟨_, rfl, ((State.announce_steady _ _).after (s.settleExpiry_steady l)).toKept⟩
  case releaseExpiry l => exact ⟨_, rfl, ((State.announce_steady _ _).after (s.releaseExpiry_steady l)).toKept⟩
  case extensionPass => exact ⟨_, rfl, s.startPass_steady.toKept⟩
  case extensionVisit => exact ⟨_, rfl, ((State.announce_steady _ _).after s.visit_steady).toKept⟩
  case offerCheck l => exact ⟨_, rfl, (s.offerCheck_steady l).toKept⟩

/-- A start changes no memory. -/
theorem exec_of_start {c : Instr} (hs : Instr.isStart c = true) (s : State) : ∃ t, exec c s = .next t ∧ t.mem = s.mem := by
  cases c <;> simp only [Instr.isStart, reduceCtorEq] at hs
  case powerOn => exact ⟨_, rfl, rfl⟩
  case lineReset => exact ⟨_, rfl, by unfold State.lineReset; split <;> rfl⟩
  case imageLoadEnd code => exact ⟨_, rfl, by unfold State.imageLoadEnd; split <;> rfl⟩

/-- Settles O5: the row and the bus write are the same transfer. -/
theorem rowsAreTheirBusWrites : Obligations.RowsAreTheirBusWrites :=
  fun _ _ s h => exec_of_write h s

/-! ### A written word in each of its cases (R151, R153 to R156) -/

section cases
variable {s : State} {w : WriteWord}

theorem State.busWrite_of_passes (h : s.writeCase w = .passes) : s.busWrite w = s.storeWord w := by
  simp only [State.busWrite, h]

theorem State.busWrite_of_suppressed (h : s.writeCase w = .suppressed) : s.busWrite w = s := by
  simp only [State.busWrite, h]

theorem State.busWrite_of_denied (h : s.writeCase w = .denied) :
    s.busWrite w = s.deny (effAddr w.master w.addr) w.master .write := by
  simp only [State.busWrite, h]

theorem State.busWrite_of_mergeOrder {k : SlotIx} {i : Fin 8} (h : s.writeCase w = .mergeOrder k i) :
    s.busWrite w = (s.storeWord w).mergeOrderWord k i w.lanes w.data := by
  simp only [State.busWrite, h]

theorem State.busWrite_of_mergeReport {j : ReportIx} {i : Fin 4} (h : s.writeCase w = .mergeReport j i) :
    s.busWrite w = (s.storeWord w).mergeReportWord j i w.lanes w.data := by
  simp only [State.busWrite, h]

theorem State.busWrite_of_orderTag {k : SlotIx} (h : s.writeCase w = .orderTag k) :
    s.busWrite w = (s.storeWord w).orderTagWrite (carryOrder (s.kindOf k)) k w.data := by
  simp only [State.busWrite, h]

theorem State.busWrite_of_reportTag {j : ReportIx} (h : s.writeCase w = .reportTag j) :
    s.busWrite w = (s.storeWord w).reportTagWrite (carryReport (s.reportKindOf j)) j w.data := by
  simp only [State.busWrite, h]

end cases

/-- A tag that is 0 or the last-taken one takes nothing (R96, R137). -/
theorem takes_eq_false {w : Word} {last : Byte} (h : tagOf w = 0 ∨ tagOf w = last) : takes w last = false := by
  rcases h with h | h <;> simp [takes, h]

theorem State.storeWord_eq (s : State) (w : WriteWord) :
    s.storeWord w = { s with mem := memWrite s.mem (effAddr w.master w.addr) w.lanes w.data } := rfl

/-! ### The judgement by region (R152, R155, Table 8.1) -/

section region
variable {s : State} {w : WriteWord} {ws : Windows}

theorem State.writeCase_of_region (hws : s.windows = some ws)
    (hpermit : ws.denies w.master .write (effAddr w.master w.addr) = false) :
    s.writeCase w = match ws.region (effAddr w.master w.addr) with
      | .outside => .passes
      | .header _ => .suppressed
      | .orderWord k i => orderWrite w.master w.lanes k i
      | .orderPlain => .passes
      | .reportWord j i => reportWrite w.master w.lanes j i := by
  rw [State.writeCase_of_windows hws]
  simp only [Windows.writeCase, hpermit]
  rfl

/-- Settles O6: the word passes, with no window known or with a permitted word of plain memory. -/
theorem plainWriteReachesMemoryAlone : Obligations.PlainWriteReachesMemoryAlone := by
  intro w s h
  have hpasses : s.writeCase w = .passes := by
    cases hws : s.windows with
    | none => simp only [State.writeCase, hws]
    | some ws =>
      rw [hws] at h
      obtain ⟨hpermit, hout | hplain⟩ := h
      · rw [State.writeCase_of_region hws hpermit, hout]
      · rw [State.writeCase_of_region hws hpermit, hplain]
  rw [exec_of_write (c := .busWrite w) rfl, State.busWrite_of_passes hpasses, State.storeWord_eq]

end region

/-! ### Byte lanes (R151, R136, R156) -/

theorem byteKey_inj {a : WordAddr} {i j : Nat} (h : byteKey a i = byteKey a j) : i = j := by
  unfold byteKey at h
  omega

/-- A written lane, after the store of one lane of the word. -/
theorem memByte_memWriteLane_same (m : List Host.Cell) (a : WordAddr) (lanes : Lanes) (d : Word) (i : Nat)
    (h : Memory.wf m = true) :
    memByte (memWriteLane m a lanes d i) (byteKey a i)
      = if lanes.getLsbD i = true then byteOf d i else memByte m (byteKey a i) := by
  unfold memWriteLane
  split
  · exact memByte_memInsert_same _ _ _ h
  · rfl

/-- Each lane of the stored word: only the store of that lane touches it. -/
theorem memByte_memWrite_same (m : List Host.Cell) (a : WordAddr) (lanes : Lanes) (d : Word) {i : Nat}
    (h : Memory.wf m = true) (hi : i < 4) :
    memByte (memWrite m a lanes d) (byteKey a i)
      = if lanes.getLsbD i = true then byteOf d i else memByte m (byteKey a i) := by
  have hne : ∀ {j}, i ≠ j → byteKey a i ≠ byteKey a j := fun hij e => hij (byteKey_inj e)
  have h0 := memWriteLane_wf m a lanes d 0 h
  have h1 := memWriteLane_wf _ a lanes d 1 h0
  have h2 := memWriteLane_wf _ a lanes d 2 h1
  unfold memWrite
  match i, hi with
  | 0, _ =>
    rw [memByte_memWriteLane_other _ _ _ _ _ (hne (by omega)), memByte_memWriteLane_other _ _ _ _ _ (hne (by omega)),
      memByte_memWriteLane_other _ _ _ _ _ (hne (by omega)), memByte_memWriteLane_same _ _ _ _ _ h]
  | 1, _ =>
    rw [memByte_memWriteLane_other _ _ _ _ _ (hne (by omega)), memByte_memWriteLane_other _ _ _ _ _ (hne (by omega)),
      memByte_memWriteLane_same _ _ _ _ _ h0, memByte_memWriteLane_other _ _ _ _ _ (hne (by omega))]
  | 2, _ =>
    rw [memByte_memWriteLane_other _ _ _ _ _ (hne (by omega)), memByte_memWriteLane_same _ _ _ _ _ h1,
      memByte_memWriteLane_other _ _ _ _ _ (hne (by omega)), memByte_memWriteLane_other _ _ _ _ _ (hne (by omega))]
  | 3, _ =>
    rw [memByte_memWriteLane_same _ _ _ _ _ h2, memByte_memWriteLane_other _ _ _ _ _ (hne (by omega)),
      memByte_memWriteLane_other _ _ _ _ _ (hne (by omega)), memByte_memWriteLane_other _ _ _ _ _ (hne (by omega))]

/-- The mask of the enabled lanes, lane by lane. -/
theorem byteOf_laneMask (lanes : Lanes) {i : Nat} (hi : i < 4) :
    byteOf (laneMask lanes) i = if lanes.getLsbD i = true then BitVec.allOnes 8 else 0#8 := by
  have h : ∀ (lanes : Lanes) (i : Fin 4),
      byteOf (laneMask lanes) i = if lanes.getLsbD i = true then BitVec.allOnes 8 else 0#8 := by decide
  exact h lanes ⟨i, hi⟩

theorem byteOf_mergeLanes (lanes : Lanes) (d old : Word) {i : Nat} (hi : i < 4) :
    byteOf (mergeLanes lanes d old) i = if lanes.getLsbD i = true then byteOf d i else byteOf old i := by
  have hmask := byteOf_laneMask lanes hi
  have hbytes : byteOf (mergeLanes lanes d old) i
      = (byteOf d i &&& byteOf (laneMask lanes) i) ||| (byteOf old i &&& ~~~ byteOf (laneMask lanes) i) := by
    ext b hb
    have hbit : 8 * i + b < 32 := by omega
    simp [byteOf, mergeLanes, hbit]
  rw [hbytes, hmask]
  split
  · rw [BitVec.and_allOnes, BitVec.not_allOnes, BitVec.and_zero, BitVec.or_zero]
  · rw [BitVec.and_zero, BitVec.not_zero, BitVec.and_allOnes, BitVec.zero_or]

/-- Settles O7: a byte of the written word by its lane, and any other byte by the frame of the store. -/
theorem enabledLanesAreStoredAndMerged : Obligations.EnabledLanesAreStoredAndMerged := by
  refine ⟨fun m a lanes d b i hwf hi => ?_, fun lanes d old i hi => byteOf_mergeLanes lanes d old hi⟩
  by_cases hb : b = a
  · subst hb
    simp [memByte_memWrite_same m b lanes d hwf hi]
  · simp [memByte_memWrite_other m lanes d hi hb, hb]

/-! ### Memory outside the written word (R151, R155) -/

theorem sameWord_memWrite (m : List Host.Cell) {a b : WordAddr} (lanes : Lanes) (d : Word) (h : b ≠ a) :
    sameWord m (memWrite m a lanes d) b := fun _ hi => memByte_memWrite_other m lanes d hi h

/-- A written word leaves memory as it is, or stores at its own address. -/
theorem State.busWrite_mem_cases (s : State) (w : WriteWord) :
    (s.busWrite w).mem = s.mem ∨ (s.busWrite w).mem = memWrite s.mem (effAddr w.master w.addr) w.lanes w.data := by
  rw [State.busWrite_mem]
  split <;> simp

/-- A command that is no write leaves memory as it is. -/
theorem exec_mem_of_no_write {c : Instr} {s t : State} (h : exec c s = .next t) (hw : Instr.write? c = none) :
    t.mem = s.mem := by
  cases hr : Instr.read? c with
  | some r =>
    rw [exec_of_read hr] at h
    cases h
    rw [(s.readWord_readOnly r).only]
  | none =>
    cases hs : Instr.isStart c with
    | true =>
      obtain ⟨t', ht, hmem⟩ := exec_of_start hs s
      rw [ht] at h
      cases h
      exact hmem
    | false =>
      obtain ⟨t', ht, hk⟩ := exec_of_own hw hr hs s
      rw [ht] at h
      cases h
      exact hk.mem

/-- Settles O11: only a write stores, and at its own address. -/
theorem memoryChangesOnlyAtTheWrittenWord : Obligations.MemoryChangesOnlyAtTheWrittenWord := by
  intro c s t a h hne
  cases hw : Instr.write? c with
  | none => exact fun i _ => by rw [exec_mem_of_no_write h hw]
  | some w =>
    rw [exec_of_write hw] at h
    cases h
    rcases s.busWrite_mem_cases w with hm | hm <;> rw [hm]
    · exact fun i _ => rfl
    · exact sameWord_memWrite _ _ _ (hne w hw).symm

/-! ### Writes in the rings (Table 8.1) -/

theorem orderWrite_owned {i : Fin 8} (m : Master) (lanes : Lanes) (k : SlotIx) (h : i = 5 ∨ i = 6) :
    orderWrite m lanes k i = .suppressed := by
  simp [orderWrite, h]

theorem orderWrite_field {i : Fin 8} (lanes : Lanes) (k : SlotIx) (h5 : i ≠ 5) (h6 : i ≠ 6) :
    orderWrite .field lanes k i = .denied := by
  simp [orderWrite, h5, h6]

theorem orderWrite_record {i : Fin 8} (lanes : Lanes) (k : SlotIx) (h5 : i ≠ 5) (h6 : i ≠ 6) (h7 : i ≠ 7) :
    orderWrite .planner lanes k i = .mergeOrder k i := by
  simp [orderWrite, h5, h6, h7]

theorem orderWrite_tag (k : SlotIx) : orderWrite .planner allLanes k 7 = .orderTag k := by
  simp [orderWrite]

theorem reportWrite_owned (m : Master) (lanes : Lanes) (j : ReportIx) {i : Fin 4} (h : i = 2) :
    reportWrite m lanes j i = .suppressed := by
  simp [reportWrite, h]

theorem reportWrite_planner {i : Fin 4} (lanes : Lanes) (j : ReportIx) (h : i ≠ 2) :
    reportWrite .planner lanes j i = .denied := by
  simp [reportWrite, h]

theorem reportWrite_record {i : Fin 4} (lanes : Lanes) (j : ReportIx) (h : i = 0 ∨ i = 1) :
    reportWrite .field lanes j i = .mergeReport j i := by
  rcases h with rfl | rfl <;> rfl

theorem reportWrite_partialTag {lanes : Lanes} (h : lanes ≠ allLanes) (j : ReportIx) :
    reportWrite .field lanes j 3 = .partialTag := by
  simp [reportWrite, h]

theorem reportWrite_tag (j : ReportIx) : reportWrite .field allLanes j 3 = .reportTag j := by
  simp [reportWrite]

/-- A word of the rings that the part owns is never stored (R155). -/
theorem Windows.writeCase_of_partOwned {s : State} {w : WriteWord} (h : s.partOwned (effAddr w.master w.addr) = true) :
    s.writeCase w = .denied ∨ s.writeCase w = .suppressed := by
  cases hws : s.windows with
  | none => simp [State.partOwned, hws] at h
  | some ws =>
    cases hpermit : ws.denies w.master .write (effAddr w.master w.addr) with
    | true => exact .inl (by simp [State.writeCase, hws, Windows.writeCase, hpermit])
    | false =>
      rw [State.writeCase_of_region hws hpermit]
      simp only [State.partOwned, hws] at h
      split at h <;> rename_i heq <;> rw [heq]
      · exact .inr rfl
      · exact .inr (orderWrite_owned _ _ _ (by simpa using h))
      · exact .inr (reportWrite_owned _ _ _ (by simpa using h))
      · cases h
      · cases h

/-- No command changes a part-owned word of memory (R155). -/
theorem exec_sameWord_of_partOwned {c : Instr} {s t : State} {a : WordAddr} (h : exec c s = .next t)
    (ha : s.partOwned a = true) : sameWord s.mem t.mem a := by
  by_cases hw : ∃ w, Instr.write? c = some w ∧ effAddr w.master w.addr = a
  · obtain ⟨w, hw, rfl⟩ := hw
    rw [exec_of_write hw] at h
    cases h
    rcases Windows.writeCase_of_partOwned ha with hc | hc
    · rw [State.busWrite_of_denied hc]
      exact fun _ _ => rfl
    · rw [State.busWrite_of_suppressed hc]
      exact fun _ _ => rfl
  · exact memoryChangesOnlyAtTheWrittenWord c s t a h fun w hc he => hw ⟨w, hc, he⟩

theorem State.busWrite_mem_of_orderTag {s : State} {w : WriteWord} {k : SlotIx} (h : s.writeCase w = .orderTag k) :
    (s.busWrite w).mem = memWrite s.mem (effAddr w.master w.addr) w.lanes w.data := by
  rw [State.busWrite_mem, h]

theorem State.busWrite_mem_of_reportTag {s : State} {w : WriteWord} {j : ReportIx} (h : s.writeCase w = .reportTag j) :
    (s.busWrite w).mem = memWrite s.mem (effAddr w.master w.addr) w.lanes w.data := by
  rw [State.busWrite_mem, h]

/-- Settles O8: the region gives the case of Table 8.1, and the case what the path does. -/
theorem ringWritesByTable : Obligations.RingWritesByTable := by
  refine ⟨?_, fun c s t a => exec_sameWord_of_partOwned⟩
  intro w s ws hws hpermit
  have hcase := State.writeCase_of_region hws hpermit
  obtain ⟨m, a, lanes, d⟩ := w
  refine ⟨fun hr => ?_, fun i hr => ?_, fun k i hr => ⟨fun hi => ?_, fun h5 h6 hm => ?_, fun h5 h6 h7 hm => ?_,
    fun hi hm hl => ?_, fun hi hm hl => ?_⟩, fun j i hr => ⟨fun hi => ?_, fun hi hm => ?_, fun hi hm => ?_,
    fun hi hm hl => ?_, fun hi hm hl => ?_⟩⟩ <;> rw [hr] at hcase <;>
    rw [exec_of_write (c := .busWrite _) rfl] <;> dsimp only at *
  · rw [State.busWrite_of_passes hcase, State.storeWord_eq]
  · rw [State.busWrite_of_suppressed hcase]
  · rw [State.busWrite_of_suppressed (hcase.trans (orderWrite_owned m lanes k hi))]
  · subst hm
    rw [State.busWrite_of_denied (hcase.trans (orderWrite_field lanes k h5 h6))]
  · subst hm
    rw [State.busWrite_of_mergeOrder (hcase.trans (orderWrite_record lanes k h5 h6 h7))]
    rfl
  · subst hm hi
    rw [State.busWrite_of_partialTag (hcase.trans (orderWrite_partialTag hl k))]
    rfl
  · subst hm hi hl
    exact ⟨_, rfl, State.busWrite_mem_of_orderTag (hcase.trans (orderWrite_tag k))⟩
  · rw [State.busWrite_of_suppressed (hcase.trans (reportWrite_owned m lanes j hi))]
  · subst hm
    rw [State.busWrite_of_denied (hcase.trans (reportWrite_planner lanes j hi))]
  · subst hm
    rw [State.busWrite_of_mergeReport (hcase.trans (reportWrite_record lanes j hi))]
    rfl
  · subst hm hi
    rw [State.busWrite_of_partialTag (hcase.trans (reportWrite_partialTag hl j))]
    rfl
  · subst hm hi hl
    exact ⟨_, rfl, State.busWrite_mem_of_reportTag (hcase.trans (reportWrite_tag j))⟩

/-- Settles O9: each is its case of the path, and a tag that takes nothing only merges. -/
theorem writesThatTakeNothingMerge : Obligations.WritesThatTakeNothingMerge := by
  intro s
  refine ⟨fun addr lanes d k i hc => ?_, fun addr lanes d j i hc => ?_, fun w k hc htag => ?_, fun w j hc htag => ?_⟩
  · rw [exec_of_write (c := .orderRecordWrite addr lanes d) rfl, State.busWrite_of_mergeOrder hc]
    rfl
  · rw [exec_of_write (c := .reportRecordWrite addr lanes d) rfl, State.busWrite_of_mergeReport hc]
    rfl
  · have hno : takes w.data (s.storeWord w).orders[k].lastTag = false := takes_eq_false htag
    rw [exec_of_write (c := .busWrite w) rfl, State.busWrite_of_orderTag hc, State.orderTagWrite,
      if_neg (Bool.eq_false_iff.1 hno)]
    rfl
  · have hno : takes w.data (s.storeWord w).reports[j].lastTag = false := takes_eq_false htag
    rw [exec_of_write (c := .busWrite w) rfl, State.busWrite_of_reportTag hc, State.reportTagWrite,
      if_neg (Bool.eq_false_iff.1 hno)]
    rfl

/-- Every step keeps the board memory canonical, own steps by their frames. -/
theorem State.takeOwn_memoryLaw {s t : State} (hs : s.MemoryLaw) (d : OwnStep) (h : s.takeOwn d = .next t)
    (hexec : ∀ c, exec c s = .next t → t.MemoryLaw) : t.MemoryLaw := by
  cases d with
  | command c => exact hexec c h
  | request =>
    cases h
    exact (congrArg (Memory.wf · = true) ((State.announce_steady s _).after s.request_steady).mem).mpr hs
  | rest l =>
    cases h
    exact (congrArg (Memory.wf · = true) (s.makeAsk_steady l).mem).mpr hs

theorem exec_memoryLaw {c : Instr} {s t : State} (hs : s.MemoryLaw) (h : exec c s = .next t) : t.MemoryLaw := by
  cases hw : Instr.write? c with
  | none => exact (congrArg (Memory.wf · = true) (exec_mem_of_no_write h hw)).mpr hs
  | some w =>
    rw [exec_of_write hw] at h
    cases h
    rcases s.busWrite_mem_cases w with hm | hm
    · exact (congrArg (Memory.wf · = true) hm).mpr hs
    · exact (congrArg (Memory.wf · = true) hm).mpr (memWrite_wf _ _ _ _ hs)

/-- Settles O52: a store keeps the canonical form, and nothing else writes memory. -/
theorem stepKeepsMemoryCanonical : Obligations.StepKeepsMemoryCanonical := by
  intro s t hs h
  cases hp : s.pending with
  | cons c rest =>
    simp only [step, hp] at h
    exact exec_memoryLaw (s := { s with pending := rest }) hs h
  | nil =>
    rw [step_of_idle hp] at h
    by_cases hdue : s.dueSteps = []
    · rw [State.ownStep_of_nothing_due hdue] at h
      cases h
      unfold State.clockCycle
      split <;> exact hs
    · obtain ⟨d, -, n, hd⟩ := State.ownStep_of_due hdue
      rw [hd] at h
      exact State.takeOwn_memoryLaw (s := { s with picks := n }) hs d h fun c => exec_memoryLaw (s := { s with picks := n }) hs

/-! ### Denials (R153, R154) -/

theorem State.deny_eq (s : State) (a : WordAddr) (m : Master) (d : Direction) :
    s.deny a m d = { s with
      notices := s.notices ||| Notice.mask .guardDenied
      guardCapture :=
        if s.guardCapture.count = 0 then ⟨a, m, d, 1⟩
        else if s.guardCapture.count < 15 then { s.guardCapture with count := s.guardCapture.count + 1 }
        else s.guardCapture } := rfl

end Sys2Proof.Machine
end


section
/-!
PROOFS. Denials and reads (chapters 8 and 9): the header words and their one snapshot, the slot words by Table 8.2, and
what a read and a write leave of the rest of the part.
-/

open Sys2Proof Sys2Proof.Machine

namespace Sys2Proof.Machine

/-! ### Denials (R153, R154) -/

theorem State.serveRead_of_denied {s : State} {ws : Windows} {r : ReadWord} (hws : s.windows = some ws)
    (hd : ws.denies r.master .read (readAddr r) = true) :
    s.serveRead r = (s.returns 0).deny (readAddr r) r.master .read := by
  simp [State.serveRead, hws, hd]

theorem State.serveRead_of_region {s : State} {ws : Windows} {r : ReadWord} (hws : s.windows = some ws)
    (hd : ws.denies r.master .read (readAddr r) = false) : s.serveRead r = s.readRegion ws r := by
  simp [State.serveRead, hws, hd]

/-- Settles O12: a denied word of either direction is one denial, and a denied read returns 0. -/
theorem deniedWordsAreCounted : Obligations.DeniedWordsAreCounted := by
  refine ⟨fun w s hc => ?_, fun r s ws hws hd => ?_⟩
  · rw [exec_of_write (c := .busWrite w) rfl, State.busWrite_of_denied hc, State.deny_eq]
  · rw [exec_of_read (c := .deniedRead r) rfl]
    unfold State.readWord
    by_cases h0 : r.index = 0 <;> by_cases h1 : r.len.words ≤ r.index + 1 <;> simp only [h0, h1, if_true, if_false]
    · rw [State.serveRead_of_denied (s := s.emptyLatch) hws hd]
      simp only [h0] at h1
      rw [if_pos h1]
      simp [State.deny_eq, State.returns, State.emptyLatch]
    · rw [State.serveRead_of_denied (s := s.emptyLatch) hws hd]
      simp only [h0] at h1
      rw [if_neg h1]
      simp [State.deny_eq, State.returns, State.emptyLatch]
    · rw [State.serveRead_of_denied hws hd]
      simp [State.deny_eq, State.returns, State.emptyLatch]
    · rw [State.serveRead_of_denied hws hd]
      simp [State.deny_eq, State.returns]

/-! ### The header snapshot (R159, R168, R172, R62) -/

/-- The first word of a burst, served from an empty latch, a header word: the snapshot is taken and what the burst
includes is cleared. -/
theorem State.readWord_header {s : State} {ws : Windows} {r : ReadWord} {i : Fin 8} (hws : s.windows = some ws)
    (h0 : r.index = 0) (hd : ws.denies r.master .read (readAddr r) = false) (hr : ws.region (readAddr r) = .header i) :
    s.readWord r = { s.clearRead ws r with
      readData := s.headerWords[i]
      latch := if r.len.words ≤ 1 then .empty else ⟨some s.headerWords, [], []⟩ } := by
  have hserve : s.emptyLatch.serveRead r
      = { s.clearRead ws r with readData := s.headerWords[i], latch := ⟨some s.headerWords, [], []⟩ } := by
    rw [State.serveRead_of_region (s := s.emptyLatch) hws hd]
    unfold State.readRegion
    rw [hr]
    cases hm : r.master <;> simp [State.snapHeader, State.emptyLatch, Latch.empty, State.clearRead, hm, State.returns,
      State.snappedHeader] <;> exact ⟨rfl, rfl⟩
  unfold State.readWord
  rw [if_pos h0, hserve, h0]
  dsimp only
  split <;> rfl

/-- A later header word comes from the snapshot the burst has taken. -/
theorem State.readWord_snapped {s : State} {ws : Windows} {r : ReadWord} {i : Fin 8} {h : Vector Word 8}
    (hws : s.windows = some ws) (hl : s.latch.header = some h) (h0 : r.index ≠ 0)
    (hd : ws.denies r.master .read (readAddr r) = false) (hr : ws.region (readAddr r) = .header i) :
    s.readWord r = { s with readData := h[i], latch := if r.len.words ≤ r.index + 1 then .empty else s.latch } := by
  have hserve : s.serveRead r = { s with readData := h[i] } := by
    rw [State.serveRead_of_region hws hd]
    unfold State.readRegion
    rw [hr]
    simp [State.snapHeader, hl, State.snappedHeader, State.returns]
  unfold State.readWord
  rw [if_neg h0, hserve]
  dsimp only
  split <;> rfl

/-- What a PLANNER burst includes it clears. -/
theorem State.clearRead_planner {s : State} {ws : Windows} {r : ReadWord} (hm : r.master = .planner) :
    s.clearRead ws r = { s with
      notices := if ws.includes r 0 then 0 else s.notices
      guardCapture := if ws.includes r 4 then .empty else s.guardCapture
      gridlock := if ws.includes r 5 then .empty else s.gridlock } := by
  simp [State.clearRead, hm]

theorem State.clearRead_field {s : State} {ws : Windows} {r : ReadWord} (hm : r.master = .field) :
    s.clearRead ws r = s := by
  simp [State.clearRead, hm]

theorem readAddr_of_first {r : ReadWord} (h : r.index = 0) : readAddr r = burstAddr r 0 := by rw [readAddr, h]

/-- A single-word burst includes the one header word it reads. -/
theorem Windows.includes_single {ws : Windows} {r : ReadWord} {i : Fin 8} (hlen : r.len = .one) (h0 : r.index = 0)
    (hd : ws.denies r.master .read (readAddr r) = false) (hr : ws.region (readAddr r) = .header i) (w : Fin 8) :
    ws.includes r w = decide (i = w) := by
  rw [readAddr_of_first h0] at hd hr
  simp [Windows.includes, hlen, BurstLen.words, Windows.readsHeader, h0, hd, hr]

/-- A burst over the whole header includes each of its words. -/
theorem Windows.includes_burst {ws : Windows} {r : ReadWord} (hm : r.master = .planner) (hlen : r.len = .eight)
    (h0 : r.index = 0)
    (hall : ∀ j : Fin 8, ws.denies .planner .read (burstAddr r j) = false ∧ ws.region (burstAddr r j) = .header j)
    (w : Fin 8) : ws.includes r w = true := by
  obtain ⟨hd, hr⟩ := hall w
  simp only [Windows.includes, hlen, BurstLen.words, List.any_eq_true, List.mem_range, h0, Windows.readsHeader, hm]
  exact ⟨w, w.isLt, by simp [hd, hr]⟩

/-- Settles O13: the one word read is the one word cleared. -/
theorem singleHeaderReadReturnsAndClears : Obligations.SingleHeaderReadReturnsAndClears := by
  intro r s ws hws hlen h0 hd
  have hincludes := fun i hr => Windows.includes_single (i := i) hlen h0 hd hr
  have hread := fun i hr => State.readWord_header (i := i) hws h0 hd hr
  refine ⟨fun hr => ?_, fun hr => ?_, fun hr => ?_⟩
  · rw [exec_of_read (c := .noticeWordRead r) rfl, hread _ hr]
    cases hm : r.master with
    | planner => rw [State.clearRead_planner hm]; simp [hincludes _ hr, hlen, BurstLen.words, State.headerWords]
    | field => rw [State.clearRead_field hm]; simp [hlen, BurstLen.words, State.headerWords]
  · rw [exec_of_read (c := .guardCaptureRead r) rfl, hread _ hr]
    cases hm : r.master with
    | planner =>
      rw [State.clearRead_planner hm]
      simp [hincludes _ hr, hlen, BurstLen.words, State.headerWords, GuardCapture.empty]
    | field => rw [State.clearRead_field hm]; simp [hlen, BurstLen.words, State.headerWords]
  · rw [exec_of_read (c := .gridlockCaptureRead r) rfl, hread _ hr]
    cases hm : r.master with
    | planner =>
      rw [State.clearRead_planner hm]
      simp [hincludes _ hr, hlen, BurstLen.words, State.headerWords, GridlockCapture.empty]
    | field => rw [State.clearRead_field hm]; simp [hlen, BurstLen.words, State.headerWords]

/-! ### The header words (Tables 9 and 11.9) -/

/-- Segment IDs 1 to 192, each once: at most 192 records (R1). -/
theorem State.SegLaw.length_le {s : State} (h : s.SegLaw) : s.segs.length ≤ 192 := by
  obtain ⟨hnodup, hrange⟩ := h
  have hsub : (s.segs.map (·.id)) ⊆ List.range' 1 192 := by
    intro x hx
    obtain ⟨g, hg, rfl⟩ := List.mem_map.1 hx
    have := hrange g hg
    simp only [List.mem_range'_1]
    omega
  have := (hnodup.subperm hsub).length_le
  simpa using this

/-- Header word 1 shows the mode and four counts (R169). -/
theorem State.summaryWord_fields {s : State} (hcap : s.CapacityLaw) (hseg : s.SegLaw) :
    field s.summaryWord 0 2 = s.mode.code ∧ field s.summaryWord 3 5 = s.moves.length
      ∧ field s.summaryWord 8 3 = s.queue.length ∧ field s.summaryWord 12 8 = s.fencedCount
      ∧ field s.summaryWord 20 8 = s.unsurveyedCount := by
  obtain ⟨hmoves, hqueue⟩ := hcap
  have hlen := hseg.length_le
  have hfenced : s.fencedCount ≤ 192 := (List.length_filter_le _ _).trans hlen
  have hunsurveyed : s.unsurveyedCount ≤ 192 := (List.length_filter_le _ _).trans hlen
  have hmode : s.mode.code < 4 := by cases s.mode <;> decide
  simp only [field, State.summaryWord, BitVec.toNat_ofNat]
  omega

theorem Lane.stateCode_lt (ln : Lane) : ln.stateCode < 8 := by
  unfold Lane.stateCode
  split
  all_goals try decide
  split <;> decide

theorem Lane.group_lt (ln : Lane) : ln.group < 256 := by
  have hcode := ln.stateCode_lt
  have hberth := ln.berth.isLt
  have hstandoff := ln.standoff.toNat_lt
  unfold Lane.group
  split <;> omega

/-- Each lane has its byte of header word 2 (R170). -/
theorem State.laneWord_byte (s : State) (l : LaneIx) (lo n : Nat) (h : lo + n ≤ 8) :
    field s.laneWord (8 * l + lo) n = s.lanes[l].group / 2 ^ lo % 2 ^ n := by
  have h0 := s.lanes[0].group_lt
  have h1 := s.lanes[1].group_lt
  have h2 := s.lanes[2].group_lt
  have h3 := s.lanes[3].group_lt
  have hbyte : s.laneWord.toNat / 2 ^ (8 * (l : Nat)) % 2 ^ 8 = s.lanes[l].group := by
    simp only [State.laneWord, BitVec.toNat_ofNat]
    fin_cases l <;> simp only [Fin.getElem_fin] <;> simp <;> omega
  calc field s.laneWord (8 * l + lo) n
    _ = s.laneWord.toNat / 2 ^ (8 * (l : Nat)) / 2 ^ lo % 2 ^ n := by rw [field, pow_add, Nat.div_div_eq_div_mul]
    _ = s.laneWord.toNat / 2 ^ (8 * (l : Nat)) % 2 ^ 8 / 2 ^ lo % 2 ^ n := by
      rw [show (8 : Nat) = lo + (8 - lo) by omega, pow_add _ lo, Nat.mod_mul_right_div_self,
        Nat.mod_mod_of_dvd _ (pow_dvd_pow 2 (by omega))]
    _ = s.lanes[l].group / 2 ^ lo % 2 ^ n := by rw [hbyte]

/-- The four parts of a configured lane's group (R94, R170). -/
theorem Lane.group_parts {ln : Lane} (h : ln.layout ≠ none) :
    ln.group / 2 ^ 0 % 2 ^ 1 = 1 ∧ ln.group / 2 ^ 4 % 2 ^ 3 = ln.berth ∧ ln.group / 2 ^ 7 % 2 ^ 1 = ln.standoff.toNat
      ∧ ln.group / 2 ^ 1 % 2 ^ 3 = ln.stateCode := by
  have hcode := ln.stateCode_lt
  have hberth := ln.berth.isLt
  have hstandoff := ln.standoff.toNat_lt
  unfold Lane.group
  split
  · contradiction
  · omega

theorem ZoneStatus.code_lt (x : ZoneStatus) : x.code < 4 := by cases x <;> decide

theorem State.healthWord_fields {s : State} {x : Health} (h : s.health = some x) (hcode : x.code ≤ 11) :
    field s.healthWord 0 2 = x.layout.code ∧ field s.healthWord 2 2 = x.timing.code
      ∧ field s.healthWord 4 2 = x.label.code ∧ field s.healthWord 8 4 = x.code
      ∧ field s.healthWord 12 8 = x.revision.toNat ∧ field s.healthWord 20 12 = 0x5C1 := by
  have h1 := x.layout.code_lt
  have h2 := x.timing.code_lt
  have h3 := x.label.code_lt
  have h4 := x.revision.isLt
  simp only [State.healthWord, h, field, BitVec.toNat_ofNat, Config.partCode]
  omega

/-- Settles O14: the first word takes the snapshot, later words read it, and its words are the tables' fields. -/
theorem headerBurstIsOneSnapshot : Obligations.HeaderBurstIsOneSnapshot := by
  refine ⟨fun r s ws hws hm hlen h0 hall => ?first, fun r s ws h i hws hl h0 hd hr => ?later, fun s => ?words⟩
  case first =>
    have hincludes := Windows.includes_burst hm hlen h0 hall
    obtain ⟨hd, hr⟩ := hall 0
    rw [Fin.val_zero, ← readAddr_of_first h0] at hd hr
    rw [exec_of_read (c := .noticeWordRead r) rfl, State.readWord_header hws h0 (hm ▸ hd) hr, State.clearRead_planner hm]
    simp [hincludes, hlen, BurstLen.words, State.headerWords, GuardCapture.empty, GridlockCapture.empty]
  case later =>
    have hread := State.readWord_snapped hws hl h0 hd hr
    exact ⟨by rw [exec_of_read (c := .guardCaptureRead r) rfl, hread], rfl, rfl⟩
  case words =>
    refine ⟨rfl, rfl, rfl, fun hcap hseg => ?_, fun l => ⟨fun hl => ?_, fun hl => ?_⟩, fun x hx hcode => ?_⟩
    · obtain ⟨hmode, hmoves, hqueue, hfenced, hunsurveyed⟩ := State.summaryWord_fields hcap hseg
      refine ⟨hmode.trans (by cases s.mode <;> rfl), hmoves, hqueue, hfenced.trans ?_, hunsurveyed.trans ?_⟩
      · exact congrArg List.length (List.filter_congr fun g _ => by unfold Segment.fenced; cases g.fence <;> rfl)
      · simp [State.unsurveyedCount, Segment.unsurveyed]
    · have hgroup : s.lanes[l].group = 0 := by simp only [Lane.group, hl]
      have := s.laneWord_byte l 0 8 (by omega)
      rw [hgroup] at this
      exact (by simpa using this : field s.laneWord (8 * l) 8 = 0)
    · obtain ⟨hset, hberth, hstandoff, hstate⟩ := Lane.group_parts hl
      refine ⟨(s.laneWord_byte l 0 1 (by omega)).trans hset, (s.laneWord_byte l 4 3 (by omega)).trans hberth,
        (s.laneWord_byte l 7 1 (by omega)).trans hstandoff, ((s.laneWord_byte l 1 3 (by omega)).trans hstate).trans ?_⟩
      unfold Lane.stateCode
      cases s.lanes[l].state <;> cases hc : s.lanes[l].cause <;> simp
      rename_i c
      cases c <;> rfl
    · obtain ⟨h1, h2, h3, h4, h5, h6⟩ := State.healthWord_fields hx hcode
      exact ⟨h1, h2, h3, h4, h5, h6, rfl, rfl, rfl⟩

end Sys2Proof.Machine
end


section
/-!
PROOFS. Slot words (R157, R158, Table 8.2), and what writes and reads leave of the rail's history and of the latched
causes.
-/

open Sys2Proof Sys2Proof.Machine

namespace Sys2Proof.Machine

/-! ### What a written word leaves -/

/-- A written word changes memory, the report slots and the guard capture, and beside them nothing that no order
changes. -/
theorem State.busWrite_orderKept (s : State) (w : WriteWord) :
    OrderKept { s with
      mem := (s.busWrite w).mem, reports := (s.busWrite w).reports, guardCapture := (s.busWrite w).guardCapture }
      (s.busWrite w) := by
  have hrefl := (Kept.refl s).orderKept
  have hnotify : ∀ n : Notice, OrderKept s (s.notify n) := fun n => (s.notify_steady n).toKept.orderKept
  have hwith : ∀ {u t : State}, OrderKept u t → u.pending = s.pending → u.clockCount = s.clockCount →
      u.windows = s.windows → u.latch = s.latch → u.readData = s.readData → u.timing = s.timing →
      u.health = s.health → u.picks = s.picks → u.lanes = s.lanes → u.segs = s.segs → u.notices = s.notices →
      OrderKept { s with mem := t.mem, reports := t.reports, guardCapture := t.guardCapture } t := by
    intro u t h h1 h2 h3 h4 h5 h6 h7 h8 h9 h10 h11
    exact
      { pending := h.pending.trans h1, clockCount := h.clockCount.trans h2, windows := h.windows.trans h3
        latch := h.latch.trans h4, readData := h.readData.trans h5, mem := rfl, reports := rfl
        timing := h.timing.trans h6, guardCapture := rfl, health := h.health.trans h7, picks := h.picks.trans h8
        layouts := h.layouts.trans (by rw [h9]), config := h.config.trans (by rw [h10])
        surveys := h10 ▸ h.surveys
        notices := fun n hn => h.notices n (by rwa [State.latched, h11]) }
  unfold State.busWrite
  split
  · exact hwith (u := s.storeWord w) (Kept.refl _).orderKept rfl rfl rfl rfl rfl rfl rfl rfl rfl rfl rfl
  · exact hwith hrefl rfl rfl rfl rfl rfl rfl rfl rfl rfl rfl rfl
  · exact
      { (hnotify .guardDenied) with
        pending := rfl, clockCount := rfl, windows := rfl, latch := rfl, readData := rfl, mem := rfl, reports := rfl
        timing := rfl, guardCapture := rfl, health := rfl, picks := rfl, layouts := rfl, config := rfl
        surveys := hrefl.surveys, notices := (hnotify .guardDenied).notices }
  · exact hwith (hnotify .partialTag) rfl rfl rfl rfl rfl rfl rfl rfl rfl rfl rfl
  · exact hwith (u := s.storeWord w) (State.updateOrder_kept _ _ _).orderKept rfl rfl rfl rfl rfl rfl rfl rfl rfl rfl rfl
  · exact hwith (t := (s.storeWord w).mergeReportWord _ _ _ _) (Kept.refl _).orderKept
      rfl rfl rfl rfl rfl rfl rfl rfl rfl rfl rfl
  · unfold State.orderTagWrite
    split
    · exact hwith (u := s.storeWord w) (State.takeOrder_orderKept _ _ _ _) rfl rfl rfl rfl rfl rfl rfl rfl rfl rfl rfl
    · exact hwith (u := s.storeWord w) (State.updateOrder_kept _ _ _).orderKept rfl rfl rfl rfl rfl rfl rfl rfl rfl rfl rfl
  · unfold State.reportTagWrite
    split
    · exact hwith (State.takeReport_kept _ _ _ _).orderKept rfl rfl rfl rfl rfl rfl rfl rfl rfl rfl rfl
    · exact hwith (t := (s.storeWord w).mergeReportTag _ _) (Kept.refl _).orderKept
        rfl rfl rfl rfl rfl rfl rfl rfl rfl rfl rfl

theorem exec_latch_of_no_read {c : Instr} {s t : State} (h : exec c s = .next t) (hr : Instr.read? c = none)
    (hs : Instr.isStart c = false) : t.latch = s.latch := by
  cases hw : Instr.write? c with
  | some w =>
    rw [exec_of_write hw] at h
    cases h
    exact (s.busWrite_orderKept w).latch
  | none =>
    obtain ⟨t', ht, hk⟩ := exec_of_own hw hr hs s
    rw [ht] at h
    cases h
    exact hk.latch

/-! ### The snapshots of slots (R158) -/

/-- The latch in which the word of a burst is served: its first word begins with an empty one (R158). -/
def State.servedFrom (s : State) (r : ReadWord) : State := if r.index = 0 then s.emptyLatch else s

/-- A read word is served in its latch, and the latch goes with the last word. -/
theorem State.readWord_eq (s : State) (r : ReadWord) :
    s.readWord r = { (s.servedFrom r).serveRead r with
      latch := if r.len.words ≤ r.index + 1 then .empty else ((s.servedFrom r).serveRead r).latch } := by
  unfold State.readWord State.servedFrom
  dsimp only
  split <;> split <;> rfl

theorem State.readWord_latch_last {s : State} {r : ReadWord} (h : r.len.words ≤ r.index + 1) :
    (s.readWord r).latch = ⟨none, [], []⟩ := by
  rw [State.readWord_eq]
  exact if_pos h

theorem State.readWord_latch_within {s : State} {r : ReadWord} (h : r.index + 1 < r.len.words) :
    (s.readWord r).latch = ((s.servedFrom r).serveRead r).latch := by
  rw [State.readWord_eq]
  exact if_neg (Nat.not_le.2 h)

theorem State.snapOrder_order? {s : State} {k k' : SlotIx} {x : OrderSnap} (h : s.latch.order? k = some x) :
    (s.snapOrder k').latch.order? k = some x := by
  unfold State.snapOrder
  split
  · exact h
  · rename_i hnone
    have hne : k' ≠ k := fun e => by rw [e, h] at hnone; cases hnone
    simpa [Latch.order?, State.orderSnap, hne] using h

theorem State.snapReport_report? {s : State} {j j' : ReportIx} {x : ReportSnap} (h : s.latch.report? j = some x) :
    (s.snapReport j').latch.report? j = some x := by
  unfold State.snapReport
  split
  · exact h
  · rename_i hnone
    have hne : j' ≠ j := fun e => by rw [e, h] at hnone; cases hnone
    simpa [Latch.report?, State.reportSnap, hne] using h

theorem State.snapHeader_slots (s : State) (ws : Windows) (r : ReadWord) :
    (s.snapHeader ws r).latch.orders = s.latch.orders ∧ (s.snapHeader ws r).latch.reports = s.latch.reports := by
  unfold State.snapHeader
  split <;> exact ⟨rfl, rfl⟩

/-- A word served keeps every slot snapshot the latch holds (R158). -/
theorem State.serveRead_keeps_snapshots (s : State) (r : ReadWord) :
    (∀ k x, s.latch.order? k = some x → (s.serveRead r).latch.order? k = some x)
      ∧ ∀ j x, s.latch.report? j = some x → (s.serveRead r).latch.report? j = some x := by
  unfold State.serveRead
  split
  · exact ⟨fun _ _ h => h, fun _ _ h => h⟩
  · split
    · exact ⟨fun _ _ h => h, fun _ _ h => h⟩
    · rename_i ws _ _
      obtain ⟨horders, hreports⟩ := s.snapHeader_slots ws r
      unfold State.readRegion
      split
      · exact ⟨fun _ _ h => h, fun _ _ h => h⟩
      · refine ⟨fun k x h => ?_, fun j x h => ?_⟩
        · show (s.snapHeader ws r).latch.orders.find? _ = _
          rw [horders]
          exact h
        · show (s.snapHeader ws r).latch.reports.find? _ = _
          rw [hreports]
          exact h
      · refine ⟨fun k x h => State.snapOrder_order? h, fun j x h => ?_⟩
        show (s.snapOrder _).latch.report? j = some x
        unfold State.snapOrder
        split <;> exact h
      · exact ⟨fun _ _ h => h, fun _ _ h => h⟩
      · refine ⟨fun k x h => ?_, fun j x h => State.snapReport_report? h⟩
        show (s.snapReport _).latch.order? k = some x
        unfold State.snapReport
        split <;> exact h

/-! ### Slot words by Table 8.2 -/

/-- The state after a read that takes no denial and clears nothing: the readout word and the latch alone (R157). -/
theorem State.readWord_of_serveRead {s u : State} {r : ReadWord} {d : Word} (h : (s.servedFrom r).serveRead r = u)
    (hu : u = { s with readData := d, latch := u.latch }) :
    s.readWord r = { s with readData := d, latch := (s.readWord r).latch } := by
  rw [State.readWord_eq, h]
  dsimp only
  rw [hu]

theorem State.servedFrom_eq (s : State) (r : ReadWord) :
    s.servedFrom r = { s with latch := if r.index = 0 then .empty else s.latch } := by
  unfold State.servedFrom
  split <;> rfl

section slots
variable {s : State} {r : ReadWord} {ws : Windows}

theorem State.serveRead_orderWord {u : State} {k : SlotIx} {i : Fin 8} (hws : u.windows = some ws)
    (hd : ws.denies r.master .read (readAddr r) = false) (hr : ws.region (readAddr r) = .orderWord k i) :
    u.serveRead r = (u.snapOrder k).returns ((u.snapOrder k).orderRead k i (readAddr r)) := by
  rw [State.serveRead_of_region hws hd]
  unfold State.readRegion
  rw [hr]

theorem State.serveRead_reportWord {u : State} {j : ReportIx} {i : Fin 4} (hws : u.windows = some ws)
    (hd : ws.denies r.master .read (readAddr r) = false) (hr : ws.region (readAddr r) = .reportWord j i) :
    u.serveRead r = (u.snapReport j).returns ((u.snapReport j).reportRead j i (readAddr r)) := by
  rw [State.serveRead_of_region hws hd]
  unfold State.readRegion
  rw [hr]

/-- The snapshot an order slot's word is served from: the latch's own, or one taken at this moment. -/
theorem State.snapOrder_found (u : State) (k : SlotIx) :
    (u.snapOrder k).latch.order? k = some ((u.latch.order? k).getD (u.orderSnap k)) := by
  unfold State.snapOrder
  cases h : u.latch.order? k with
  | some x => simpa using h
  | none => simp [Latch.order?, State.orderSnap]

theorem State.snapReport_found (u : State) (j : ReportIx) :
    (u.snapReport j).latch.report? j = some ((u.latch.report? j).getD (u.reportSnap j)) := by
  unfold State.snapReport
  cases h : u.latch.report? j with
  | some x => simpa using h
  | none => simp [Latch.report?, State.reportSnap]

/-- A permitted order slot word: the part-owned words from the slot's snapshot, the others from memory. -/
theorem State.readWord_orderWord {k : SlotIx} {i : Fin 8} {x : OrderSnap} (hws : s.windows = some ws)
    (hd : ws.denies r.master .read (readAddr r) = false) (hr : ws.region (readAddr r) = .orderWord k i)
    (hx : ((s.servedFrom r).latch.order? k).getD (s.orderSnap k) = x) :
    s.readWord r = { s with
        readData := if i = 5 then x.verdict else if i = 6 then x.authority else memWord s.mem (readAddr r)
        latch := (s.readWord r).latch }
      ∧ (r.index + 1 < r.len.words → (s.readWord r).latch.order? k = some x) := by
  have hwsF : (s.servedFrom r).windows = some ws := by rw [State.servedFrom_eq]; exact hws
  have hsnap : (s.servedFrom r).orderSnap k = s.orderSnap k := by rw [State.servedFrom_eq]; rfl
  have hfound := (s.servedFrom r).snapOrder_found k
  rw [hsnap, hx] at hfound
  have hserve := State.serveRead_orderWord hwsF hd hr
  have honly := ((s.servedFrom r).snapOrder_readOnly k).only
  have hcore : (s.servedFrom r).snapOrder k = { s with latch := ((s.servedFrom r).snapOrder k).latch } := by
    unfold State.snapOrder
    split <;> rw [State.servedFrom_eq]
  have hread : ((s.servedFrom r).snapOrder k).orderRead k i (readAddr r)
      = if i = 5 then x.verdict else if i = 6 then x.authority else memWord s.mem (readAddr r) := by
    have hmem : ((s.servedFrom r).snapOrder k).mem = s.mem := by rw [hcore]
    simp only [State.orderRead, hfound, Option.getD_some, hmem]
  refine ⟨State.readWord_of_serveRead hserve ?_, fun hlast => ?_⟩
  · rw [hread]
    unfold State.returns
    rw [hcore]
  · rw [State.readWord_latch_within hlast, hserve]
    exact hfound

/-- A permitted report slot word: the acceptance from the slot's snapshot, the others from memory. -/
theorem State.readWord_reportWord {j : ReportIx} {i : Fin 4} {x : ReportSnap} (hws : s.windows = some ws)
    (hd : ws.denies r.master .read (readAddr r) = false) (hr : ws.region (readAddr r) = .reportWord j i)
    (hx : ((s.servedFrom r).latch.report? j).getD (s.reportSnap j) = x) :
    s.readWord r = { s with
        readData := if i = 2 then x.acceptance else memWord s.mem (readAddr r)
        latch := (s.readWord r).latch }
      ∧ (r.index + 1 < r.len.words → (s.readWord r).latch.report? j = some x) := by
  have hwsF : (s.servedFrom r).windows = some ws := by rw [State.servedFrom_eq]; exact hws
  have hsnap : (s.servedFrom r).reportSnap j = s.reportSnap j := by rw [State.servedFrom_eq]; rfl
  have hfound := (s.servedFrom r).snapReport_found j
  rw [hsnap, hx] at hfound
  have hserve := State.serveRead_reportWord hwsF hd hr
  have hcore : (s.servedFrom r).snapReport j = { s with latch := ((s.servedFrom r).snapReport j).latch } := by
    unfold State.snapReport
    split <;> rw [State.servedFrom_eq]
  have hread : ((s.servedFrom r).snapReport j).reportRead j i (readAddr r)
      = if i = 2 then x.acceptance else memWord s.mem (readAddr r) := by
    have hmem : ((s.servedFrom r).snapReport j).mem = s.mem := by rw [hcore]
    simp only [State.reportRead, hfound, Option.getD_some, hmem]
  refine ⟨State.readWord_of_serveRead hserve ?_, fun hlast => ?_⟩
  · rw [hread]
    unfold State.returns
    rw [hcore]
  · rw [State.readWord_latch_within hlast, hserve]
    exact hfound

end slots

/-- The read finds plain memory: no window is known, or the word is permitted and outside the slots and the header. -/
def State.readsPlain (s : State) (r : ReadWord) : Prop :=
  match s.windows with
  | none => True
  | some ws => ws.denies r.master .read (readAddr r) = false
      ∧ (ws.region (readAddr r) = .outside ∨ ws.region (readAddr r) = .orderPlain)

theorem State.serveRead_plain {u : State} {r : ReadWord} (h : u.readsPlain r) :
    u.serveRead r = { u with readData := memWord u.mem (readAddr r) } := by
  unfold State.readsPlain at h
  split at h
  · rename_i hws
    simp only [State.serveRead, hws, State.returns]
  · rename_i ws hws
    obtain ⟨hd, hr⟩ := h
    rw [State.serveRead_of_region hws hd]
    unfold State.readRegion
    rcases hr with hr | hr <;> rw [hr] <;> rfl

/-- A word of plain memory comes from memory (assumption 29). -/
theorem State.readWord_plain {s : State} {r : ReadWord} (h : s.readsPlain r) :
    s.readWord r = { s with readData := memWord s.mem (readAddr r), latch := (s.readWord r).latch } := by
  have hfrom : (s.servedFrom r).readsPlain r := by rw [State.servedFrom_eq]; exact h
  refine State.readWord_of_serveRead (State.serveRead_plain hfrom) ?_
  rw [State.servedFrom_eq]

theorem RejectReason.code_lt (r : RejectReason) : r.code < 32 := by cases r <;> decide

/-- The acceptance word shows its code, its reason and the judged tag (Table 11.7). -/
theorem State.acceptanceWord_fields (s : State) (j : ReportIx) :
    field (s.acceptanceWord j) 16 8 = s.reports[j].judgedTag.toNat
      ∧ field (s.acceptanceWord j) 0 2 = s.reports[j].acceptance.bits % 4
      ∧ field (s.acceptanceWord j) 8 5 = s.reports[j].acceptance.bits / 256 := by
  have hbits : s.reports[j].acceptance.bits < 8192 := by
    cases h : s.reports[j].acceptance with
    | rejected r => have := r.code_lt; simp only [Acceptance.bits]; omega
    | _ => decide
  have htag := s.reports[j].judgedTag.isLt
  simp only [field, State.acceptanceWord, BitVec.toNat_ofNat]
  omega

/-- Settles O15: the latch by the reads alone, each slot word from its snapshot, the acceptance word by its fields. -/
theorem slotWordsAreReadAtOneMoment : Obligations.SlotWordsAreReadAtOneMoment := by
  refine ⟨fun r s => ⟨rfl, rfl, rfl, rfl, State.readWord_latch_last, fun h0 hin => ?within⟩,
    fun c s t => exec_latch_of_no_read, fun r s ws hws hd => ⟨fun k i hr => ?order, fun j i hr => ?report⟩,
    fun r s => State.readWord_plain, fun s j => ?acceptance⟩
  case within =>
    have hserved : s.servedFrom r = s := if_neg h0
    rw [State.readWord_latch_within hin, hserved]
    exact s.serveRead_keeps_snapshots r
  case order =>
    refine ⟨fun hfirst => State.readWord_orderWord (x := s.orderSnap k) hws hd hr ?_,
      fun x h0 hx => (State.readWord_orderWord hws hd hr ?_).1⟩
    · rw [State.servedFrom_eq]
      split
      · rfl
      · rename_i h0
        rw [hfirst.resolve_left h0]
        rfl
    · rw [State.servedFrom_eq, if_neg h0, hx]
      rfl
  case report =>
    refine ⟨fun hfirst => State.readWord_reportWord (x := s.reportSnap j) hws hd hr ?_,
      fun x h0 hx => (State.readWord_reportWord hws hd hr ?_).1⟩
    · rw [State.servedFrom_eq]
      split
      · rfl
      · rename_i h0
        rw [hfirst.resolve_left h0]
        rfl
    · rw [State.servedFrom_eq, if_neg h0, hx]
      rfl
  case acceptance =>
    obtain ⟨htag, hcode, hreason⟩ := s.acceptanceWord_fields j
    refine ⟨htag, hcode.trans ?_, hreason.trans ?_⟩
    · cases s.reports[j].acceptance with
      | rejected x => cases x <;> rfl
      | _ => rfl
    · cases s.reports[j].acceptance with
      | rejected x => cases x <;> rfl
      | _ => rfl

/-! ### The history of the rail (R2, R13, R15) -/

@[simp] theorem State.applied_segs (s : State) (k : SlotIx) : (s.applied k).segs = s.segs := rfl

@[simp] theorem State.refuse_segs (s : State) (k : SlotIx) (r : RefuseReason) : (s.refuse k r).segs = s.segs := rfl

@[simp] theorem State.refuse_enable (s : State) (k : SlotIx) (r : RefuseReason) : (s.refuse k r).enable = s.enable := rfl

@[simp] theorem State.applied_enable (s : State) (k : SlotIx) : (s.applied k).enable = s.enable := rfl

/-- An order's row takes fences off only if it is an UNFENCE (R15). -/
theorem carryOrder_fences {kind : Option OrderKind} (h : kind ≠ some .unfence) (k : SlotIx) (o : OrderRecord) (s : State) :
    List.Forall₂ (fun g g' : Segment => g.fence ≠ none → g'.fence ≠ none) s.segs (carryOrder kind k o s).segs := by
  have hsame : ∀ t : State, t.segs = s.segs →
      List.Forall₂ (fun g g' : Segment => g.fence ≠ none → g'.fence ≠ none) s.segs t.segs :=
    fun t ht => ht ▸ List.forall₂_same.2 fun _ _ => id
  by_cases hk : kind = some .stopAll ∨ kind = some .resume ∨ kind = some .noticeMask
  · rcases hk with rfl | rfl | rfl
    · refine hsame _ ?_
      show (stopAllOrder k o s).segs = _
      unfold stopAllOrder
      split <;> rfl
    · show List.Forall₂ _ _ (resumeOrder k o s).segs
      unfold resumeOrder
      split
      · have hk : List.Forall₂ _ s.segs s.resumePart.segs :=
          (State.thawLanes_steady { s with mode := .running, moves := s.moves.map s.thawMove }).history
        rw [State.applied_segs]
        exact hk.imp fun _ _ x => x.2
      all_goals exact hsame _ rfl
    · exact hsame _ rfl
  · simp only [not_or] at hk
    exact (carryOrder_kept kind h hk.1 hk.2.1 hk.2.2 k o s).history.imp fun _ _ x => x.2

/-- Only a NOTICE_MASK changes the enable set (R166). -/
theorem carryOrder_enable {kind : Option OrderKind} (h : kind ≠ some .noticeMask) (k : SlotIx) (o : OrderRecord)
    (s : State) : (carryOrder kind k o s).enable = s.enable := by
  by_cases hk : kind = some .unfence ∨ kind = some .stopAll ∨ kind = some .resume
  · rcases hk with rfl | rfl | rfl
    · show (unfenceOrder k o s).enable = _
      unfold unfenceOrder
      split <;> rfl
    · show (stopAllOrder k o s).enable = _
      unfold stopAllOrder
      split <;> rfl
    · show (resumeOrder k o s).enable = _
      unfold resumeOrder
      split
      · rw [State.applied_enable]
        exact (State.thawLanes_steady { s with mode := .running, moves := s.moves.map s.thawMove }).enable
      all_goals rfl
  · simp only [not_or] at hk
    exact (carryOrder_kept kind hk.1 hk.2.1 hk.2.2 h k o s).enable

/-- A take keeps the fences and the enable set by its kind. -/
theorem State.takeOrder_keeps (s : State) (kind : Option OrderKind) (k : SlotIx) (w : Word) :
    (kind ≠ some .unfence → List.Forall₂ (fun g g' : Segment => g.fence ≠ none → g'.fence ≠ none) s.segs
        (s.takeOrder (carryOrder kind) k w).segs)
      ∧ (kind ≠ some .noticeMask → (s.takeOrder (carryOrder kind) k w).enable = s.enable) := by
  have hsame : List.Forall₂ (fun g g' : Segment => g.fence ≠ none → g'.fence ≠ none) s.segs s.segs :=
    List.forall₂_same.2 fun _ _ => id
  unfold State.takeOrder
  dsimp only
  generalize hu : ((s.mergeTag k w).updateOrder k fun o => { o with lastTag := tagOf w }) = u
  have hsegs : u.segs = s.segs := by subst hu; rfl
  have henable : u.enable = s.enable := by subst hu; rfl
  split
  · have ho : (u.overrun k).segs = u.segs ∧ (u.overrun k).enable = u.enable := ⟨rfl, rfl⟩
    rw [ho.1, ho.2, hsegs]
    exact ⟨fun _ => hsame, fun _ => henable⟩
  · have hc : (u.clearVerdict k).segs = u.segs ∧ (u.clearVerdict k).enable = u.enable := ⟨rfl, rfl⟩
    split
    · rw [State.refuse_segs, State.refuse_enable, hc.1, hc.2, hsegs]
      exact ⟨fun _ => hsame, fun _ => henable⟩
    · obtain ⟨x, a, ha⟩ := s.announce_eq (carryOrder kind k (u.orderOf k) (u.clearVerdict k))
      rw [ha, ← hsegs, ← henable, ← hc.1, ← hc.2]
      exact ⟨fun h => carryOrder_fences h k _ _, fun h => carryOrder_enable h k _ _⟩

/-- A tag word is a whole PLANNER word (R137). -/
theorem State.eq_wholeWrite_of_orderTag {s : State} {w : WriteWord} {k : SlotIx} (h : s.writeCase w = .orderTag k) :
    w = wholeWrite .planner w.addr w.data := by
  obtain ⟨m, a, lanes, d⟩ := w
  have hrep : ∀ m' lanes' j' i', reportWrite m' lanes' j' i' ≠ .orderTag k := by
    intro m' lanes' j' i'
    unfold reportWrite
    split
    · simp
    · split
      · simp
      · split <;> [split; skip] <;> simp
  have hord : ∀ m' lanes' k' i', orderWrite m' lanes' k' i' = .orderTag k → m' = .planner ∧ lanes' = allLanes := by
    intro m' lanes' k' i'
    unfold orderWrite
    split
    · simp
    · split
      · simp
      · split
        · split
          · rename_i h; exact fun _ => ⟨rfl, h⟩
          · simp
        · simp
  unfold State.writeCase Windows.writeCase at h
  split at h
  · cases h
  · split at h
    · cases h
    · split at h
      · cases h
      · cases h
      · obtain ⟨rfl, rfl⟩ := hord _ _ _ _ h
        rfl
      · cases h
      · exact absurd h (hrep _ _ _ _)

/-- A written tag word that takes an order of a kind is a write that takes it (R137, R141). -/
theorem State.takesKind_of_orderTag {s : State} {c : Instr} {w : WriteWord} {k : SlotIx} (hw : Instr.write? c = some w)
    (hc : s.writeCase w = .orderTag k) (ht : takes w.data s.orders[k].lastTag = true) :
    s.takesKind c (s.kindOf k) = true := by
  have hwhole := State.eq_wholeWrite_of_orderTag hc
  have htaken : s.orderTaken (s.kindOf k) w.addr w.data = some k := by
    rw [State.orderTaken, ← hwhole, hc]
    simpa using ht
  simp only [State.takesKind, hw, htaken, decide_eq_true hwhole, Option.isSome_some, Bool.and_self]

/-- A written word takes a fence off only if it takes an UNFENCE, and changes the enable set only if it takes a
NOTICE_MASK (R15, R166). -/
theorem State.busWrite_keeps {s : State} {c : Instr} {w : WriteWord} (hw : Instr.write? c = some w) :
    (s.takesKind c (some .unfence) = false →
        List.Forall₂ (fun g g' : Segment => g.fence ≠ none → g'.fence ≠ none) s.segs (s.busWrite w).segs)
      ∧ (s.takesKind c (some .noticeMask) = false → (s.busWrite w).enable = s.enable) := by
  have hsame : List.Forall₂ (fun g g' : Segment => g.fence ≠ none → g'.fence ≠ none) s.segs s.segs :=
    List.forall₂_same.2 fun _ _ => id
  unfold State.busWrite
  split
  case h_7 k hc =>
    unfold State.orderTagWrite
    split
    · rename_i ht
      have hkind := State.takesKind_of_orderTag hw hc ht
      obtain ⟨hfences, henable⟩ := (s.storeWord w).takeOrder_keeps (s.kindOf k) k w.data
      have hother : ∀ {x}, s.takesKind c x = false → s.kindOf k ≠ x := fun h e => by
        rw [e, h] at hkind
        cases hkind
      exact ⟨fun h => hfences (hother h), fun h => henable (hother h)⟩
    · exact ⟨fun _ => hsame, fun _ => rfl⟩
  case h_8 j hc =>
    unfold State.reportTagWrite
    split
    · have hk := (s.storeWord w).takeReport_kept (s.reportKindOf j) j w.data
      exact ⟨fun _ => hk.history.imp fun _ _ x => x.2, fun _ => hk.enable⟩
    · exact ⟨fun _ => hsame, fun _ => rfl⟩
  all_goals exact ⟨fun _ => hsame, fun _ => rfl⟩

theorem forall₂_and {α β : Type} {R S : α → β → Prop} {l : List α} {l' : List β} (h : List.Forall₂ R l l')
    (h' : List.Forall₂ S l l') : List.Forall₂ (fun a b => R a b ∧ S a b) l l' := by
  induction h with
  | nil => exact .nil
  | cons hr _ ih => cases h' with
    | cons hs ht => exact .cons ⟨hr, hs⟩ (ih ht)

/-- Settles O59: a write by what no order changes, a read and an own command by their frames. -/
theorem railHistoryIsKept : Obligations.RailHistoryIsKept := by
  intro c s t h hs
  cases hw : Instr.write? c with
  | some w =>
    rw [exec_of_write hw] at h
    cases h
    have hk := s.busWrite_orderKept w
    refine ⟨hk.config, ?_, hk.windows, hk.timing, hk.health, hk.layouts⟩
    by_cases hunf : s.takesKind c (some .unfence) = false
    · exact (forall₂_and hk.surveys ((State.busWrite_keeps hw).1 hunf)).imp fun _ _ x => ⟨x.1, fun _ => x.2⟩
    · exact hk.surveys.imp fun _ _ x => ⟨x, fun e => absurd e hunf⟩
  | none =>
    cases hr : Instr.read? c with
    | some r =>
      rw [exec_of_read hr] at h
      cases h
      rw [(s.readWord_readOnly r).only]
      exact ⟨rfl, List.forall₂_same.2 fun _ _ => ⟨id, fun _ => id⟩, rfl, rfl, rfl, rfl⟩
    | none =>
      obtain ⟨t', ht, hk⟩ := exec_of_own hw hr hs s
      rw [ht] at h
      cases h
      exact ⟨hk.config, hk.history.imp fun _ _ x => ⟨x.1, fun _ => x.2⟩, hk.windows, hk.timing, hk.health, hk.layouts⟩

/-! ### The latched causes (R164, R168) -/

theorem State.snapHeader_notices (s : State) (ws : Windows) (r : ReadWord) :
    (s.snapHeader ws r).notices = s.notices ∨ (r.master = .planner ∧ ws.includes r 0 = true) := by
  unfold State.snapHeader
  split
  · exact .inl rfl
  · cases hm : r.master with
    | field => exact .inl (by rw [State.clearRead_field hm])
    | planner =>
      rw [State.clearRead_planner hm]
      cases hi : ws.includes r 0 with
      | true => exact .inr ⟨rfl, rfl⟩
      | false => exact .inl rfl

/-- A read takes a latched cause back only with a PLANNER burst that includes header word 0. -/
theorem State.readWord_latched {s : State} {r : ReadWord} {n : Notice} (h : s.latched n = true) :
    (s.readWord r).latched n = true
      ∨ ∃ ws, s.windows = some ws ∧ r.master = .planner ∧ ws.includes r 0 = true := by
  have hnotices : (s.readWord r).notices = ((s.servedFrom r).serveRead r).notices := by rw [State.readWord_eq]
  have hfrom : (s.servedFrom r).notices = s.notices := by rw [State.servedFrom_eq]
  have hsame : ∀ u : State, u.notices = (s.servedFrom r).notices → u.latched n = true := fun u hu => by
    rw [State.latched, hu, hfrom]
    exact h
  unfold State.latched
  rw [hnotices]
  unfold State.serveRead
  split
  · exact .inl (hsame _ rfl)
  · rename_i ws hws
    split
    · exact .inl (latched_or _ (hsame (s.servedFrom r) rfl))
    · unfold State.readRegion
      split
      · exact .inl (hsame _ rfl)
      · rcases (s.servedFrom r).snapHeader_notices ws r with hk | hclear
        · exact .inl (hsame _ hk)
        · exact .inr ⟨ws, by rw [State.servedFrom_eq] at hws; exact hws, hclear⟩
      · exact .inl (hsame _ (by unfold State.snapOrder; split <;> rfl))
      · exact .inl (hsame _ rfl)
      · exact .inl (hsame _ (by unfold State.snapReport; split <;> rfl))

/-- Settles O60: writes and own commands only latch; a read clears with the snapshot alone. -/
theorem latchedCausesStay : Obligations.LatchedCausesStay := by
  intro c s t n h hs
  cases hw : Instr.write? c with
  | some w =>
    rw [exec_of_write hw] at h
    cases h
    exact ⟨fun hl => .inl ((s.busWrite_orderKept w).notices n hl), (State.busWrite_keeps hw).2⟩
  | none =>
    cases hr : Instr.read? c with
    | some r =>
      rw [exec_of_read hr] at h
      cases h
      refine ⟨fun hl => ?_, fun _ => by rw [(s.readWord_readOnly r).only]⟩
      exact (State.readWord_latched hl).imp_right fun ⟨ws, hread⟩ => ⟨r, ws, rfl, hread⟩
    | none =>
      obtain ⟨t', ht, hk⟩ := exec_of_own hw hr hs s
      rw [ht] at h
      cases h
      exact ⟨fun hl => .inl (hk.notices n hl), fun _ => hk.enable⟩

end Sys2Proof.Machine
end


section
/-!
PROOFS. Takes and announcements: the state an order's or a report's meaning runs on, the answer it leaves in its slot
(R96, R137, R141, R143), and what the announcement of a change adds to it (R9).
-/

open Sys2Proof Sys2Proof.Machine

namespace Sys2Proof.Machine

/-! ### One lane of the four -/

theorem State.updateLane_get (s : State) (l x : LaneIx) (u : Lane → Lane) :
    (s.updateLane l u).lanes[x] = if x = l then u s.lanes[l] else s.lanes[x] := by
  split
  · rename_i h
    subst h
    simp
  · rename_i h
    exact (s.updateLane_oneLane l u).others x h

theorem State.updateLane_get_same (s : State) (l : LaneIx) (u : Lane → Lane) :
    (s.updateLane l u).lanes[l] = u s.lanes[l] := by
  simp

/-- Two lane tables that agree on every lane are the same. -/
theorem lanes_ext {a b : Vector Lane 4} (h : ∀ l : LaneIx, a[l] = b[l]) : a = b := by
  ext i hi
  exact h ⟨i, hi⟩

theorem lanes_set_get (a : Vector Lane 4) (l x : LaneIx) (ln : Lane) :
    (a.set l ln)[x] = if x = l then ln else a[x] := by
  split
  · rename_i h
    subst h
    simp
  · rename_i h
    have : (l : Nat) ≠ x := fun e => h (Fin.ext e.symm)
    simp [Fin.getElem_fin, Vector.getElem_set_ne _ _ this]

/-- An operation on one lane alone leaves a table that differs there alone. -/
theorem OneLane.lanes_eq {l : LaneIx} {s t : State} (h : OneLane l s t) : t.lanes = s.lanes.set l t.lanes[l] :=
  lanes_ext fun x => by
    rw [lanes_set_get]
    split
    · rename_i e; rw [e]
    · rename_i e; exact h.others x e

/-- One that latches nothing changes its lane and nothing else. -/
theorem OneLane.eq_of_notices {l : LaneIx} {s t : State} (h : OneLane l s t) (hn : t.notices = s.notices) :
    t = { s with lanes := s.lanes.set l t.lanes[l] } := by
  have honly := h.only
  rw [h.lanes_eq, hn] at honly
  exact honly

/-! ### The trigger changes the arbiter alone (R41) -/

@[simp] theorem State.trigger_mode (s : State) : s.trigger.mode = s.mode := by
  obtain ⟨a, h⟩ := s.trigger_eq
  rw [h]

@[simp] theorem State.trigger_segs (s : State) : s.trigger.segs = s.segs := by
  obtain ⟨a, h⟩ := s.trigger_eq
  rw [h]

@[simp] theorem State.trigger_moves (s : State) : s.trigger.moves = s.moves := by
  obtain ⟨a, h⟩ := s.trigger_eq
  rw [h]

@[simp] theorem State.trigger_queue (s : State) : s.trigger.queue = s.queue := by
  obtain ⟨a, h⟩ := s.trigger_eq
  rw [h]

@[simp] theorem State.trigger_tokens (s : State) : s.trigger.tokens = s.tokens := by
  obtain ⟨a, h⟩ := s.trigger_eq
  rw [h]

@[simp] theorem State.trigger_lanes (s : State) : s.trigger.lanes = s.lanes := by
  obtain ⟨a, h⟩ := s.trigger_eq
  rw [h]

@[simp] theorem State.trigger_orders (s : State) : s.trigger.orders = s.orders := by
  obtain ⟨a, h⟩ := s.trigger_eq
  rw [h]

@[simp] theorem State.trigger_reports (s : State) : s.trigger.reports = s.reports := by
  obtain ⟨a, h⟩ := s.trigger_eq
  rw [h]

@[simp] theorem State.trigger_notices (s : State) : s.trigger.notices = s.notices := by
  obtain ⟨a, h⟩ := s.trigger_eq
  rw [h]

@[simp] theorem State.trigger_timing (s : State) : s.trigger.timing = s.timing := by
  obtain ⟨a, h⟩ := s.trigger_eq
  rw [h]

@[simp] theorem State.trigger_admissionCounter (s : State) : s.trigger.admissionCounter = s.admissionCounter := by
  obtain ⟨a, h⟩ := s.trigger_eq
  rw [h]

@[simp] theorem State.trigger_gridlock (s : State) : s.trigger.gridlock = s.gridlock := by
  obtain ⟨a, h⟩ := s.trigger_eq
  rw [h]

@[simp] theorem State.trigger_windows (s : State) : s.trigger.windows = s.windows := by
  obtain ⟨a, h⟩ := s.trigger_eq
  rw [h]

@[simp] theorem State.trigger_mem (s : State) : s.trigger.mem = s.mem := by
  obtain ⟨a, h⟩ := s.trigger_eq
  rw [h]

@[simp] theorem State.trigger_enable (s : State) : s.trigger.enable = s.enable := by
  obtain ⟨a, h⟩ := s.trigger_eq
  rw [h]

@[simp] theorem State.trigger_move_look (s : State) (k : SlotIx) : s.trigger.move? k = s.move? k := by
  obtain ⟨x, h⟩ := s.trigger_eq
  rw [h]
  rfl

@[simp] theorem State.trigger_seg_look (s : State) (g : Nat) : s.trigger.seg? g = s.seg? g := by
  obtain ⟨x, h⟩ := s.trigger_eq
  rw [h]
  rfl

@[simp] theorem State.trigger_holder_look (s : State) (g : Nat) : s.trigger.holder g = s.holder g := by
  obtain ⟨x, h⟩ := s.trigger_eq
  rw [h]
  rfl

@[simp] theorem State.trigger_occupant_look (s : State) (g : Nat) : s.trigger.occupant g = s.occupant g := by
  obtain ⟨x, h⟩ := s.trigger_eq
  rw [h]
  rfl

@[simp] theorem State.trigger_live_look (s : State) (k : SlotIx) : s.trigger.live k = s.live k := by
  obtain ⟨x, h⟩ := s.trigger_eq
  rw [h]
  rfl

@[simp] theorem State.trigger_queued_look (s : State) (k : SlotIx) : s.trigger.queued? k = s.queued? k := by
  obtain ⟨x, h⟩ := s.trigger_eq
  rw [h]
  rfl

@[simp] theorem State.trigger_isCell_look (s : State) (g : Nat) : s.trigger.isCell g = s.isCell g := by
  obtain ⟨x, h⟩ := s.trigger_eq
  rw [h]
  rfl

@[simp] theorem State.trigger_cellLane_look (s : State) (g : Nat) : s.trigger.cellLane g = s.cellLane g := by
  obtain ⟨x, h⟩ := s.trigger_eq
  rw [h]
  rfl

@[simp] theorem State.trigger_berthOf_look (s : State) (g : Nat) : s.trigger.berthOf g = s.berthOf g := by
  obtain ⟨x, h⟩ := s.trigger_eq
  rw [h]
  rfl

@[simp] theorem State.trigger_moveOfBench_look (s : State) (b : Nat) : s.trigger.moveOfBench b = s.moveOfBench b := by
  obtain ⟨x, h⟩ := s.trigger_eq
  rw [h]
  rfl

@[simp] theorem State.trigger_tableState_look (s : State) (m : Move) : s.trigger.tableState m = s.tableState m := by
  obtain ⟨x, h⟩ := s.trigger_eq
  rw [h]
  rfl

@[simp] theorem State.trigger_latched_look (s : State) (n : Notice) : s.trigger.latched n = s.latched n := by
  obtain ⟨x, h⟩ := s.trigger_eq
  rw [h]
  rfl

/-! ### Announcements (R9, R17, R78) -/

theorem Segment.announcedBy_self (g : Segment) : g.announcedBy g = false := by
  unfold Segment.announcedBy
  cases g.isOpen <;> cases g.fenced <;> rfl

/-- A change of the records in their places announces exactly the records that its change of each announces. -/
theorem announced_map (l : List Segment) (f : Segment → Segment) :
    announced l (l.map f) = (l.filter fun g => g.announcedBy (f g)).map f := by
  unfold announced
  induction l with
  | nil => rfl
  | cons g rest ih =>
    simp only [List.map_cons, List.zip_cons_cons, List.filter_cons]
    cases g.announcedBy (f g) <;> simpa using ih

theorem announced_map_eq_nil {l : List Segment} {f : Segment → Segment} (h : ∀ g ∈ l, g.announcedBy (f g) = false) :
    announced l (l.map f) = [] := by
  rw [announced_map, List.map_eq_nil_iff, List.filter_eq_nil_iff]
  exact fun g hg => by simp [h g hg]

theorem announced_self (l : List Segment) : announced l l = [] := by
  have h := announced_map_eq_nil (l := l) (f := id) fun g _ => g.announcedBy_self
  rwa [List.map_id] at h

/-- A record a change does not open, and does not unfence, is not announced. -/
theorem Segment.announcedBy_of_not_open {r g : Segment} (h : g.isOpen = false) : r.announcedBy g = false := by
  simp [Segment.announcedBy, h]

theorem Segment.not_open_of_occupied {g : Segment} (h : g.occupant ≠ none) : g.isOpen = false := by
  cases ho : g.occupant with
  | none => exact absurd ho h
  | some x => simp [Segment.isOpen, ho]

theorem Segment.not_open_of_held {g : Segment} (h : g.holder ≠ none) : g.isOpen = false := by
  cases ho : g.holder with
  | none => exact absurd ho h
  | some x => simp [Segment.isOpen, ho]

theorem State.announce_of_none {before s : State} (h : announced before.segs s.segs = []) : before.announce s = s := by
  simp [State.announce, h]

theorem State.announce_of_some {before s : State} (h : announced before.segs s.segs ≠ []) :
    before.announce s = ((((s.announceLane (announced before.segs s.segs) 0).announceLane
      (announced before.segs s.segs) 1).announceLane (announced before.segs s.segs) 2).announceLane
      (announced before.segs s.segs) 3).trigger := by
  have he : (announced before.segs s.segs).isEmpty = false := by simpa using h
  simp [State.announce, he]

theorem State.announce_of_same_segs {before s : State} (h : s.segs = before.segs) : before.announce s = s :=
  State.announce_of_none (by rw [h, announced_self])

/-- Only the record of its segments counts of the state before. -/
theorem State.announce_congr {a b : State} (h : a.segs = b.segs) (s : State) : a.announce s = b.announce s := by
  unfold State.announce
  rw [h]

theorem State.trigger_triggered (s : State) : s.trigger.Triggered := by
  intro hmode
  have hm : s.mode = .running := s.trigger_steady.mode ▸ hmode
  unfold State.trigger
  rw [hm]
  dsimp only
  split
  · exact .inr rfl
  · exact .inl rfl

theorem State.announce_triggered {before s : State} (h : announced before.segs s.segs ≠ []) :
    (before.announce s).Triggered := by
  rw [State.announce_of_some h]
  exact State.trigger_triggered _

theorem State.trigger_crossingAsks (s : State) : s.trigger.crossingAsks = s.crossingAsks := by
  obtain ⟨a, ha⟩ := s.trigger_eq
  rw [ha]

/-- Which lanes have a crossing that waits does not depend on what is to be asked for. -/
theorem State.awaitsRest_asks (s : State) (x : Vector Bool 4) (l : LaneIx) :
    { s with crossingAsks := x }.awaitsRest l = s.awaitsRest l := rfl

theorem asks_set_get (x : Vector Bool 4) (l y : LaneIx) (b : Bool) : (x.set l b)[y] = if y = l then b else x[y] := by
  split
  · rename_i h
    subst h
    simp
  · rename_i h
    have : (l : Nat) ≠ y := fun e => h (Fin.ext e.symm)
    simp [Fin.getElem_fin, Vector.getElem_set_ne _ _ this]

/-- What one lane's announcement adds to what is to be asked for (R78). -/
theorem State.announceLane_mark (s : State) (a : List Segment) (l : LaneIx) : s.announceLane a l =
    { s with
      crossingAsks := s.crossingAsks.set l
        (s.crossingAsks[l] || (a.any (fun g => g.kind.lane = some l) && (s.awaitsRest l).isSome)) } := by
  unfold State.announceLane
  split
  · rename_i h
    rw [State.askRest_eq, h, Bool.true_and]
  · rename_i h
    simp only [Bool.not_eq_true] at h
    simp [h]

/-- The announcements of a change, delivered to the four lanes: who is to ask again (R9, R78). -/
theorem State.announce_asks (before s : State) : State.AsksAgain before s (before.announce s) := by
  intro l
  by_cases h : announced before.segs s.segs = []
  · rw [State.announce_of_none h, h]
    simp
  · rw [State.announce_of_some h, State.trigger_crossingAsks]
    simp only [State.announceLane_mark, asks_set_get, State.awaitsRest_asks]
    fin_cases l <;> rfl

theorem State.awaitsRest_of_not_entered {s : State} {l : LaneIx} (h : s.lanes[l].enteredSlot = none) :
    s.awaitsRest l = none := by
  unfold State.awaitsRest
  dsimp only
  unfold Lane.enteredSlot at h
  split
  · split
    · rename_i k hc
      rw [hc] at h
      cases h
    · rfl
    · rfl
  · rfl

/-- With no entered crossing an announcement is the trigger alone. -/
theorem State.announce_of_noEntered {before s : State} (h : s.NoEntered) :
    before.announce s = if announced before.segs s.segs = [] then s else s.trigger := by
  have hlane : ∀ (u : State) (a : List Segment) (l : LaneIx), u.NoEntered → u.announceLane a l = u := by
    intro u a l hu
    unfold State.announceLane State.askRest
    simp [State.awaitsRest_of_not_entered (hu l)]
  by_cases he : announced before.segs s.segs = []
  · rw [State.announce_of_none he, if_pos he]
  · rw [State.announce_of_some he, if_neg he, hlane s _ 0 h, hlane s _ 1 h, hlane s _ 2 h, hlane s _ 3 h]

theorem State.announce_frame (before s : State) : before.announce s
    = { s with crossingAsks := (before.announce s).crossingAsks, arbiter := (before.announce s).arbiter } := by
  obtain ⟨x, a, h⟩ := before.announce_eq s
  rw [h]

/-! ### The take of an order (R137, R140, R141) -/

theorem orderRecord_set_tag (sh : Vector Word 8) (w : Word) : orderRecord (sh.set 7 w) = orderRecord sh := by
  simp [orderRecord]

theorem orders_set_get_same (o : Vector OrderSlot 32) (k : SlotIx) (x : OrderSlot) : (o.set k x)[k] = x := by
  simp

/-- What a take leaves in its slot, whatever verdict it then sets. -/
theorem State.setVerdict_of_took {s u : State} {k : SlotIx} {tag : Word} {v : Verdict}
    (h : u.orders = s.orders.set k (s.takenSlot k tag v)) (v' : Verdict) :
    u.setVerdict k v' = { u with orders := s.orders.set k (s.takenSlot k tag v') } := by
  unfold State.setVerdict State.updateOrder
  rw [h, orders_set_get_same, Vector.set_set]
  rfl

theorem State.applied_of_took {s u : State} {k : SlotIx} {tag : Word} {v : Verdict}
    (h : u.orders = s.orders.set k (s.takenSlot k tag v)) :
    u.applied k = { u with orders := s.orders.set k (s.takenSlot k tag .applied) } :=
  State.setVerdict_of_took h _

theorem State.refuse_tookOrder (s : State) (addr : WordAddr) (tag : Word) (k : SlotIx) (v : Verdict) (r : RefuseReason) :
    (s.tookOrder addr tag k v).refuse k r = s.refusedOrder addr tag k r := by
  unfold State.refuse
  rw [State.setVerdict_of_took (s := s) rfl]
  rfl

theorem State.applied_tookOrder (s : State) (addr : WordAddr) (tag : Word) (k : SlotIx) (v : Verdict) :
    (s.tookOrder addr tag k v).applied k = s.tookOrder addr tag k .applied :=
  State.applied_of_took rfl

/-- The state of a take before its kind is looked at: the record is stored, its tag the last taken (R137). -/
def State.atOrder (s : State) (addr : WordAddr) (tag : Word) (k : SlotIx) : State :=
  { s with
    mem := memWrite s.mem addr allLanes tag
    orders := s.orders.set k { s.orders[k] with shadow := s.orders[k].shadow.set 7 tag, lastTag := tagOf tag } }

theorem State.atOrder_eq (s : State) (addr : WordAddr) (tag : Word) (k : SlotIx) :
    (((s.storeWord (wholeWrite .planner addr tag)).mergeTag k tag).updateOrder k fun o => { o with lastTag := tagOf tag })
      = s.atOrder addr tag k := by
  rw [State.storeWord_eq]
  unfold State.mergeTag State.updateOrder wholeWrite State.atOrder
  dsimp only [effAddr_planner]
  rw [orders_set_get_same, Vector.set_set]

theorem State.atOrder_orderOf (s : State) (addr : WordAddr) (tag : Word) (k : SlotIx) :
    (s.atOrder addr tag k).orderOf k = s.orderOf k := by
  unfold State.orderOf State.atOrder
  dsimp only
  rw [orders_set_get_same, orderRecord_set_tag]

theorem State.clearVerdict_atOrder (s : State) (addr : WordAddr) (tag : Word) (k : SlotIx) :
    (s.atOrder addr tag k).clearVerdict k = s.tookOrder addr tag k .free := by
  unfold State.clearVerdict State.updateOrder State.atOrder State.tookOrder State.takenSlot
  dsimp only
  rw [orders_set_get_same, Vector.set_set]

/-- The take of an order, by the liveness of its slot and the mode. -/
theorem State.takeOrder_eq (s : State) (carry : SlotIx → OrderRecord → State → State) (addr : WordAddr) (tag : Word)
    (k : SlotIx) : (s.storeWord (wholeWrite .planner addr tag)).takeOrder carry k tag
      = if s.live k then (s.atOrder addr tag k).overrun k
        else if s.mode = .blocking then (s.tookOrder addr tag k .free).refuse k .imageFault
        else s.announce (carry k (s.orderOf k) (s.tookOrder addr tag k .free)) := by
  have hlive : (s.atOrder addr tag k).live k = s.live k := rfl
  have hmode : (s.atOrder addr tag k).mode = s.mode := rfl
  unfold State.takeOrder
  rw [State.atOrder_eq]
  dsimp only
  rw [State.atOrder_orderOf, State.clearVerdict_atOrder, hlive, hmode,
    State.announce_congr (a := s.storeWord (wholeWrite .planner addr tag)) (b := s) rfl]

/-- The take in a slot that is not live, in a working mode: the kind's meaning on the cleared slot, announced. -/
theorem State.orderRow_of_take {s : State} {kind : Option OrderKind} {addr : WordAddr} {tag : Word} {k : SlotIx}
    (h : s.TakesOrder kind addr tag k) (carry : SlotIx → OrderRecord → State → State) :
    s.orderRow kind carry addr tag = s.announce (carry k (s.orderOf k) (s.tookOrder addr tag k .free)) := by
  obtain ⟨htaken, hlive, hworks⟩ := h
  have hmode : s.mode ≠ .blocking := by rcases hworks with e | e <;> rw [e] <;> decide
  unfold State.orderRow
  rw [htaken]
  dsimp only
  rw [State.takeOrder_eq, if_neg (by simp [hlive]), if_neg hmode]

section orders
variable {s : State} {addr : WordAddr} {tag : Word} {k : SlotIx}

/-- A refusal is announced to nobody. -/
theorem State.announce_refusedOrder (r : RefuseReason) :
    s.announce (s.refusedOrder addr tag k r) = s.refusedOrder addr tag k r :=
  State.announce_of_same_segs rfl

theorem State.announce_tookOrder (v : Verdict) : s.announce (s.tookOrder addr tag k v) = s.tookOrder addr tag k v :=
  State.announce_of_same_segs rfl

/-- A kind that refuses the order of its take leaves the refusal and nothing else (R143). -/
theorem State.orderRow_refused {kind : Option OrderKind} {carry : SlotIx → OrderRecord → State → State}
    {r : RefuseReason} (h : s.TakesOrder kind addr tag k)
    (hcarry : carry k (s.orderOf k) (s.tookOrder addr tag k .free) = (s.tookOrder addr tag k .free).refuse k r) :
    s.orderRow kind carry addr tag = s.refusedOrder addr tag k r := by
  rw [State.orderRow_of_take h, hcarry, State.refuse_tookOrder, State.announce_refusedOrder]

/-- One that only applies it leaves APPLIED and nothing else. -/
theorem State.orderRow_applied {kind : Option OrderKind} {carry : SlotIx → OrderRecord → State → State}
    (h : s.TakesOrder kind addr tag k)
    (hcarry : carry k (s.orderOf k) (s.tookOrder addr tag k .free) = (s.tookOrder addr tag k .free).applied k) :
    s.orderRow kind carry addr tag = s.tookOrder addr tag k .applied := by
  rw [State.orderRow_of_take h, hcarry, State.applied_tookOrder, State.announce_tookOrder]

end orders

/-! ### The take of a report (R96 to R98) -/

/-- The state a report is judged in: the tag stored and taken, the acceptance still the old one (R96). -/
def State.atReport (s : State) (addr : WordAddr) (tag : Word) (j : ReportIx) : State :=
  { s with
    mem := memWrite s.mem (effAddr .field addr) allLanes tag
    reports := s.reports.set j { s.reports[j] with shadow := s.reports[j].shadow.set 3 tag, lastTag := tagOf tag } }

theorem reportRecord_set_tag (sh : Vector Word 4) (w : Word) : reportRecord (sh.set 3 w) = reportRecord sh := by
  simp [reportRecord]

theorem reports_set_get_same (o : Vector ReportSlot 16) (j : ReportIx) (x : ReportSlot) : (o.set j x)[j] = x := by
  simp

/-- The acceptance set at the end of a take (R97). -/
theorem State.acceptance_of_atReport {s u : State} {addr : WordAddr} {tag : Word} {j : ReportIx}
    (h : u.reports = (s.atReport addr tag j).reports) (x : Acceptance) :
    (u.updateReport j fun r => { r with acceptance := x, judgedTag := tagOf tag })
      = { u with reports := s.reports.set j (s.takenReport j tag x) } := by
  unfold State.updateReport
  rw [h]
  unfold State.atReport
  dsimp only
  rw [reports_set_get_same, Vector.set_set]
  rfl

theorem State.atReport_eq (s : State) (addr : WordAddr) (tag : Word) (j : ReportIx) :
    (((s.storeWord (wholeWrite .field addr tag)).mergeReportTag j tag).updateReport j
      fun r => { r with lastTag := tagOf tag }) = s.atReport addr tag j := by
  rw [State.storeWord_eq]
  unfold State.mergeReportTag State.updateReport wholeWrite State.atReport
  dsimp only
  rw [reports_set_get_same, Vector.set_set]

theorem State.atReport_reportOf (s : State) (addr : WordAddr) (tag : Word) (j : ReportIx) :
    (s.atReport addr tag j).reportOf j = s.reportOf j := by
  unfold State.atReport State.reportOf
  dsimp only
  rw [reports_set_get_same, reportRecord_set_tag]

/-- The take of a report, whatever the mode: the judgement, its acceptance, and the announcement. -/
theorem State.takeReport_eq (s : State) (kind : Option ReportKind) (addr : WordAddr) (tag : Word) (j : ReportIx)
    {u : State} {x : Acceptance} (hu : (s.atReport addr tag j).judge (carryReport kind) j = (u, x)) :
    (s.storeWord (wholeWrite .field addr tag)).takeReport (carryReport kind) j tag
      = s.announce ({ u with reports := s.reports.set j (s.takenReport j tag x) }.noteRejection x) := by
  have hreports : u.reports = (s.atReport addr tag j).reports := by
    have := ((s.atReport addr tag j).judge_kept kind j).reports
    rwa [hu] at this
  unfold State.takeReport
  rw [State.atReport_eq]
  dsimp only
  rw [hu]
  dsimp only
  rw [State.acceptance_of_atReport hreports,
    State.announce_congr (a := s.storeWord (wholeWrite .field addr tag)) (b := s) rfl]

/-- The take of a report in a working mode. -/
theorem State.reportRow_of_take {s : State} {kind : Option ReportKind} {addr : WordAddr} {tag : Word} {j : ReportIx}
    (h : s.TakesReport kind addr tag j) {u : State} {x : Acceptance}
    (hu : carryReport kind (s.reportOf j) (s.atReport addr tag j) = (u, x)) :
    s.reportRow kind (carryReport kind) addr tag
      = s.announce ({ u with reports := s.reports.set j (s.takenReport j tag x) }.noteRejection x) := by
  obtain ⟨htaken, hworks⟩ := h
  have hmode : (s.atReport addr tag j).mode ≠ .blocking := by
    show s.mode ≠ .blocking
    rcases hworks with e | e <;> rw [e] <;> decide
  have hjudge : (s.atReport addr tag j).judge (carryReport kind) j = (u, x) := by
    unfold State.judge
    rw [if_neg hmode]
    exact (congrArg (carryReport kind · _) (s.atReport_reportOf addr tag j)).trans hu
  unfold State.reportRow
  rw [htaken]
  exact s.takeReport_eq kind addr tag j hjudge

section reports
variable {s : State} {kind : Option ReportKind} {addr : WordAddr} {tag : Word} {j : ReportIx}

/-- A judgement that rejects and changes nothing (R98). -/
theorem State.reportRow_rejected {r : RejectReason} (h : s.TakesReport kind addr tag j)
    (hr : carryReport kind (s.reportOf j) (s.atReport addr tag j) = (s.atReport addr tag j, .rejected r)) :
    s.reportRow kind (carryReport kind) addr tag = s.rejectedReport addr tag j r := by
  rw [State.reportRow_of_take h hr]
  exact State.announce_of_same_segs rfl

/-- A judgement that takes the report and changes nothing. -/
theorem State.reportRow_taken {x : Acceptance} (h : s.TakesReport kind addr tag j) (hx : ∀ r, x ≠ .rejected r)
    (hr : carryReport kind (s.reportOf j) (s.atReport addr tag j) = (s.atReport addr tag j, x)) :
    s.reportRow kind (carryReport kind) addr tag = s.tookReport addr tag j x := by
  rw [State.reportRow_of_take h hr]
  have hnote : ∀ u : State, u.noteRejection x = u := fun u => by
    cases x with
    | rejected r => exact absurd rfl (hx r)
    | _ => rfl
  rw [hnote]
  exact State.announce_of_same_segs rfl

end reports

/-! ### What a take leaves of the tables it is judged by -/

@[simp] theorem State.tookOrder_segs (s : State) (addr : WordAddr) (tag : Word) (k : SlotIx) (v : Verdict) : (s.tookOrder addr tag k v).segs = s.segs := rfl
@[simp] theorem State.tookOrder_moves (s : State) (addr : WordAddr) (tag : Word) (k : SlotIx) (v : Verdict) : (s.tookOrder addr tag k v).moves = s.moves := rfl
@[simp] theorem State.tookOrder_queue (s : State) (addr : WordAddr) (tag : Word) (k : SlotIx) (v : Verdict) : (s.tookOrder addr tag k v).queue = s.queue := rfl
@[simp] theorem State.tookOrder_tokens (s : State) (addr : WordAddr) (tag : Word) (k : SlotIx) (v : Verdict) : (s.tookOrder addr tag k v).tokens = s.tokens := rfl
@[simp] theorem State.tookOrder_lanes (s : State) (addr : WordAddr) (tag : Word) (k : SlotIx) (v : Verdict) : (s.tookOrder addr tag k v).lanes = s.lanes := rfl
@[simp] theorem State.tookOrder_arbiter (s : State) (addr : WordAddr) (tag : Word) (k : SlotIx) (v : Verdict) : (s.tookOrder addr tag k v).arbiter = s.arbiter := rfl
@[simp] theorem State.tookOrder_mode (s : State) (addr : WordAddr) (tag : Word) (k : SlotIx) (v : Verdict) : (s.tookOrder addr tag k v).mode = s.mode := rfl
@[simp] theorem State.tookOrder_timing (s : State) (addr : WordAddr) (tag : Word) (k : SlotIx) (v : Verdict) : (s.tookOrder addr tag k v).timing = s.timing := rfl
@[simp] theorem State.tookOrder_notices (s : State) (addr : WordAddr) (tag : Word) (k : SlotIx) (v : Verdict) : (s.tookOrder addr tag k v).notices = s.notices := rfl
@[simp] theorem State.tookOrder_crossingAsks (s : State) (addr : WordAddr) (tag : Word) (k : SlotIx) (v : Verdict) : (s.tookOrder addr tag k v).crossingAsks = s.crossingAsks := rfl
@[simp] theorem State.tookOrder_move_look (s : State) (addr : WordAddr) (tag : Word) (k : SlotIx) (v : Verdict) (x : SlotIx) :
    (s.tookOrder addr tag k v).move? x = s.move? x := rfl
@[simp] theorem State.tookOrder_moveOfBench_look (s : State) (addr : WordAddr) (tag : Word) (k : SlotIx) (v : Verdict) (b : Nat) :
    (s.tookOrder addr tag k v).moveOfBench b = s.moveOfBench b := rfl
@[simp] theorem State.tookOrder_live_look (s : State) (addr : WordAddr) (tag : Word) (k : SlotIx) (v : Verdict) (x : SlotIx) :
    (s.tookOrder addr tag k v).live x = s.live x := rfl
@[simp] theorem State.tookOrder_link_look (s : State) (addr : WordAddr) (tag : Word) (k : SlotIx) (v : Verdict) (x : SlotIx) :
    (s.tookOrder addr tag k v).link x = s.link x := rfl
@[simp] theorem State.tookOrder_queued_look (s : State) (addr : WordAddr) (tag : Word) (k : SlotIx) (v : Verdict) (x : SlotIx) :
    (s.tookOrder addr tag k v).queued? x = s.queued? x := rfl
@[simp] theorem State.tookOrder_seg_look (s : State) (addr : WordAddr) (tag : Word) (k : SlotIx) (v : Verdict) (g : Nat) :
    (s.tookOrder addr tag k v).seg? g = s.seg? g := rfl
@[simp] theorem State.tookOrder_configured_look (s : State) (addr : WordAddr) (tag : Word) (k : SlotIx) (v : Verdict) (g : Nat) :
    (s.tookOrder addr tag k v).configured g = s.configured g := rfl
@[simp] theorem State.tookOrder_holder_look (s : State) (addr : WordAddr) (tag : Word) (k : SlotIx) (v : Verdict) (g : Nat) :
    (s.tookOrder addr tag k v).holder g = s.holder g := rfl
@[simp] theorem State.tookOrder_occupant_look (s : State) (addr : WordAddr) (tag : Word) (k : SlotIx) (v : Verdict) (g : Nat) :
    (s.tookOrder addr tag k v).occupant g = s.occupant g := rfl
@[simp] theorem State.tookOrder_cellLane_look (s : State) (addr : WordAddr) (tag : Word) (k : SlotIx) (v : Verdict) (g : Nat) :
    (s.tookOrder addr tag k v).cellLane g = s.cellLane g := rfl
@[simp] theorem State.tookOrder_isCell_look (s : State) (addr : WordAddr) (tag : Word) (k : SlotIx) (v : Verdict) (g : Nat) :
    (s.tookOrder addr tag k v).isCell g = s.isCell g := rfl
@[simp] theorem State.tookOrder_benchAt_look (s : State) (addr : WordAddr) (tag : Word) (k : SlotIx) (v : Verdict) (b : Nat) :
    (s.tookOrder addr tag k v).benchAt b = s.benchAt b := rfl
@[simp] theorem State.tookOrder_holdsToken_look (s : State) (addr : WordAddr) (tag : Word) (k : SlotIx) (v : Verdict) (b : Nat) :
    (s.tookOrder addr tag k v).holdsToken b = s.holdsToken b := rfl
@[simp] theorem State.tookOrder_listOk_look (s : State) (addr : WordAddr) (tag : Word) (k : SlotIx) (v : Verdict) (o : OrderRecord) :
    (s.tookOrder addr tag k v).listOk o = s.listOk o := rfl
@[simp] theorem State.tookOrder_markOf_look (s : State) (addr : WordAddr) (tag : Word) (k : SlotIx) (v : Verdict) (g b : Nat) :
    (s.tookOrder addr tag k v).markOf g b = s.markOf g b := rfl
@[simp] theorem State.tookOrder_cellOccupants_look (s : State) (addr : WordAddr) (tag : Word) (k : SlotIx) (v : Verdict) (l : LaneIx) :
    (s.tookOrder addr tag k v).cellOccupants l = s.cellOccupants l := rfl
@[simp] theorem State.tookOrder_moveOfOccupant_look (s : State) (addr : WordAddr) (tag : Word) (k : SlotIx) (v : Verdict) (x : Option Occupant) :
    (s.tookOrder addr tag k v).moveOfOccupant x = s.moveOfOccupant x := rfl
@[simp] theorem State.tookOrder_indexState_look (s : State) (addr : WordAddr) (tag : Word) (k : SlotIx) (v : Verdict) (m : Move) :
    (s.tookOrder addr tag k v).indexState m = s.indexState m := rfl
@[simp] theorem State.tookOrder_benchOnLane_look (s : State) (addr : WordAddr) (tag : Word) (k : SlotIx) (v : Verdict) (b : Nat) (l : LaneIx) :
    (s.tookOrder addr tag k v).benchOnLane b l = s.benchOnLane b l := rfl
@[simp] theorem State.tookOrder_linked_look (s : State) (addr : WordAddr) (tag : Word) (k : SlotIx) (v : Verdict) (a b : Nat) :
    (s.tookOrder addr tag k v).linked a b = s.linked a b := rfl

@[simp] theorem State.atReport_segs (s : State) (addr : WordAddr) (tag : Word) (j : ReportIx) : (s.atReport addr tag j).segs = s.segs := rfl
@[simp] theorem State.atReport_moves (s : State) (addr : WordAddr) (tag : Word) (j : ReportIx) : (s.atReport addr tag j).moves = s.moves := rfl
@[simp] theorem State.atReport_queue (s : State) (addr : WordAddr) (tag : Word) (j : ReportIx) : (s.atReport addr tag j).queue = s.queue := rfl
@[simp] theorem State.atReport_tokens (s : State) (addr : WordAddr) (tag : Word) (j : ReportIx) : (s.atReport addr tag j).tokens = s.tokens := rfl
@[simp] theorem State.atReport_lanes (s : State) (addr : WordAddr) (tag : Word) (j : ReportIx) : (s.atReport addr tag j).lanes = s.lanes := rfl
@[simp] theorem State.atReport_arbiter (s : State) (addr : WordAddr) (tag : Word) (j : ReportIx) : (s.atReport addr tag j).arbiter = s.arbiter := rfl
@[simp] theorem State.atReport_mode (s : State) (addr : WordAddr) (tag : Word) (j : ReportIx) : (s.atReport addr tag j).mode = s.mode := rfl
@[simp] theorem State.atReport_timing (s : State) (addr : WordAddr) (tag : Word) (j : ReportIx) : (s.atReport addr tag j).timing = s.timing := rfl
@[simp] theorem State.atReport_notices (s : State) (addr : WordAddr) (tag : Word) (j : ReportIx) : (s.atReport addr tag j).notices = s.notices := rfl
@[simp] theorem State.atReport_crossingAsks (s : State) (addr : WordAddr) (tag : Word) (j : ReportIx) : (s.atReport addr tag j).crossingAsks = s.crossingAsks := rfl
@[simp] theorem State.atReport_move_look (s : State) (addr : WordAddr) (tag : Word) (j : ReportIx) (x : SlotIx) :
    (s.atReport addr tag j).move? x = s.move? x := rfl
@[simp] theorem State.atReport_moveOfBench_look (s : State) (addr : WordAddr) (tag : Word) (j : ReportIx) (b : Nat) :
    (s.atReport addr tag j).moveOfBench b = s.moveOfBench b := rfl
@[simp] theorem State.atReport_live_look (s : State) (addr : WordAddr) (tag : Word) (j : ReportIx) (x : SlotIx) :
    (s.atReport addr tag j).live x = s.live x := rfl
@[simp] theorem State.atReport_link_look (s : State) (addr : WordAddr) (tag : Word) (j : ReportIx) (x : SlotIx) :
    (s.atReport addr tag j).link x = s.link x := rfl
@[simp] theorem State.atReport_queued_look (s : State) (addr : WordAddr) (tag : Word) (j : ReportIx) (x : SlotIx) :
    (s.atReport addr tag j).queued? x = s.queued? x := rfl
@[simp] theorem State.atReport_seg_look (s : State) (addr : WordAddr) (tag : Word) (j : ReportIx) (g : Nat) :
    (s.atReport addr tag j).seg? g = s.seg? g := rfl
@[simp] theorem State.atReport_configured_look (s : State) (addr : WordAddr) (tag : Word) (j : ReportIx) (g : Nat) :
    (s.atReport addr tag j).configured g = s.configured g := rfl
@[simp] theorem State.atReport_holder_look (s : State) (addr : WordAddr) (tag : Word) (j : ReportIx) (g : Nat) :
    (s.atReport addr tag j).holder g = s.holder g := rfl
@[simp] theorem State.atReport_occupant_look (s : State) (addr : WordAddr) (tag : Word) (j : ReportIx) (g : Nat) :
    (s.atReport addr tag j).occupant g = s.occupant g := rfl
@[simp] theorem State.atReport_cellLane_look (s : State) (addr : WordAddr) (tag : Word) (j : ReportIx) (g : Nat) :
    (s.atReport addr tag j).cellLane g = s.cellLane g := rfl
@[simp] theorem State.atReport_isCell_look (s : State) (addr : WordAddr) (tag : Word) (j : ReportIx) (g : Nat) :
    (s.atReport addr tag j).isCell g = s.isCell g := rfl
@[simp] theorem State.atReport_benchAt_look (s : State) (addr : WordAddr) (tag : Word) (j : ReportIx) (b : Nat) :
    (s.atReport addr tag j).benchAt b = s.benchAt b := rfl
@[simp] theorem State.atReport_holdsToken_look (s : State) (addr : WordAddr) (tag : Word) (j : ReportIx) (b : Nat) :
    (s.atReport addr tag j).holdsToken b = s.holdsToken b := rfl
@[simp] theorem State.atReport_listOk_look (s : State) (addr : WordAddr) (tag : Word) (j : ReportIx) (o : OrderRecord) :
    (s.atReport addr tag j).listOk o = s.listOk o := rfl
@[simp] theorem State.atReport_markOf_look (s : State) (addr : WordAddr) (tag : Word) (j : ReportIx) (g b : Nat) :
    (s.atReport addr tag j).markOf g b = s.markOf g b := rfl
@[simp] theorem State.atReport_cellOccupants_look (s : State) (addr : WordAddr) (tag : Word) (j : ReportIx) (l : LaneIx) :
    (s.atReport addr tag j).cellOccupants l = s.cellOccupants l := rfl
@[simp] theorem State.atReport_moveOfOccupant_look (s : State) (addr : WordAddr) (tag : Word) (j : ReportIx) (x : Option Occupant) :
    (s.atReport addr tag j).moveOfOccupant x = s.moveOfOccupant x := rfl
@[simp] theorem State.atReport_indexState_look (s : State) (addr : WordAddr) (tag : Word) (j : ReportIx) (m : Move) :
    (s.atReport addr tag j).indexState m = s.indexState m := rfl
@[simp] theorem State.atReport_benchOnLane_look (s : State) (addr : WordAddr) (tag : Word) (j : ReportIx) (b : Nat) (l : LaneIx) :
    (s.atReport addr tag j).benchOnLane b l = s.benchOnLane b l := rfl
@[simp] theorem State.atReport_linked_look (s : State) (addr : WordAddr) (tag : Word) (j : ReportIx) (a b : Nat) :
    (s.atReport addr tag j).linked a b = s.linked a b := rfl

end Sys2Proof.Machine
end


section
/-!
PROOFS. The immediate orders (chapters 1, 4, 6 and 7) and the orders and reports turned away: each kind's meaning on the
cleared slot of its take, and what the announcement adds.
-/

open Sys2Proof Sys2Proof.Machine

namespace Sys2Proof.Machine

/-! ### NOTICE_MASK and the orders turned away (R139, R141, R142) -/

/-- Settles O23: the enable set and the slot, and no announcement. -/
theorem noticeMaskReplacesTheEnableSet : Obligations.NoticeMaskReplacesTheEnableSet := by
  intro addr tag s k h
  show Host.Outcome.next (s.orderRow _ noticeMaskOrder addr tag) = _
  rw [State.orderRow_of_take h]
  unfold noticeMaskOrder
  rw [State.applied_of_took (s := s) rfl]
  exact congrArg Host.Outcome.next (State.announce_of_same_segs rfl)

theorem State.overrun_atOrder (s : State) (addr : WordAddr) (tag : Word) (k : SlotIx) :
    (s.atOrder addr tag k).overrun k =
      { s with
        mem := memWrite s.mem addr allLanes tag
        orders := s.orders.set k { s.orders[k] with
          shadow := s.orders[k].shadow.set 7 tag, lastTag := tagOf tag, overrun := true }
        notices := s.notices ||| Notice.mask .slotOverrun ||| Notice.mask .orderRefused } := by
  unfold State.overrun State.updateOrder State.atOrder State.notify
  dsimp only
  rw [orders_set_get_same, Vector.set_set]

/-- The bus write of a tag that takes an order is the take of its shadow's kind. -/
theorem State.busWrite_of_orderTaken {s : State} {kind : Option OrderKind} {addr : WordAddr} {tag : Word} {k : SlotIx}
    (h : s.orderTaken kind addr tag = some k) :
    s.busWrite (wholeWrite .planner addr tag)
      = (s.storeWord (wholeWrite .planner addr tag)).takeOrder (carryOrder kind) k tag := by
  rw [← State.orderRow_eq_busWrite s kind, State.orderRow, h]

theorem State.busWrite_of_reportTaken {s : State} {kind : Option ReportKind} {addr : WordAddr} {tag : Word} {j : ReportIx}
    (h : s.reportTaken kind addr tag = some j) :
    s.busWrite (wholeWrite .field addr tag)
      = (s.storeWord (wholeWrite .field addr tag)).takeReport (carryReport kind) j tag := by
  rw [← State.reportRow_eq_busWrite s kind, State.reportRow, h]

/-- Settles O27: the live slot first, then the mode, then the kind. -/
theorem ordersTurnedAwayBySlotModeAndKind : Obligations.OrdersTurnedAwayBySlotModeAndKind := by
  intro addr tag s k
  refine ⟨fun kind htaken hlive => ?_, fun kind hmode htaken hlive => ?_, fun h => ?_⟩
  · rw [exec_of_write (c := .busWrite _) rfl, State.busWrite_of_orderTaken htaken, State.takeOrder_eq, if_pos hlive,
      State.overrun_atOrder]
  · rw [exec_of_write (c := .busWrite _) rfl, State.busWrite_of_orderTaken htaken, State.takeOrder_eq,
      if_neg (by simp [hlive]), if_pos hmode, State.refuse_tookOrder]
  · exact congrArg Host.Outcome.next (State.orderRow_refused h rfl)

/-! ### FENCE, UNFENCE and VOUCH (R16 to R18) -/

theorem State.listOk_iff (s : State) (o : OrderRecord) :
    s.listOk o = true ↔ 1 ≤ o.length ∧ o.length ≤ 12 ∧ ∀ g ∈ o.ids, s.configured g = true := by
  simp [State.listOk, and_assoc]

/-- An order's answer and a change of the segments, announced (R9): what is asked for, and the trigger. -/
theorem State.announce_segs {s u : State} (hlanes : u.lanes = s.lanes) :
    (∃ t, Host.Outcome.next (φ := Fault) (ρ := Refusal) (s.announce u) = .next t
        ∧ t = { u with crossingAsks := t.crossingAsks, arbiter := t.arbiter } ∧ State.AsksAgain s u t
        ∧ (announced s.segs u.segs ≠ [] → t.Triggered))
      ∧ (s.NoEntered → Host.Outcome.next (φ := Fault) (ρ := Refusal) (s.announce u)
          = .next (if announced s.segs u.segs = [] then u else u.trigger)) := by
  refine ⟨⟨_, rfl, s.announce_frame u, s.announce_asks u, State.announce_triggered⟩, fun h => ?_⟩
  rw [State.announce_of_noEntered fun l => by rw [hlanes]; exact h l]

/-- FENCE opens nothing (R9). -/
theorem announced_setFence (l : List Segment) (ids : List Nat) (c : FenceCause) :
    announced l (l.map fun g => if g.id ∈ ids then { g with fence := some c } else g) = [] := by
  refine announced_map_eq_nil fun g _ => ?_
  split
  · simp [Segment.announcedBy, Segment.isOpen, Segment.fenced]
  · exact g.announcedBy_self

/-- Settles O17: the list check first; FENCE opens nothing, and UNFENCE announces what was open under its fence. -/
theorem fenceAndUnfenceByTheList : Obligations.FenceAndUnfenceByTheList := by
  refine ⟨fun s o => s.listOk_iff o, fun addr tag s k h => ?fence, fun addr tag s k h => ?unfence⟩
  case fence =>
    show Host.Outcome.next (s.orderRow _ fenceOrder addr tag) = _
    cases hlist : s.listOk (s.orderOf k) with
    | false => exact congrArg Host.Outcome.next (State.orderRow_refused h (if_neg (by simp [hlist])))
    | true =>
      rw [State.orderRow_of_take h, fenceOrder, if_pos (show (s.tookOrder addr tag k .free).listOk _ = true from hlist),
        State.applied_of_took (s := s) rfl]
      exact congrArg Host.Outcome.next (State.announce_of_none (announced_setFence _ _ _))
  case unfence =>
    constructor
    · intro hlist
      exact congrArg Host.Outcome.next (State.orderRow_refused h (if_neg (by simp [hlist])))
    · intro hlist u hu
      have hrow : s.orderRow (some .unfence) unfenceOrder addr tag = s.announce u := by
        rw [State.orderRow_of_take h, unfenceOrder,
          if_pos (show (s.tookOrder addr tag k .free).listOk _ = true from hlist), State.applied_of_took (s := s) rfl, hu]
        rfl
      show (∃ t, Host.Outcome.next (s.orderRow (some .unfence) unfenceOrder addr tag) = .next t ∧ _)
        ∧ (_ → Host.Outcome.next (s.orderRow (some .unfence) unfenceOrder addr tag) = _)
      rw [hrow]
      obtain ⟨⟨t, ht, hframe, hasks, htrigger⟩, hquiet⟩ := State.announce_segs (s := s) (u := u) (by rw [hu]; rfl)
      refine ⟨⟨t, ht, hframe, hasks, fun ⟨g, hg, hid, hfenced, hopen⟩ => htrigger ?_⟩, hquiet⟩
      have husegs : u.segs = s.segs.map fun g => if g.id ∈ (s.orderOf k).ids then { g with fence := none } else g := by
        rw [hu]
      rw [husegs, announced_map]
      have hann : g.announcedBy { g with fence := none } = true := by
        have hopen' : Segment.isOpen { g with fence := none } = true := hopen
        have hfenced' : Segment.fenced { g with fence := none } = false := rfl
        simp [Segment.announcedBy, hopen', hfenced', hfenced]
      refine fun e => absurd (List.filter_eq_nil_iff.1 (List.map_eq_nil_iff.1 e) g hg) ?_
      rw [if_pos hid]
      simpa using hann

theorem Segment.vouched_eq (g : Segment) :
    g.vouched = if g.surveyed = false then { g with surveyed := true, occupant := none } else g := by
  unfold Segment.vouched
  cases hs : g.surveyed <;> simp

/-- Settles O18: the list check, the held check, and the announcement of what is opened. -/
theorem vouchSurveysTheUnsurveyed : Obligations.VouchSurveysTheUnsurveyed := by
  intro addr tag s k h
  have hbad : s.listOk (s.orderOf k) = false → exec (.vouch addr tag) s = .next (s.refusedOrder addr tag k .badSegment) :=
    fun hlist => congrArg Host.Outcome.next (State.orderRow_refused h (if_neg (by simp [hlist])))
  refine ⟨fun hlist => hbad (Bool.eq_false_iff.2 fun e => hlist ((s.listOk_iff _).1 e)), hbad, fun hlist hheld => ?_,
    fun hlist hheld u hu => ?_⟩
  · have hany : ((s.orderOf k).ids.any fun g => (s.holder g).isSome) = true := by simpa using hheld
    exact congrArg Host.Outcome.next (State.orderRow_refused h ((if_pos hlist).trans (if_pos hany)))
  · have hrow : s.orderRow (some .vouch) vouchOrder addr tag = s.announce u := by
      rw [State.orderRow_of_take h, vouchOrder,
        if_pos (show (s.tookOrder addr tag k .free).listOk _ = true from hlist),
        if_neg (by simpa using hheld),
        State.applied_of_took (s := s) rfl, hu]
      congr 2
      refine List.map_congr_left fun g _ => ?_
      by_cases hid : g.id ∈ (s.orderOf k).ids <;> simp [hid, Segment.vouched_eq]
    show (∃ t, Host.Outcome.next (s.orderRow (some .vouch) vouchOrder addr tag) = .next t ∧ _)
      ∧ (_ → Host.Outcome.next (s.orderRow (some .vouch) vouchOrder addr tag) = _)
    rw [hrow]
    obtain ⟨⟨t, ht, hframe, hasks, htrigger⟩, hquiet⟩ := State.announce_segs (s := s) (u := u) (by rw [hu]; rfl)
    refine ⟨⟨t, ht, hframe, hasks, fun ⟨g, hg, hid, hunsurveyed, hholder⟩ => htrigger ?_⟩, hquiet⟩
    have husegs : u.segs = s.segs.map fun g =>
        if g.id ∈ (s.orderOf k).ids ∧ g.surveyed = false then { g with surveyed := true, occupant := none } else g := by
      rw [hu]
    rw [husegs, announced_map]
    have hann : g.announcedBy { g with surveyed := true, occupant := none } = true := by
      simp [Segment.announcedBy, Segment.isOpen, hholder, hunsurveyed]
    refine fun e => absurd (List.filter_eq_nil_iff.1 (List.map_eq_nil_iff.1 e) g hg) ?_
    rw [if_pos ⟨hid, hunsurveyed⟩]
    simpa using hann

/-! ### TOKEN (R20) -/

theorem State.holdsToken_iff (s : State) (b : Nat) :
    s.holdsToken b = true ↔ b ∈ s.tokens ∨ ∃ m, s.moveOfBench b = some m ∧ m.token = true := by
  simp [State.holdsToken, Option.any_eq_true]

/-- Settles O19: one test after the other. -/
theorem tokenByItsTests : Obligations.TokenByItsTests := by
  intro addr tag s k h b hb
  subst hb
  have hrefused : ∀ {r}, tokenOrder k (s.orderOf k) (s.tookOrder addr tag k .free) = (s.tookOrder addr tag k .free).refuse k r →
      exec (.token addr tag) s = .next (s.refusedOrder addr tag k r) :=
    fun e => congrArg Host.Outcome.next (State.orderRow_refused h e)
  have hrow : exec (.token addr tag) s
      = .next (s.announce (tokenOrder k (s.orderOf k) (s.tookOrder addr tag k .free))) :=
    congrArg Host.Outcome.next (State.orderRow_of_take h _)
  have hfree : ∀ {m}, (s.orderOf k).bench ∉ s.tokens → s.moveOfBench (s.orderOf k).bench = m → m.any (·.token) = false →
      ¬ (s.tookOrder addr tag k .free).holdsToken (s.orderOf k).bench = true := by
    intro m hno hm hany e
    rcases (s.holdsToken_iff _).1 e with ht | ⟨x, hx, ht⟩
    · exact hno ht
    · rw [hm] at hx
      rw [hx] at hany
      simp [ht] at hany
  refine ⟨fun hb => hrefused (if_pos hb), fun hb hheld => hrefused ?_, fun hb hno m hm ht => ?_,
    fun hb hno hm hroom => ?_, fun hb hno hm hfull => hrefused ?_⟩
  · rw [tokenOrder, if_neg hb, if_pos (show (s.tookOrder addr tag k .free).holdsToken _ = true from (s.holdsToken_iff _).2 hheld)]
  · rw [hrow, tokenOrder, if_neg hb, if_neg (hfree hno hm (by simp [ht])),
      show (s.tookOrder addr tag k .free).moveOfBench (s.orderOf k).bench = some m from hm]
    dsimp only
    rw [State.applied_of_took (s := s) (tag := tag) (v := .free) rfl]
    exact congrArg Host.Outcome.next (State.announce_of_same_segs (State.trigger_segs _))
  · rw [hrow, tokenOrder, if_neg hb, if_neg (hfree hno hm rfl),
      show (s.tookOrder addr tag k .free).moveOfBench (s.orderOf k).bench = none from hm]
    dsimp only
    rw [if_pos (show (s.tookOrder addr tag k .free).tokens.length < Config.tokenTableSize from hroom),
      State.applied_of_took (s := s) (tag := tag) (v := .free) rfl]
    exact congrArg Host.Outcome.next (State.announce_of_same_segs rfl)
  · rw [tokenOrder, if_neg hb, if_neg (hfree hno hm rfl),
      show (s.tookOrder addr tag k .free).moveOfBench (s.orderOf k).bench = none from hm]
    exact if_neg (Nat.not_lt.2 hfull)

/-! ### STOP_ALL and RESUME (R90, R91, R130, R133) -/

/-- Settles O21: the halt of the part, or no effect, and no announcement. -/
theorem stopAllFreezesEveryTimer : Obligations.StopAllFreezesEveryTimer := by
  intro addr tag s k h
  have hrow : exec (.stopAll addr tag) s
      = .next (s.announce (stopAllOrder k (s.orderOf k) (s.tookOrder addr tag k .free))) :=
    congrArg Host.Outcome.next (State.orderRow_of_take h _)
  have hmode : (s.tookOrder addr tag k .free).mode = s.mode := rfl
  refine ⟨fun hrun => ?_, fun hhalt => ?_⟩
  · rw [hrow, stopAllOrder, hmode, hrun]
    dsimp only
    rw [State.applied_of_took (s := s) (tag := tag) (v := .free) rfl]
    exact congrArg Host.Outcome.next (State.announce_of_same_segs rfl)
  · rw [hrow, stopAllOrder, hmode, hhalt]
    dsimp only
    rw [State.applied_tookOrder, State.announce_tookOrder]

/-- A lane with its frozen timers restarted in full (R91). -/
def State.thawedLane (s : State) (l : LaneIx) (ln : Lane) : Lane :=
  { ln with
    offerTimer := ln.offerTimer.thaw (s.offerFull l)
    crossingTimer := ln.crossingTimer.thaw (s.crossingFull l)
    settleTimer := ln.settleTimer.thaw (s.settleFull l)
    releaseTimer := ln.releaseTimer.thaw (s.releaseFull l) }

theorem State.thawLane_get (s : State) (l x : LaneIx) :
    (s.thawLane l).lanes[x] = if x = l then s.thawedLane l s.lanes[l] else s.lanes[x] :=
  s.updateLane_get l x _

/-- Lane by lane, what is to be asked for after one more lane is to ask (R78). -/
theorem State.askRest_get (s : State) (l x : LaneIx) : (s.askRest l).crossingAsks[x]
    = if x = l then s.crossingAsks[l] || (s.awaitsRest l).isSome else s.crossingAsks[x] := by
  rw [State.askRest_eq]
  exact asks_set_get _ _ _ _

theorem State.askRest_awaitsRest (s : State) (l x : LaneIx) : (s.askRest l).awaitsRest x = s.awaitsRest x := by
  rw [State.askRest_eq]
  rfl

theorem State.trigger_awaitsRest (s : State) (x : LaneIx) : s.trigger.awaitsRest x = s.awaitsRest x := by
  obtain ⟨a, ha⟩ := s.trigger_eq
  rw [ha]
  rfl

/-- From s to t, only the lanes, what they ask for, and the arbiter may differ. -/
def LaneWork (s t : State) : Prop := ∃ x y a, t = { s with lanes := x, crossingAsks := y, arbiter := a }

theorem LaneWork.trans {s t u : State} (h : LaneWork s t) (k : LaneWork t u) : LaneWork s u := by
  obtain ⟨x, y, a, rfl⟩ := h
  obtain ⟨x', y', a', rfl⟩ := k
  exact ⟨x', y', a', rfl⟩

theorem State.thawLane_laneWork (s : State) (l : LaneIx) : LaneWork s (s.thawLane l) := ⟨_, _, _, rfl⟩

theorem State.askRest_laneWork (s : State) (l : LaneIx) : LaneWork s (s.askRest l) := ⟨_, _, _, s.askRest_eq l⟩

theorem State.trigger_laneWork (s : State) : LaneWork s s.trigger := ⟨_, _, s.trigger_eq⟩

/-- What RESUME changes beyond the mode and the moves: the lanes, what they ask for, and the arbiter. -/
theorem State.thawLanes_laneWork (u : State) : LaneWork u u.thawLanes :=
  ((((((((u.thawLane_laneWork 0).trans (State.thawLane_laneWork _ 1)).trans (State.thawLane_laneWork _ 2)).trans
    (State.thawLane_laneWork _ 3)).trans (State.askRest_laneWork _ 0)).trans (State.askRest_laneWork _ 1)).trans
    (State.askRest_laneWork _ 2)).trans (State.askRest_laneWork _ 3)).trans (State.trigger_laneWork _)

theorem State.askRest_lanes (s : State) (l : LaneIx) : (s.askRest l).lanes = s.lanes := by
  rw [State.askRest_eq]

theorem State.thawLanes_get (u : State) (l : LaneIx) : u.thawLanes.lanes[l] = u.thawedLane l u.lanes[l] := by
  unfold State.thawLanes
  dsimp only
  simp only [State.trigger_lanes, State.askRest_lanes, State.thawLane_get]
  fin_cases l <;> rfl

theorem State.thawLanes_asks (u : State) (l : LaneIx) :
    u.thawLanes.crossingAsks[l] = (u.crossingAsks[l] || (u.thawLanes.awaitsRest l).isSome) := by
  unfold State.thawLanes
  dsimp only
  rw [State.trigger_awaitsRest, State.trigger_crossingAsks]
  simp only [State.askRest_get, State.askRest_awaitsRest]
  fin_cases l <;> rfl

theorem State.thawLanes_triggered (u : State) : u.thawLanes.Triggered := State.trigger_triggered _

theorem Timer.thaw_not_frozen (t : Timer) (full n : Nat) : t.thaw full ≠ .frozen n := by
  cases t <;> simp [Timer.thaw]

/-- Settles O22: the part resumes lane by lane, or no effect. -/
theorem resumeRestartsEveryTimerInFull : Obligations.ResumeRestartsEveryTimerInFull := by
  intro addr tag s k h
  have hrow : exec (.resume addr tag) s
      = .next (s.announce (resumeOrder k (s.orderOf k) (s.tookOrder addr tag k .free))) :=
    congrArg Host.Outcome.next (State.orderRow_of_take h _)
  refine ⟨fun hrun => ?_, fun hhalt => ?_⟩
  · rw [hrow, resumeOrder, State.tookOrder_mode, hrun]
    dsimp only
    rw [State.applied_tookOrder, State.announce_tookOrder]
  · generalize hu : ({ s.tookOrder addr tag k .free with
        mode := .running, moves := s.moves.map (s.tookOrder addr tag k .free).thawMove } : State) = u
    have hpart : (s.tookOrder addr tag k .free).resumePart = u.thawLanes := by rw [← hu]; rfl
    have hlanes : ∀ l : LaneIx, u.thawLanes.lanes[l] = s.thawedLane l s.lanes[l] := fun l =>
      (u.thawLanes_get l).trans (by rw [← hu]; rfl)
    have hasks : ∀ l : LaneIx, u.thawLanes.crossingAsks[l] = (s.crossingAsks[l] || (u.thawLanes.awaitsRest l).isSome) :=
      fun l => (u.thawLanes_asks l).trans (by rw [← hu]; rfl)
    have htriggered := u.thawLanes_triggered
    have hwork := u.thawLanes_laneWork
    rw [hrow, resumeOrder, State.tookOrder_mode, hhalt]
    dsimp only
    rw [hpart]
    generalize u.thawLanes = v at *
    obtain ⟨x, y, a, hv⟩ := hwork
    have hsegs : (v.applied k).segs = s.segs := by rw [State.applied_segs, hv, ← hu]; rfl
    have happlied := State.applied_of_took (s := s) (u := v) (k := k) (tag := tag) (v := .free) (by rw [hv, ← hu]; rfl)
    refine ⟨v.applied k, by rw [State.announce_of_same_segs hsegs], ?_, htriggered, hlanes, hasks, ?_⟩
    · rw [happlied, hv, ← hu]
      rfl
    · have hmoves : (v.applied k).moves = s.moves.map (s.tookOrder addr tag k .free).thawMove := by
        rw [happlied, hv, ← hu]
      rw [hmoves]
      intro m hm n
      obtain ⟨x, -, rfl⟩ := List.mem_map.1 hm
      exact ⟨Timer.thaw_not_frozen _ _ _, Timer.thaw_not_frozen _ _ _⟩

end Sys2Proof.Machine
end


section
/-!
PROOFS. The start of a round and the fault of a lane (R67, R68, R84 to R89), the MOVE order (R24 to R29), and the reports
turned away (R99).
-/

open Sys2Proof Sys2Proof.Machine

namespace Sys2Proof.Machine

/-! ### The start of a round (R67, R68) -/

/-- A round start changes its lane alone. -/
theorem State.startRound_eq (s : State) (l : LaneIx) :
    s.startRound l = { s with lanes := s.lanes.set l (s.startRound l).lanes[l] } :=
  (s.startRound_oneLane l).eq_of_notices (by unfold State.startRound; split <;> rfl)

/-- The first berth whose list holds a move depends on the lists and on how many berths there are. -/
theorem Lane.nextBerth_congr {a b : Lane} (hlists : a.lists = b.lists) (hlayout : a.layout = b.layout) (n : Nat) :
    a.nextBerth n = b.nextBerth n := by
  have hcount : a.berthCount = b.berthCount := by rw [Lane.berthCount, Lane.berthCount, hlayout]
  unfold Lane.nextBerth
  rw [hcount, hlists]

/-- A round start of a lane from which a change of its cause and its settle and release timers has been made is a round
start of the lane (R84, R88). -/
theorem State.startRound_roundStarts {s u : State} {l : LaneIx} (hmode : u.mode = s.mode) (htiming : u.timing = s.timing)
    (hlane : u.lanes[l] = { s.lanes[l] with
      cause := none, settleTimer := .stopped, releaseTimer := .stopped }) :
    s.RoundStarts l (u.startRound l) := by
  have hnext : u.lanes[l].nextBerth 0 = s.lanes[l].nextBerth 0 := by
    rw [hlane]
    exact Lane.nextBerth_congr rfl rfl 0
  have hstart : u.startTimer (u.offerFull l) = s.startTimer (s.offerFull l) := by
    simp only [State.startTimer, State.offerFull, hmode, htiming]
  have hget := u.startRound_lane l
  rw [hnext] at hget
  cases hb : s.lanes[l].nextBerth 0 with
  | some k =>
    simp only [hb] at hget
    rw [hlane] at hget
    simp only [State.RoundStarts, hget, hb, hstart, and_self]
  | none =>
    simp only [hb] at hget
    have hberth : u.emptyRoundBerth l = s.emptyRoundBerth l := by
      simp only [State.emptyRoundBerth, htiming, hlane]
      rfl
    rw [hlane, hberth] at hget
    simp only [State.RoundStarts, hget, hb, State.emptyRoundBerth, true_and]
    refine ⟨fun h => by rw [if_pos h], fun h n hn => ?_⟩
    simp only [h, Lane.lastBerth, hn]
    simp

/-- The lane's record as a SETTLING lane leaves it, with neither cause nor release timer (R84). -/
theorem State.leaveSettling_roundStarts {s : State} {l : LaneIx} (hcause : s.lanes[l].cause = none)
    (hrelease : s.lanes[l].releaseTimer = .stopped) : s.RoundStarts l (s.leaveSettling l) := by
  refine State.startRound_roundStarts rfl rfl ?_
  rw [State.updateLane_get_same, ← hcause, ← hrelease]

theorem State.leaveFault_roundStarts {s : State} {l : LaneIx} (hsettle : s.lanes[l].settleTimer = .stopped) :
    s.RoundStarts l (s.leaveFault l) := by
  refine State.startRound_roundStarts rfl rfl ?_
  rw [State.updateLane_get_same, ← hsettle]

theorem State.leaveSettling_eq (s : State) (l : LaneIx) :
    s.leaveSettling l = { s with lanes := s.lanes.set l (s.leaveSettling l).lanes[l] } :=
  ((State.updateLane_oneLane _ _ _).trans (State.startRound_oneLane _ _)).eq_of_notices
    ((congrArg State.notices (State.startRound_eq _ l)).trans rfl)

theorem State.leaveFault_eq (s : State) (l : LaneIx) :
    s.leaveFault l = { s with lanes := s.lanes.set l (s.leaveFault l).lanes[l] } :=
  ((State.updateLane_oneLane _ _ _).trans (State.startRound_oneLane _ _)).eq_of_notices
    ((congrArg State.notices (State.startRound_eq _ l)).trans rfl)

/-- Settles O42: an expiry in its state is the start of a round, which announces nothing. -/
theorem settleAndReleaseStartARound : Obligations.SettleAndReleaseStartARound := by
  refine fun s l => ⟨fun hstate hruns hcause hrelease => ?_, fun hstate hruns hsettle => ?_⟩
  · refine ⟨s.leaveSettling l, ?_, State.leaveSettling_roundStarts hcause hrelease, s.leaveSettling_eq l⟩
    show Host.Outcome.next (s.announce (s.settleExpiry l)) = _
    rw [State.settleExpiry, if_pos ⟨hstate, hruns⟩]
    exact congrArg Host.Outcome.next (State.announce_of_same_segs (by rw [State.leaveSettling_eq]))
  · refine ⟨s.leaveFault l, ?_, State.leaveFault_roundStarts hsettle, s.leaveFault_eq l⟩
    show Host.Outcome.next (s.announce (s.releaseExpiry l)) = _
    rw [State.releaseExpiry, if_pos ⟨hstate, hruns⟩]
    exact congrArg Host.Outcome.next (State.announce_of_same_segs (by rw [State.leaveFault_eq]))

/-! ### LANE_CLEAR (R89, Table 4.4) -/

/-- The meaning of a LANE_CLEAR whose lane exists. -/
theorem laneClearOrder_of_lane {k : SlotIx} {o : OrderRecord} {l : LaneIx} (hl : l.val = o.target) (s : State) :
    laneClearOrder k o s =
      if s.lanes[l].layout.isNone then s.refuse k .notFaulted
      else match s.lanes[l].state with
        | .quiet => s.refuse k .notFaulted
        | .offering => s.refuse k .notFaulted
        | .crossing => s.refuse k .notFaulted
        | .settling => (s.leaveSettling l).applied k
        | .faulted => s.clearFaulted k l := by
  obtain ⟨n, hn⟩ := l
  dsimp only at hl
  subst hl
  unfold laneClearOrder
  exact dif_pos hn

/-- An order's answer beside a change of one lane announces nothing. -/
theorem State.orderRow_lane {s : State} {kind : Option OrderKind} {carry : SlotIx → OrderRecord → State → State}
    {addr : WordAddr} {tag : Word} {k : SlotIx} {x : Vector Lane 4} (h : s.TakesOrder kind addr tag k)
    (hcarry : carry k (s.orderOf k) (s.tookOrder addr tag k .free)
      = ({ s.tookOrder addr tag k .free with lanes := x } : State).applied k) :
    s.orderRow kind carry addr tag = { s.tookOrder addr tag k .applied with lanes := x } := by
  rw [State.orderRow_of_take h, hcarry, State.applied_of_took (s := s) rfl]
  exact State.announce_of_same_segs rfl

theorem tookOrder_unmanagedOccupant (s : State) (addr : WordAddr) (tag : Word) (k : SlotIx) (v : Verdict) :
    (s.tookOrder addr tag k v).unmanagedOccupant = s.unmanagedOccupant := by
  funext x
  cases x with
  | unknown => rfl
  | bench b => simp only [State.unmanagedOccupant, State.tookOrder_moveOfBench_look]

theorem tookOrder_clearableOccupant (s : State) (addr : WordAddr) (tag : Word) (k : SlotIx) (v : Verdict) :
    (s.tookOrder addr tag k v).clearableOccupant = s.clearableOccupant := by
  funext l x
  cases x with
  | unknown => rfl
  | bench b => simp only [State.clearableOccupant, State.tookOrder_moveOfBench_look, State.tookOrder_lanes]

/-- Settles O20: by the first row of Table 4.4 that fits. -/
theorem laneClearByTable : Obligations.LaneClearByTable := by
  intro addr tag s k h
  have hrefused : ∀ {r}, laneClearOrder k (s.orderOf k) (s.tookOrder addr tag k .free)
      = (s.tookOrder addr tag k .free).refuse k r → exec (.laneClear addr tag) s = .next (s.refusedOrder addr tag k r) :=
    fun e => congrArg Host.Outcome.next (State.orderRow_refused h e)
  have happlied : ∀ {x}, laneClearOrder k (s.orderOf k) (s.tookOrder addr tag k .free)
      = ({ s.tookOrder addr tag k .free with lanes := x } : State).applied k →
      exec (.laneClear addr tag) s = .next { s.tookOrder addr tag k .applied with lanes := x } :=
    fun e => congrArg Host.Outcome.next (State.orderRow_lane h e)
  refine ⟨fun hbig => hrefused (dif_neg (by omega)), fun l hl => ?_⟩
  have hcarry := laneClearOrder_of_lane (k := k) hl (s.tookOrder addr tag k .free)
  rw [State.tookOrder_lanes] at hcarry
  refine ⟨fun hno => hrefused ?_, fun hconf hstate hcause hrelease => ?_, fun hconf hstate => ?_⟩
  · rw [hcarry]
    rcases hno with hno | hno | hno | hno
    · exact if_pos (by rw [hno]; rfl)
    all_goals rw [hno]; split <;> rfl
  · have hsome : ¬ s.lanes[l].layout.isNone = true := by simpa using hconf
    rw [if_neg hsome, hstate] at hcarry
    dsimp only at hcarry
    rw [State.leaveSettling_eq] at hcarry
    refine ⟨_, happlied hcarry, ?_, ?_⟩
    · have hround := State.leaveSettling_roundStarts (s := s.tookOrder addr tag k .free) hcause hrelease
      rw [State.leaveSettling_eq] at hround
      exact hround
    · simp
  · have hsome : ¬ s.lanes[l].layout.isNone = true := by simpa using hconf
    rw [if_neg hsome, hstate] at hcarry
    dsimp only at hcarry
    unfold State.clearFaulted at hcarry
    dsimp only at hcarry
    rw [State.tookOrder_cellOccupants_look, tookOrder_unmanagedOccupant, tookOrder_clearableOccupant] at hcarry
    refine ⟨fun hbusy => hrefused ?_, fun hempty hsettle => ?_, fun hmanaged hblocked => hrefused ?_,
      fun hsome hall => ?_⟩
    · rw [hcarry]
      exact if_pos (by simpa using hbusy)
    · rw [hempty] at hcarry
      rw [if_neg (by simp), if_pos (by simp), State.leaveFault_eq] at hcarry
      refine ⟨_, happlied hcarry, ?_, ?_⟩
      · have hround := State.leaveFault_roundStarts (s := s.tookOrder addr tag k .free) hsettle
        rw [State.leaveFault_eq] at hround
        exact hround
      · simp
    · rw [hcarry]
      obtain ⟨x, hx, hxb⟩ := hblocked
      have hnil : s.cellOccupants l ≠ [] := List.ne_nil_of_mem hx
      rw [if_neg (by simpa using hmanaged), if_neg (by simpa using hnil), if_neg (by
        simp only [List.all_eq_true, not_forall]
        exact ⟨x, hx, fun e => Bool.false_ne_true (hxb ▸ e)⟩)]
    · have hmanaged : ¬ (s.cellOccupants l).any s.unmanagedOccupant = true := by
        simp only [List.any_eq_true, not_exists, not_and]
        intro x hx
        have hc := hall x hx
        cases x with
        | unknown => simp [State.clearableOccupant] at hc
        | bench b =>
          simp only [State.clearableOccupant] at hc
          simp only [State.unmanagedOccupant]
          cases hm : s.moveOfBench b with
          | none => simp [hm] at hc
          | some m => simp
      rw [if_neg hmanaged, if_neg (by simpa using hsome), if_pos (by simpa using hall)] at hcarry
      exact happlied hcarry

/-! ### The crossing limit (R85, R86) -/

theorem State.revokeGrant_entered {s : State} {l : LaneIx} {k : SlotIx} (h : s.lanes[l].crossing = some ⟨k, true⟩) :
    s.revokeGrant l = s := by
  unfold State.revokeGrant
  rw [h]

theorem State.revokeGrant_none {s : State} {l : LaneIx} (h : s.lanes[l].crossing = none) : s.revokeGrant l = s := by
  unfold State.revokeGrant
  rw [h]

/-- Settles O41: an entered crossing is not revoked by the fault. -/
theorem crossingLimitFaultsTheLane : Obligations.CrossingLimitFaultsTheLane := by
  intro s l k hstate hcrossing hruns
  show Host.Outcome.next (s.announce (s.crossingLimitExpiry l)) = _
  rw [State.crossingLimitExpiry, if_pos ⟨hstate, hruns⟩, State.faultLane, State.revokeGrant_entered hcrossing]
  exact congrArg Host.Outcome.next (State.announce_of_same_segs rfl)

/-! ### MOVE (R24 to R29) -/

/-- The start segment, once held, is not announced. -/
theorem announced_hold (l : List Segment) (ids : List Nat) (k : SlotIx) :
    announced l (l.map fun g => if g.id ∈ ids then { g with holder := some k } else g) = [] := by
  refine announced_map_eq_nil fun g _ => ?_
  split
  · exact Segment.announcedBy_of_not_open (Segment.not_open_of_held (by simp))
  · exact g.announcedBy_self

theorem tookOrder_lastTag (s : State) (addr : WordAddr) (tag : Word) (k : SlotIx) (v : Verdict) :
    (s.tookOrder addr tag k v).orders[k].lastTag = tagOf tag := by
  simp [State.tookOrder, State.takenSlot]

section placing
variable {s : State} {k : SlotIx} {q : QueuedOrder}

theorem State.placeMove_refused {r : RefuseReason}
    (h : s.admissionFault q.bench (q.route.headD 0) (decide (s.moves.length < Config.moveTableSize)) = some r) :
    s.placeMove k q = s.refuse k r := by
  unfold State.placeMove
  dsimp only
  rw [h]

theorem State.placeMove_admitted (hfree : s.moves.length < Config.moveTableSize)
    (h : s.admissionFault q.bench (q.route.headD 0) true = none) : s.placeMove k q = s.admitOrder q := by
  unfold State.placeMove
  rw [decide_eq_true hfree]
  dsimp only
  rw [h]
  rfl

theorem State.placeMove_held (hfull : ¬ s.moves.length < Config.moveTableSize)
    (h : s.admissionFault q.bench (q.route.headD 0) false = none) :
    s.placeMove k q = if s.queue.length < Config.pendingQueueSize then { s with queue := s.queue ++ [q] }
      else s.refuse k .full := by
  unfold State.placeMove
  rw [decide_eq_false hfull]
  dsimp only
  rw [h]
  rfl

end placing

section move
variable {s : State} {addr : WordAddr} {tag : Word} {k : SlotIx}

theorem exec_move (h : s.TakesOrder (some .move) addr tag k) :
    exec (.move addr tag) s = .next (s.announce (moveOrder k (s.orderOf k) (s.tookOrder addr tag k .free))) :=
  congrArg Host.Outcome.next (State.orderRow_of_take h _)

/-- The route and admission checks read nothing that a take changes. -/
theorem tookOrder_routeOk (v : Verdict) (len : Nat) (route : List Nat) :
    (s.tookOrder addr tag k v).routeOk len route = s.routeOk len route := by
  have hsteps : ∀ r, (s.tookOrder addr tag k v).stepsOk r = s.stepsOk r := by
    intro r
    induction r with
    | nil => rfl
    | cons a rest ih =>
      cases rest with
      | nil => rfl
      | cons b rest =>
        simp only [State.stepsOk, ih]
        rfl
  unfold State.routeOk
  rw [hsteps]
  rfl

/-- A MOVE whose fields and route pass is placed (R25, R26). -/
theorem moveOrder_of_checked {cls : MoveClass} (hcls : moveClass (s.orderOf k).classCode = some cls)
    (hbench : (s.orderOf k).bench ≠ 0) (hroute : s.routeOk (s.orderOf k).length (s.orderOf k).ids = true) :
    moveOrder k (s.orderOf k) (s.tookOrder addr tag k .free)
      = (s.tookOrder addr tag k .free).placeMove k (queuedOrder k (tagOf tag) cls (s.orderOf k)) := by
  unfold moveOrder
  rw [hcls]
  dsimp only
  rw [if_neg hbench, tookOrder_routeOk, if_pos hroute, tookOrder_lastTag]

end move

/-- Settles O25: the counter made ready, the entry, the hold, the trigger. -/
theorem moveIsAdmitted : Obligations.MoveIsAdmitted := by
  intro addr tag s k cls h hcls hbench hroute hfree hchecks numbered next hnumbered hnext
  have hplace : (s.tookOrder addr tag k .free).placeMove k (queuedOrder k (tagOf tag) cls (s.orderOf k))
      = (s.tookOrder addr tag k .free).admitOrder (queuedOrder k (tagOf tag) cls (s.orderOf k)) :=
    State.placeMove_admitted hfree hchecks
  rw [exec_move h, moveOrder_of_checked hcls hbench hroute, hplace]
  unfold State.admitOrder
  have hready : (s.tookOrder addr tag k .free).readyCounter
      = { s.tookOrder addr tag k .free with moves := numbered, admissionCounter := next } := by
    unfold State.readyCounter
    by_cases hc : s.admissionCounter < 65535
    · rw [if_pos (show (s.tookOrder addr tag k .free).admissionCounter + 1 < 65536 from by
        show s.admissionCounter + 1 < 65536; omega), hnumbered, hnext, if_pos hc, if_pos hc]
      rfl
    · rw [if_neg (show ¬ (s.tookOrder addr tag k .free).admissionCounter + 1 < 65536 from by
        show ¬ s.admissionCounter + 1 < 65536; omega), hnumbered, hnext, if_neg hc, if_neg hc]
      rfl
  rw [hready]
  refine congrArg Host.Outcome.next ((State.announce_of_none ?_).trans rfl)
  rw [State.trigger_segs]
  exact announced_hold s.segs _ k

/-! ### The route check (R26) -/

theorem State.isCell_eq_false_iff (s : State) (g : Nat) : s.isCell g = false ↔ s.cellLane g = none := by
  simp [State.isCell]

/-- Two consecutive entries: linked, and cells entered from and left to a berth of their lane (R26). -/
theorem State.stepOk_iff (s : State) (a b : Nat) : s.stepOk a b = true ↔
    s.linked a b = true
      ∧ (∀ l, s.cellLane b = some l → s.cellLane a = some l ∨ (s.isCell a = false ∧ ∃ x, s.berthOf a = some (l, x)))
      ∧ (∀ l, s.cellLane a = some l → s.cellLane b = some l ∨ (s.isCell b = false ∧ ∃ x, s.berthOf b = some (l, x))) := by
  simp only [State.isCell_eq_false_iff]
  unfold State.stepOk
  rw [Bool.and_eq_true]
  refine and_congr_right fun _ => ?_
  cases ha : s.cellLane a with
  | none =>
    cases hb : s.cellLane b with
    | none => simp
    | some l => simp
  | some l =>
    cases hb : s.cellLane b with
    | none => simp
    | some l' =>
      simp only [decide_eq_true_eq, Option.some.injEq, reduceCtorEq, false_and, or_false]
      constructor
      · rintro rfl
        exact ⟨fun _ h => h, fun _ h => h⟩
      · exact fun h => h.1 l' rfl

theorem State.stepsOk_iff (s : State) (r : List Nat) :
    s.stepsOk r = true ↔ ∀ i a b, r[i]? = some a → r[i + 1]? = some b → s.stepOk a b = true := by
  induction r with
  | nil => simp [State.stepsOk]
  | cons x rest ih =>
    cases rest with
    | nil => simp [State.stepsOk]
    | cons y rest =>
      rw [State.stepsOk, Bool.and_eq_true, ih]
      constructor
      · rintro ⟨hxy, hrest⟩ i a b ha hb
        cases i with
        | zero =>
          simp only [List.getElem?_cons_zero, Option.some.injEq, zero_add, List.getElem?_cons_succ] at ha hb
          rw [← ha, ← hb]
          exact hxy
        | succ i => exact hrest i a b (by simpa using ha) (by simpa using hb)
      · intro h
        exact ⟨h 0 x y rfl rfl, fun i a b ha hb => h (i + 1) a b (by simpa using ha) (by simpa using hb)⟩

theorem State.routeOk_iff (s : State) (len : Nat) (route : List Nat) : s.routeOk len route = true ↔
    2 ≤ len ∧ len ≤ 12 ∧ route.length = len ∧ route.Nodup ∧ (∀ g ∈ route, s.configured g = true)
      ∧ s.isCell (route.headD 0) = false ∧ s.isCell (route.getLastD 0) = false
      ∧ ∀ i a b, route[i]? = some a → route[i + 1]? = some b → s.stepOk a b = true := by
  rw [← State.stepsOk_iff, ← noRepeats_iff_nodup]
  simp only [State.routeOk, Bool.and_eq_true, decide_eq_true_eq, List.all_eq_true, Bool.not_eq_true']
  tauto

/-! ### The admission checks (R27, Table 2.2) -/

section admission
variable {s : State} {b start : Nat} {entryFree : Bool}

theorem State.admissionFault_busy (h : (∃ m ∈ s.moves, m.bench = b) ∨ ∃ q ∈ s.queue, q.bench = b) :
    s.admissionFault b start entryFree = some .benchBusy :=
  if_pos (by simpa using h)

/-- Of a bench with no order, the checks go by where it stands. -/
theorem State.admissionFault_idle (hm : ∀ m ∈ s.moves, m.bench ≠ b) (hq : ∀ q ∈ s.queue, q.bench ≠ b) :
    s.admissionFault b start entryFree = match s.benchAt b with
      | [] => some .unlocated
      | _ :: _ :: _ => some .notAtRest
      | [g] =>
        if g ≠ start then some .notAtStart
        else if entryFree && (s.holder start).isSome then some .heldSegment
        else none :=
  if_neg (by
    simp only [Bool.or_eq_true, List.any_eq_true, beq_iff_eq, not_or, not_exists, not_and]
    exact ⟨hm, hq⟩)

theorem State.admissionFault_at {g : Nat} (hm : ∀ m ∈ s.moves, m.bench ≠ b) (hq : ∀ q ∈ s.queue, q.bench ≠ b)
    (hat : s.benchAt b = [g]) : s.admissionFault b start entryFree =
      if g ≠ start then some .notAtStart
      else if entryFree && (s.holder start).isSome then some .heldSegment
      else none := by
  rw [State.admissionFault_idle hm hq, hat]

end admission

/-- Settles O26: the stages in their order, the admission checks by the bench's place, the route check entry by entry. -/
theorem moveIsRefusedByItsChecksOrQueued : Obligations.MoveIsRefusedByItsChecksOrQueued := by
  refine ⟨fun addr tag s k h => ?stages, fun s b start entryFree => ?admission, fun s len route => ?route⟩
  case stages =>
    have hrefused : ∀ {r}, moveOrder k (s.orderOf k) (s.tookOrder addr tag k .free)
        = (s.tookOrder addr tag k .free).refuse k r → exec (.move addr tag) s = .next (s.refusedOrder addr tag k r) :=
      fun e => congrArg Host.Outcome.next (State.orderRow_refused h e)
    refine ⟨fun hfields => hrefused ?_, fun cls hcls hbench => ⟨fun hroute => hrefused ?_, fun hroute => ?_⟩⟩
    · unfold moveOrder
      split
      · rfl
      · rename_i hsome
        rw [if_pos (hfields.resolve_left (by simp [hsome]))]
    · unfold moveOrder
      rw [hcls]
      dsimp only
      rw [if_neg hbench, tookOrder_routeOk, if_neg (by simp [hroute])]
    · have hmove := moveOrder_of_checked (addr := addr) (tag := tag) hcls hbench hroute
      refine ⟨fun r hr => hrefused ?_, fun hfull hok => ?_⟩
      · rw [hmove]
        exact State.placeMove_refused hr
      · have hplace := hmove.trans (State.placeMove_held (Nat.not_lt.2 hfull) hok)
        refine ⟨fun hroom => ?_, fun hno => hrefused (hplace.trans (if_neg (Nat.not_lt.2 hno)))⟩
        · rw [exec_move h, hplace.trans (if_pos hroom)]
          exact congrArg Host.Outcome.next (State.announce_of_same_segs rfl)
  case admission =>
    refine ⟨State.admissionFault_busy, fun hm hq => ⟨fun hat => ?_, fun hat => ?_, fun g hat => ?_⟩⟩
    · rw [State.admissionFault_idle hm hq, hat]
    · rw [State.admissionFault_idle hm hq]
      match h2 : s.benchAt b, hat with
      | _ :: _ :: _, _ => rfl
    · rw [State.admissionFault_at hm hq hat]
      refine ⟨fun hne => if_pos hne, fun he hfree hheld => ?_, fun he hfree => ?_⟩
      · rw [if_neg (not_not.2 he), if_pos (by simp [hfree, hheld])]
      · rw [if_neg (not_not.2 he), if_neg (by rcases hfree with hfree | hfree <;> simp [hfree])]
  case route =>
    rw [State.routeOk_iff]
    simp only [State.stepOk_iff]

/-! ### Reports turned away (R98, R99) -/

/-- Settles O28: each check in turn, before the judgement. -/
theorem reportsRejectedByTheirChecks : Obligations.ReportsRejectedByTheirChecks := by
  intro addr tag s j
  have hzero : ∀ judge, (s.reportOf j).bench = 0 → checkedReport judge true (s.reportOf j) (s.atReport addr tag j)
      = (s.atReport addr tag j, .rejected .badKind) := fun judge hb => if_pos (by simp [hb])
  have hconf : ∀ judge named, (named = true → (s.reportOf j).bench ≠ 0) → s.configured (s.reportOf j).segment = false →
      checkedReport judge named (s.reportOf j) (s.atReport addr tag j)
        = (s.atReport addr tag j, .rejected .badSegment) := by
    intro judge named hb hno
    unfold checkedReport
    rw [if_neg (by cases named <;> simp_all), if_neg (by simp [hno])]
  have hrej : ∀ {kind r}, s.TakesReport kind addr tag j →
      carryReport kind (s.reportOf j) (s.atReport addr tag j) = (s.atReport addr tag j, .rejected r) →
      Host.Outcome.next (φ := Fault) (ρ := Refusal) (s.reportRow kind (carryReport kind) addr tag)
        = .next (s.rejectedReport addr tag j r) :=
    fun h hr => congrArg Host.Outcome.next (State.reportRow_rejected h hr)
  refine ⟨fun kind hmode htaken => ?_, fun h => hrej h rfl, fun h hb => hrej h (hzero _ hb),
    fun h hb => hrej h (hzero _ hb), fun h hb => hrej h (hzero _ hb), fun hno =>
    ⟨fun h => hrej h (hconf _ false (by simp) hno), fun h => hrej h (hconf _ false (by simp) hno),
      fun h => hrej h (hconf _ false (by simp) hno), fun h hb => hrej h (hconf _ true (fun _ => hb) hno),
      fun h hb => hrej h (hconf _ true (fun _ => hb) hno), fun h hb => hrej h (hconf _ true (fun _ => hb) hno)⟩⟩
  have hjudge : (s.atReport addr tag j).judge (carryReport kind) j
      = (s.atReport addr tag j, .rejected .imageFault) := if_pos hmode
  rw [exec_of_write (c := .busWrite _) rfl, State.busWrite_of_reportTaken htaken, State.takeReport_eq _ _ _ _ _ hjudge]
  exact congrArg Host.Outcome.next (State.announce_of_same_segs rfl)

end Sys2Proof.Machine
end


section
/-!
PROOFS. The atomic changes of the rail tables: every operation of the rail blocks is a row of them, each made under its
guard (R7 to R15, R24, R28 to R31, R45, R51, R52). The laws of the tables, of the timers, of the places and of the runs are
then proved change by change.
-/

open Sys2Proof Sys2Proof.Machine

namespace Sys2Proof.Machine

/-! ### Atomic changes -/

/-- What no edit of a move changes but the gift of a token. -/
abbrev Move.named (m : Move) : SlotIx × Nat × List Nat × Nat × Bool := (m.slot, m.bench, m.route, m.admission, m.token)

/-- The indices and the stack of a move: what a grant, an advance and a release change (R49). -/
abbrev Move.run (m : Move) : Nat × Nat × Nat × List Nat := (m.t, m.f, m.h, m.stack)

/-- An update of moves that changes nothing that names them, and starts no timer in HALTED mode. -/
structure State.Updates (s : State) (u : Move → Move) : Prop where
  named : ∀ m, (u m).named = m.named
  halted : s.mode = .halted → ∀ m, m.halted → (u m).halted

/-- A change of a segment's record that leaves its configuration and its holder, and records no bench. -/
structure Segment.Recorded (g g' : Segment) : Prop where
  id : g'.id = g.id
  kind : g'.kind = g.kind
  links : g'.links = g.links
  holder : g'.holder = g.holder
  bench : ∀ b, g'.occupant = some (.bench b) → g.occupant = some (.bench b)

/-- One atomic change of the rail tables; in an edit with `some k` the move in slot k is ending, and no edit grants to it
(R39). -/
inductive Edit (x : Option SlotIx) (s : State) : State → Prop
  /-- A change beside the tables: notices, verdicts, captures, the arbiter's marks, the bus side. -/
  | beside (t : State) (h : (t.mode, t.segs, t.moves, t.queue, t.tokens, t.admissionCounter, t.lanes, t.crossingAsks)
      = (s.mode, s.segs, s.moves, s.queue, s.tokens, s.admissionCounter, s.lanes, s.crossingAsks)) : Edit x s t
  | lanes (v : Vector Lane 4) (h : s.mode = .halted → (∀ l : LaneIx, s.lanes[l].halted) → ∀ l : LaneIx, v[l].halted) :
      Edit x s { s with lanes := v }
  /-- What a lane is to ask for (R78). -/
  | asks (l : LaneIx) (b : Bool) (h : b = true → s.mode = .running) :
      Edit x s { s with crossingAsks := s.crossingAsks.set l b }
  | records (ids : List Nat) (u : Segment → Segment) (h : ∀ g : Segment, g.Recorded (u g)) : Edit x s (s.updateSegs ids u)
  | mark (g b : Nat) : Edit x s (s.mark g b)
  | moves (u : Move → Move) (hu : s.Updates u) (h : ∀ m, (u m).run = m.run) :
      Edit x s { s with moves := s.moves.map u }
  | restore (k : SlotIx) : Edit x s (s.restore k)
  /-- The segments of route positions h + 1 to e are granted to the move in slot k (R7, R45). -/
  | grant (m : Move) (e : Nat) (u : Move → Move) (hx : x ≠ some m.slot) (hm : m ∈ s.moves) (hh : m.h < e)
      (he : e < m.route.length) (hfree : ∀ g ∈ m.span (m.h + 1) e, s.grantable m.token g = true)
      (hu : s.Updates u) (hrun : (u m).run = (m.t, m.f, e, (u m).stack))
      (hs : (u m).stack = pushEntry (e - m.h) m.stack ∨ (u m).stack = addTop (e - m.h) m.stack) :
      Edit x s ((s.hold m.slot (m.span (m.h + 1) e)).updateMove m.slot u)
  /-- The front of a move that stands on one segment goes one further along its holds (R101). -/
  | front (m : Move) (u : Move → Move) (hm : m ∈ s.moves) (hheld : s.holder (m.seg (m.f + 1)) = some m.slot)
      (htf : m.t = m.f) (hu : s.Updates u) (hrun : (u m).run = (m.t, m.f + 1, m.h, m.stack)) :
      Edit x s (s.updateMove m.slot u)
  /-- The tail of a straddling move is released (R51). -/
  | tail (m : Move) (hm : m ∈ s.moves) (hf : m.f = m.t + 1) :
      Edit x s ((s.release m.slot [m.seg m.t]).updateMove m.slot fun y =>
        { y with t := y.t + 1, stack := dropBottom y.stack })
  | token (b : Nat) (hb0 : b ≠ 0) (hb : s.holdsToken b = false) (hm : s.moveOfBench b = none) (hroom : s.tokens.length < 4) :
      Edit x s { s with tokens := s.tokens ++ [b] }
  | giveToken (m : Move) (hb : s.holdsToken m.bench = false) (hm : s.moveOfBench m.bench = some m) :
      Edit x s (s.updateMove m.slot fun y => { y with token := true })
  | admission (q : QueuedOrder) (hx : x ≠ some q.slot) (hq : s.admissionFault q.bench (q.route.headD 0) true = none)
      (hlive : s.live q.slot = false) (hroom : s.moves.length < 24) (hroute : s.RouteLaw q.route) :
      Edit x s (s.admitOrder q)
  | enqueue (q : QueuedOrder) (hq : s.admissionFault q.bench (q.route.headD 0) false = none)
      (hlive : s.live q.slot = false) (hfull : 24 ≤ s.moves.length) (hroom : s.queue.length < 6)
      (hroute : s.RouteLaw q.route) : Edit x s { s with queue := s.queue ++ [q] }
  | unqueue (q : List QueuedOrder) (h : q.Sublist s.queue) : Edit x s { s with queue := q }
  | halt : Edit x s s.haltPart
  /-- The part resumes (R133). -/
  | wake (u : Move → Move) (hu : ∀ m, (u m).named = m.named) (h : ∀ m, (u m).run = m.run) :
      Edit x s { s with mode := .running, moves := s.moves.map u }

/-- A row of atomic changes. -/
def Edits (x : Option SlotIx) : State → State → Prop := Relation.ReflTransGen (Edit x)

section edits
variable {x : Option SlotIx} {s t u : State}

theorem Edits.refl : Edits x s s := Relation.ReflTransGen.refl

theorem Edits.one (e : Edit x s t) : Edits x s t := Relation.ReflTransGen.single e

/-- The later row first: a proof then follows the text of a definition from the outside in. -/
theorem Edits.after (k : Edits x t u) (h : Edits x s t) : Edits x s u := Relation.ReflTransGen.trans h k

/-- What every atomic change keeps, a row of them keeps. -/
theorem Edits.keeps {P : State → Prop} (hP : ∀ {s t}, Edit x s t → P s → P t) (h : Edits x s t) (hs : P s) : P t := by
  induction h with
  | refl => exact hs
  | tail _ e ih => exact hP e ih

end edits

end Sys2Proof.Machine
end


section
/-!
PROOFS. What every atomic change keeps of the tables (R20, R24, R29, R30, R139), of the timers and the requests outside
RUNNING mode (R78, R90, R130), and of the places of the benches (R11).
-/

open Sys2Proof Sys2Proof.Machine

namespace Sys2Proof.Machine

/-! ### Updates of moves that keep what names them -/

theorem map_named_of_map {ms : List Move} {u : Move → Move} (h : ∀ m, (u m).named = m.named) :
    (ms.map u).map Move.named = ms.map Move.named := by
  rw [List.map_map]
  exact List.map_congr_left fun m _ => h m

theorem State.updateMove_named (s : State) (k : SlotIx) {u : Move → Move} (h : ∀ m, (u m).named = m.named) :
    (s.updateMove k u).moves.map Move.named = s.moves.map Move.named :=
  map_named_of_map fun m => by split <;> simp [h]

theorem Move.restored_named (m : Move) : m.restored.named = m.named := by
  unfold Move.restored
  split <;> rfl

theorem State.restore_named (s : State) (k : SlotIx) : (s.restore k).moves.map Move.named = s.moves.map Move.named := by
  unfold State.restore
  split
  · exact State.updateMove_named _ _ Move.restored_named
  · rfl

theorem map_of_named {α : Type} {a b : List Move} (h : a.map Move.named = b.map Move.named)
    (f : SlotIx × Nat × List Nat × Nat × Bool → α) : a.map (fun m => f m.named) = b.map fun m => f m.named := by
  have hf := congrArg (List.map f) h
  rwa [List.map_map, List.map_map] at hf

theorem map_slot_of_named {a b : List Move} (h : a.map Move.named = b.map Move.named) :
    a.map (·.slot) = b.map (·.slot) := map_of_named h (·.1)

theorem map_bench_of_named {a b : List Move} (h : a.map Move.named = b.map Move.named) :
    a.map (·.bench) = b.map (·.bench) := map_of_named h (·.2.1)

theorem map_admission_of_named {a b : List Move} (h : a.map Move.named = b.map Move.named) :
    a.map (·.admission) = b.map (·.admission) := map_of_named h (·.2.2.2.1)

theorem map_token_of_named {a b : List Move} (h : a.map Move.named = b.map Move.named) :
    a.map (fun m => (m.bench, m.token)) = b.map fun m => (m.bench, m.token) := map_of_named h fun x => (x.2.1, x.2.2.2.2)

theorem length_of_named {a b : List Move} (h : a.map Move.named = b.map Move.named) : a.length = b.length := by
  simpa using congrArg List.length h

/-! ### The admission checks and the slot of a new order (R27, R139) -/

theorem State.not_busy_of_admissible {s : State} {b start : Nat} {free : Bool} (h : s.admissionFault b start free = none) :
    (∀ m ∈ s.moves, m.bench ≠ b) ∧ ∀ q ∈ s.queue, q.bench ≠ b := by
  unfold State.admissionFault at h
  split at h
  · cases h
  · rename_i hbusy
    simpa [not_or] using hbusy

/-- An admissible bench stands on the start segment alone, which is not held where an entry is free (R27). -/
theorem State.start_of_admissible {s : State} {b start : Nat} {free : Bool} (h : s.admissionFault b start free = none) :
    s.benchAt b = [start] ∧ (free = true → s.holder start = none) := by
  obtain ⟨hm, hq⟩ := State.not_busy_of_admissible h
  rw [State.admissionFault_idle hm hq] at h
  split at h
  · cases h
  · cases h
  · rename_i g hat
    split at h
    · cases h
    · rename_i hg
      split at h
      · cases h
      · rename_i hheld
        exact ⟨by rw [hat, not_not.1 hg], fun hfree => by simpa [hfree] using hheld⟩

theorem State.moves_slot_of_not_live {s : State} {k : SlotIx} (h : s.live k = false) :
    (∀ m ∈ s.moves, m.slot ≠ k) ∧ ∀ q ∈ s.queue, q.slot ≠ k := by
  simpa [State.live, State.move?, State.queued?] using h

/-! ### The table laws -/

section table
variable {s t : State}

theorem State.TokenLaw.of_token (h : s.TokenLaw)
    (hmoves : t.moves.map (fun m => (m.bench, m.token)) = s.moves.map fun m => (m.bench, m.token))
    (htokens : t.tokens = s.tokens) : t.TokenLaw := by
  obtain ⟨hlen, hnodup, hheld⟩ := h
  refine ⟨htokens ▸ hlen, htokens ▸ hnodup, fun m hm ht => ?_⟩
  have hmem : (m.bench, m.token) ∈ s.moves.map fun m => (m.bench, m.token) := hmoves ▸ List.mem_map_of_mem hm
  obtain ⟨y, hy, he⟩ := List.mem_map.1 hmem
  obtain ⟨hb, htok⟩ := Prod.mk.inj he
  rw [htokens, ← hb]
  exact hheld y hy (htok.trans ht)

/-- The table laws speak of names and tokens alone. -/
theorem State.TableLaw.of_named (h : s.TableLaw) (hmoves : t.moves.map Move.named = s.moves.map Move.named)
    (hqueue : t.queue = s.queue) (htokens : t.tokens = s.tokens) : t.TableLaw := by
  obtain ⟨⟨hlen, hqlen⟩, hbench, hslot, hq, htok⟩ := h
  refine ⟨⟨length_of_named hmoves ▸ hlen, hqueue ▸ hqlen⟩, ?_, ?_, ?_, htok.of_token (map_token_of_named hmoves) htokens⟩
  · rw [State.BenchLaw, map_bench_of_named hmoves, hqueue]
    exact hbench
  · rw [State.SlotLaw, map_slot_of_named hmoves, hqueue]
    exact hslot
  · rw [State.QueueLaw, length_of_named hmoves, hqueue]
    exact hq

/-! ### Admission (R21, R24, R28) -/

/-- The moves with their numbers made ready for an admission (R24). -/
theorem State.readyCounter_eq (s : State) :
    s.readyCounter = { s with moves := s.readyCounter.moves, admissionCounter := s.readyCounter.admissionCounter } := by
  unfold State.readyCounter
  split <;> rfl

/-- Renumbering changes the admission numbers alone. -/
theorem State.readyCounter_map {α : Type} (s : State) (f : Move → α) (hf : ∀ m n, f { m with admission := n } = f m) :
    s.readyCounter.moves.map f = s.moves.map f := by
  unfold State.readyCounter
  split
  · rfl
  · unfold State.renumber
    rw [List.map_map]
    exact List.map_congr_left fun m _ => hf m _

theorem State.admitOrder_moves (s : State) (q : QueuedOrder) :
    (s.admitOrder q).moves = s.readyCounter.moves ++ [s.readyCounter.newMove q] := by
  unfold State.admitOrder
  rw [State.trigger_moves]
  rfl

theorem State.readyCounter_fields (s : State) : (s.readyCounter.queue, s.readyCounter.tokens, s.readyCounter.mode,
    s.readyCounter.segs, s.readyCounter.lanes, s.readyCounter.crossingAsks)
      = (s.queue, s.tokens, s.mode, s.segs, s.lanes, s.crossingAsks) := by
  unfold State.readyCounter
  split <;> rfl

theorem State.admitOrder_queue (s : State) (q : QueuedOrder) : (s.admitOrder q).queue = s.queue := by
  unfold State.admitOrder
  rw [State.trigger_queue]
  exact congrArg (·.1) s.readyCounter_fields

theorem State.admitOrder_tokens (s : State) (q : QueuedOrder) :
    (s.admitOrder q).tokens = s.tokens.filter (· ≠ q.bench) := by
  unfold State.admitOrder
  rw [State.trigger_tokens]
  exact congrArg (fun x => x.2.1.filter (· ≠ q.bench)) s.readyCounter_fields

theorem State.admitOrder_counter (s : State) (q : QueuedOrder) :
    (s.admitOrder q).admissionCounter = s.readyCounter.admissionCounter + 1 := by
  unfold State.admitOrder
  rw [State.trigger_admissionCounter]
  rfl

theorem State.admitOrder_segs (s : State) (q : QueuedOrder) :
    (s.admitOrder q).segs = s.segs.map fun (g : Segment) =>
      if g.id ∈ q.route.take 1 then { g with holder := some q.slot } else g := by
  unfold State.admitOrder
  rw [State.trigger_segs]
  exact congrArg (fun x : _ × _ × _ × List Segment × _ => x.2.2.2.1.map fun (g : Segment) =>
    if g.id ∈ q.route.take 1 then { g with holder := some q.slot } else g) s.readyCounter_fields

theorem State.admitOrder_beside (s : State) (q : QueuedOrder) :
    (s.admitOrder q).mode = s.mode ∧ (s.admitOrder q).lanes = s.lanes
      ∧ (s.admitOrder q).crossingAsks = s.crossingAsks := by
  have h := s.readyCounter_fields
  simp only [Prod.mk.injEq] at h
  obtain ⟨-, -, hmode, -, hlanes, hasks⟩ := h
  unfold State.admitOrder
  rw [State.trigger_mode, State.trigger_lanes, State.trigger_crossingAsks]
  exact ⟨hmode, hlanes, hasks⟩

/-- The names of the moves after an admission, but for the numbers. -/
theorem State.admitOrder_map {α : Type} (s : State) (q : QueuedOrder) (f : Move → α)
    (hf : ∀ m n, f { m with admission := n } = f m) :
    (s.admitOrder q).moves.map f = s.moves.map f ++ [f (s.readyCounter.newMove q)] := by
  rw [State.admitOrder_moves, List.map_append, s.readyCounter_map f hf]
  rfl

/-- An admission to a slot that is not live (R139). -/
theorem State.SlotLaw.admitOrder (h : s.SlotLaw) {q : QueuedOrder} (hlive : s.live q.slot = false) :
    (s.admitOrder q).SlotLaw := by
  obtain ⟨hms, hqs⟩ := State.moves_slot_of_not_live hlive
  rw [State.SlotLaw, s.admitOrder_map q (·.slot) fun _ _ => rfl, State.admitOrder_queue, List.append_assoc,
    (List.perm_append_comm_assoc _ _ _).nodup_iff]
  refine List.nodup_cons.2 ⟨show q.slot ∉ s.moves.map (·.slot) ++ s.queue.map (·.slot) from ?_, h⟩
  simp only [List.mem_append, List.mem_map, not_or, not_exists, not_and]
  exact ⟨hms, hqs⟩

/-- A queued order in a slot that is not live (R139). -/
theorem State.SlotLaw.enqueue (h : s.SlotLaw) {q : QueuedOrder} (hlive : s.live q.slot = false) :
    ({ s with queue := s.queue ++ [q] } : State).SlotLaw := by
  obtain ⟨hms, hqs⟩ := State.moves_slot_of_not_live hlive
  show (s.moves.map (·.slot) ++ (s.queue ++ [q]).map (·.slot)).Nodup
  rw [List.map_append, ← List.append_assoc]
  refine List.nodup_append.2 ⟨h, by simp, ?_⟩
  simp only [List.mem_append, List.mem_map, List.map_cons, List.map_nil, List.mem_singleton]
  rintro _ (⟨m, hm, rfl⟩ | ⟨y, hy, rfl⟩) _ rfl
  · exact hms m hm
  · exact hqs y hy

theorem State.SlotLaw.unqueue (h : s.SlotLaw) {q : List QueuedOrder} (hsub : q.Sublist s.queue) :
    ({ s with queue := q } : State).SlotLaw :=
  List.Nodup.sublist (List.Sublist.append_left (hsub.map _) _) h

/-- An admission under the guards of the table laws (R25, R29). -/
theorem State.admitOrder_tables {q : QueuedOrder} {free : Bool} (hbench : s.BenchLaw) (hslot : s.SlotLaw)
    (htok : s.TokenLaw) (hq : s.admissionFault q.bench (q.route.headD 0) free = none) (hlive : s.live q.slot = false) :
    (s.admitOrder q).BenchLaw ∧ (s.admitOrder q).SlotLaw ∧ (s.admitOrder q).TokenLaw := by
  obtain ⟨hmb, hqb⟩ := State.not_busy_of_admissible hq
  refine ⟨?_, ?_, ?_⟩
  · rw [State.BenchLaw, s.admitOrder_map q (·.bench) fun _ _ => rfl, State.admitOrder_queue, List.append_assoc,
      (List.perm_append_comm_assoc _ _ _).nodup_iff]
    refine List.nodup_cons.2 ⟨show q.bench ∉ s.moves.map (·.bench) ++ s.queue.map (·.bench) from ?_, hbench⟩
    simp only [List.mem_append, List.mem_map, not_or, not_exists, not_and]
    exact ⟨hmb, hqb⟩
  · exact hslot.admitOrder hlive
  · obtain ⟨hlen, hnodup, hheld⟩ := htok
    rw [State.TokenLaw, State.admitOrder_tokens]
    refine ⟨(List.length_filter_le _ _).trans hlen, hnodup.filter _, fun m hm ht => ?_⟩
    have hmem : (m.bench, m.token) ∈ (s.admitOrder q).moves.map fun m => (m.bench, m.token) := List.mem_map_of_mem hm
    rw [s.admitOrder_map q (fun m => (m.bench, m.token)) fun _ _ => rfl, List.mem_append, List.mem_singleton] at hmem
    rcases hmem with hold | hnew
    · obtain ⟨y, hy, he⟩ := List.mem_map.1 hold
      obtain ⟨hb, htok⟩ := Prod.mk.inj he
      exact fun hin => hheld y hy (htok.trans ht) (hb ▸ (List.mem_filter.1 hin).1)
    · obtain ⟨hb, -⟩ := Prod.mk.inj hnew
      have hb' : m.bench = q.bench := hb
      rw [hb']
      exact fun hin => by simpa using (List.mem_filter.1 hin).2

/-- A token for a bench that holds none (R20). -/
theorem State.TokenLaw.add {b : Nat} (h : s.TokenLaw) (hb : s.holdsToken b = false) (hm : s.moveOfBench b = none)
    (hroom : s.tokens.length < 4) (hb0 : b ≠ 0) : ({ s with tokens := s.tokens ++ [b] } : State).TokenLaw := by
  obtain ⟨hlen, hnodup, hheld⟩ := h
  simp only [State.holdsToken, Bool.or_eq_false_iff, List.contains_eq_mem, decide_eq_false_iff_not] at hb
  obtain ⟨hb, -⟩ := hb
  refine ⟨by simp; omega, List.nodup_append.2 ⟨hnodup, by simp, by simp; exact fun a ha e => hb (e ▸ ha)⟩, fun m hmem ht => ?_⟩
  simp only [List.mem_append, List.mem_singleton, not_or]
  refine ⟨hheld m hmem ht, fun e => ?_⟩
  rw [State.moveOfBench, if_neg hb0, List.find?_eq_none] at hm
  exact hm m hmem (by simpa using e)

end table

/-! ### Every atomic change keeps the tables -/

theorem State.updateMove_map (s : State) (k : SlotIx) {u : Move → Move} {α : Type} (f : Move → α)
    (hf : ∀ y, f (u y) = f y) : (s.updateMove k u).moves.map f = s.moves.map f := by
  rw [State.updateMove_moves, List.map_map]
  refine List.map_congr_left fun y _ => ?_
  show f (if y.slot = k then u y else y) = f y
  split
  · exact hf y
  · rfl

/-- Two moves of the table with one slot are the same. -/
theorem eq_of_slot {ms : List Move} (h : (ms.map (·.slot)).Nodup) {a b : Move} (ha : a ∈ ms) (hb : b ∈ ms)
    (he : a.slot = b.slot) : a = b := List.inj_on_of_nodup_map h ha hb he

/-- An edit that neither admits, queues, removes from the queue nor gives a token leaves the names and the tokens. -/
theorem State.TableLaw.of_edit {x : Option SlotIx} {s t : State} (h : s.TableLaw) (e : Edit x s t) : t.TableLaw := by
  cases e with
  | beside t hsame =>
    simp only [Prod.mk.injEq] at hsame
    obtain ⟨-, -, hmoves, hqueue, htokens, -, -, -⟩ := hsame
    exact h.of_named (congrArg _ hmoves) hqueue htokens
  | lanes | asks | records | mark => exact h
  | moves u hu => exact h.of_named (map_named_of_map hu.named) rfl rfl
  | restore k =>
    exact h.of_named (s.restore_named k) (s.restore_steady k).queue (s.restore_steady k).tokens
  | grant m e u hx hm hh he hfree hu => exact h.of_named (State.updateMove_named _ _ hu.named) rfl rfl
  | front m u hm hheld htf hu => exact h.of_named (State.updateMove_named _ _ hu.named) rfl rfl
  | tail m => exact h.of_named (State.updateMove_named _ _ fun _ => rfl) rfl rfl
  | token b hb0 hb hm hroom =>
    obtain ⟨hcap, hbench, hslot, hq, htok⟩ := h
    exact ⟨hcap, hbench, hslot, hq, htok.add hb hm hroom hb0⟩
  | giveToken m hb hm =>
    obtain ⟨⟨hlen, hqlen⟩, hbench, hslot, hq, htok⟩ := h
    obtain ⟨hmb, hmem, -⟩ := State.moveOfBench_some hm
    refine ⟨⟨by simpa using hlen, hqlen⟩, ?_, ?_, fun hne => by simpa using hq hne, htok.1, htok.2.1, fun y hy ht => ?_⟩
    · rw [State.BenchLaw, s.updateMove_map m.slot (u := fun y => { y with token := true }) (·.bench) fun _ => rfl]
      exact hbench
    · rw [State.SlotLaw, s.updateMove_map m.slot (u := fun y => { y with token := true }) (·.slot) fun _ => rfl]
      exact hslot
    · rw [State.updateMove_moves, List.mem_map] at hy
      obtain ⟨z, hz, rfl⟩ := hy
      by_cases he : z.slot = m.slot
      · have hzm : z = m := eq_of_slot (List.nodup_append.1 hslot).1 hz hmem he
        subst hzm
        rw [if_pos rfl]
        exact fun hin => by simp [State.holdsToken, show z.bench ∈ s.tokens from hin] at hb
      · rw [if_neg he] at ht ⊢
        exact htok.2.2 z hz ht
  | admission q hx hq hlive hroom hroute =>
    obtain ⟨⟨hlen, hqlen⟩, hbench, hslot, hqueue, htok⟩ := h
    obtain ⟨hbench', hslot', htok'⟩ := State.admitOrder_tables hbench hslot htok hq hlive
    have hcount : (s.admitOrder q).moves.length = s.moves.length + 1 := by
      have := congrArg List.length (s.admitOrder_map q (fun _ => ()) fun _ _ => rfl)
      simpa using this
    refine ⟨⟨by omega, by rwa [State.admitOrder_queue]⟩, hbench', hslot', fun hne => ?_, htok'⟩
    rw [State.admitOrder_queue] at hne
    have := hqueue hne
    omega
  | enqueue q hq hlive hfull hroom hroute =>
    obtain ⟨⟨hlen, hqlen⟩, hbench, hslot, hqueue, htok⟩ := h
    obtain ⟨hmb, hqb⟩ := State.not_busy_of_admissible hq
    refine ⟨⟨hlen, by simp; omega⟩, ?_, ?_, fun _ => by dsimp only; omega, htok⟩
    · show (s.moves.map (·.bench) ++ (s.queue ++ [q]).map (·.bench)).Nodup
      rw [List.map_append, ← List.append_assoc]
      refine List.nodup_append.2 ⟨hbench, by simp, ?_⟩
      simp only [List.mem_append, List.mem_map, List.map_cons, List.map_nil, List.mem_singleton]
      rintro _ (⟨m, hm, rfl⟩ | ⟨y, hy, rfl⟩) _ rfl
      · exact hmb m hm
      · exact hqb y hy
    · exact hslot.enqueue hlive
  | unqueue q hsub =>
    obtain ⟨⟨hlen, hqlen⟩, hbench, hslot, hqueue, htok⟩ := h
    refine ⟨⟨hlen, hsub.length_le.trans hqlen⟩, ?_, ?_, fun hne => hqueue fun e => hne ?_, htok⟩
    · exact hbench.sublist (List.Sublist.append_left (hsub.map _) _)
    · exact hslot.unqueue hsub
    · rw [e] at hsub
      exact List.sublist_nil.1 hsub
  | halt =>
    refine h.of_named ?_ rfl rfl
    exact map_named_of_map fun _ => rfl
  | wake u hu => exact h.of_named (map_named_of_map hu) rfl rfl

/-! ### Admission numbers (R24) -/

/-- How many of the numbers are below n. -/
def rankIn (l : List Nat) (n : Nat) : Nat := (l.filter (· < n)).length

theorem rankIn_lt_of_lt {l : List Nat} (hl : l.Nodup) {a b : Nat} (ha : a ∈ l) (h : a < b) : rankIn l a < rankIn l b := by
  have hnodup : (a :: l.filter (· < a)).Nodup := List.nodup_cons.2 ⟨by simp, hl.filter _⟩
  have hsub : a :: l.filter (· < a) ⊆ l.filter (· < b) := by
    intro n hn
    rcases List.mem_cons.1 hn with rfl | hn
    · simp [ha, h]
    · simp only [List.mem_filter, decide_eq_true_eq] at hn ⊢
      exact ⟨hn.1, hn.2.trans h⟩
  have hle := (List.subperm_of_subset hnodup hsub).length_le
  rwa [List.length_cons] at hle

theorem rankIn_lt_length {l : List Nat} (hl : l.Nodup) {a : Nat} (ha : a ∈ l) : rankIn l a < l.length := by
  have hnodup : (a :: l.filter (· < a)).Nodup := List.nodup_cons.2 ⟨by simp, hl.filter _⟩
  have hsub : a :: l.filter (· < a) ⊆ l := by
    intro n hn
    rcases List.mem_cons.1 hn with rfl | hn
    · exact ha
    · exact (List.mem_filter.1 hn).1
  have hle := (List.subperm_of_subset hnodup hsub).length_le
  rwa [List.length_cons] at hle

theorem rankIn_injOn {l : List Nat} (hl : l.Nodup) {a b : Nat} (ha : a ∈ l) (hb : b ∈ l) (h : rankIn l a = rankIn l b) :
    a = b := by
  rcases Nat.lt_trichotomy a b with hlt | rfl | hlt
  · exact absurd h (rankIn_lt_of_lt hl ha hlt).ne
  · rfl
  · exact absurd h (rankIn_lt_of_lt hl hb hlt).ne'

theorem State.olderThan_eq (s : State) (m : Move) : s.olderThan m = rankIn (s.moves.map (·.admission)) m.admission := by
  rw [State.olderThan, rankIn, List.filter_map, List.length_map]
  rfl

section admissions
variable {s t : State}

theorem State.AdmissionLaw.of_map (h : s.AdmissionLaw) (hmoves : t.moves.map (·.admission) = s.moves.map (·.admission))
    (hcounter : t.admissionCounter = s.admissionCounter) : t.AdmissionLaw := by
  obtain ⟨hnodup, hlt, hmax⟩ := h
  refine ⟨hmoves ▸ hnodup, fun m hm => ?_, hcounter ▸ hmax⟩
  have hmem : m.admission ∈ s.moves.map (·.admission) := hmoves ▸ List.mem_map_of_mem hm
  obtain ⟨y, hy, he⟩ := List.mem_map.1 hmem
  rw [hcounter, ← he]
  exact hlt y hy

/-- The counter made ready leaves room for one more number (R24). -/
theorem State.readyCounter_law (h : s.AdmissionLaw) (hlen : s.moves.length ≤ 24) :
    (s.readyCounter.moves.map (·.admission)).Nodup
      ∧ (∀ m ∈ s.readyCounter.moves, m.admission < s.readyCounter.admissionCounter)
      ∧ s.readyCounter.admissionCounter + 1 ≤ 65535 := by
  obtain ⟨hnodup, hlt, hmax⟩ := h
  unfold State.readyCounter
  split
  · exact ⟨hnodup, hlt, by omega⟩
  · have hmap : s.renumber.moves.map (·.admission)
        = (s.moves.map (·.admission)).map (rankIn (s.moves.map (·.admission))) := by
      unfold State.renumber
      rw [List.map_map, List.map_map]
      exact List.map_congr_left fun m _ => s.olderThan_eq m
    refine ⟨?_, fun m hm => ?_, show s.moves.length + 1 ≤ 65535 by omega⟩
    · rw [hmap]
      exact hnodup.map_on fun a ha b hb => rankIn_injOn hnodup ha hb
    · have hmem : m.admission ∈ s.renumber.moves.map (·.admission) := List.mem_map_of_mem hm
      rw [hmap] at hmem
      obtain ⟨a, ha, he⟩ := List.mem_map.1 hmem
      have := rankIn_lt_length hnodup ha
      rw [List.length_map, he] at this
      exact this

theorem State.AdmissionLaw.admitOrder (h : s.AdmissionLaw) (hlen : s.moves.length ≤ 24) (q : QueuedOrder) :
    (s.admitOrder q).AdmissionLaw := by
  obtain ⟨hnodup, hlt, hmax⟩ := State.readyCounter_law h hlen
  rw [State.AdmissionLaw, State.admitOrder_counter, State.admitOrder_moves, List.map_append]
  refine ⟨List.nodup_append.2 ⟨hnodup, by simp, ?_⟩, fun m hm => ?_, hmax⟩
  · intro a ha b hb
    obtain ⟨m, hm, rfl⟩ := List.mem_map.1 ha
    rw [List.map_cons, List.map_nil, List.mem_singleton] at hb
    subst hb
    exact (hlt m hm).ne
  · rcases List.mem_append.1 hm with hm | hm
    · exact (hlt m hm).trans (Nat.lt_succ_self _)
    · rw [List.mem_singleton.1 hm]
      exact Nat.lt_succ_self _

theorem State.admitOrder_length (s : State) (q : QueuedOrder) : (s.admitOrder q).moves.length = s.moves.length + 1 := by
  have := congrArg List.length (s.admitOrder_map q (fun _ => ()) fun _ _ => rfl)
  simpa using this

/-- Every atomic change keeps the numbers, and at most 24 moves. -/
theorem State.AdmissionLaw.of_edit {x : Option SlotIx} (h : s.AdmissionLaw) (hlen : s.moves.length ≤ 24)
    (e : Edit x s t) : t.moves.length ≤ 24 ∧ t.AdmissionLaw := by
  have hnamed : t.moves.map Move.named = s.moves.map Move.named → t.admissionCounter = s.admissionCounter →
      t.moves.length ≤ 24 ∧ t.AdmissionLaw := fun hmoves hcounter =>
    ⟨length_of_named hmoves ▸ hlen, h.of_map (map_admission_of_named hmoves) hcounter⟩
  cases e with
  | beside t hsame =>
    simp only [Prod.mk.injEq] at hsame
    obtain ⟨-, -, hmoves, -, -, hcounter, -, -⟩ := hsame
    exact hnamed (congrArg _ hmoves) hcounter
  | lanes | asks | records | mark | token | enqueue | unqueue => exact ⟨hlen, h⟩
  | moves u hu => exact hnamed (map_named_of_map hu.named) rfl
  | restore k => exact hnamed (s.restore_named k) (s.restore_steady k).admissionCounter
  | grant m e u hx hm hh he hfree hu => exact hnamed (State.updateMove_named _ _ hu.named) rfl
  | front m u hm hheld htf hu => exact hnamed (State.updateMove_named _ _ hu.named) rfl
  | tail m => exact hnamed (State.updateMove_named _ _ fun _ => rfl) rfl
  | giveToken m =>
    exact ⟨by simpa using hlen,
      h.of_map (s.updateMove_map m.slot (u := fun y => { y with token := true }) (·.admission) fun _ => rfl) rfl⟩
  | admission q hx hq hlive hroom =>
    exact ⟨by rw [State.admitOrder_length]; omega, h.admitOrder hlen q⟩
  | halt => exact hnamed (map_named_of_map fun _ => rfl) rfl
  | wake u hu => exact hnamed (map_named_of_map hu) rfl

end admissions

/-! ### Timers and requests in HALTED mode (R78, R90, R130) -/

/-- In HALTED mode no timer runs and no lane is to ask for the rest of a crossing. -/
def State.HaltedLaw (s : State) : Prop :=
  s.mode = .halted → (∀ m ∈ s.moves, m.halted) ∧ (∀ l : LaneIx, s.lanes[l].halted)
    ∧ s.crossingAsks = Vector.replicate 4 false

theorem Timer.freeze_halted (x : Timer) : x.freeze.isRunning = false := by cases x <;> rfl

theorem State.startTimer_halted {s : State} (h : s.mode = .halted) (n : Nat) : (s.startTimer n).isRunning = false := by
  simp [State.startTimer, h, Timer.isRunning]

theorem Move.restored_halted {m : Move} (h : m.halted) : m.restored.halted := by
  unfold Move.restored
  split
  · exact h
  · exact ⟨rfl, h.2⟩

theorem updateMove_halted {s : State} (k : SlotIx) {u : Move → Move} (hu : ∀ m, m.halted → (u m).halted)
    (h : ∀ m ∈ s.moves, m.halted) : ∀ m ∈ (s.updateMove k u).moves, m.halted := by
  intro m hm
  rw [State.updateMove_moves, List.mem_map] at hm
  obtain ⟨y, hy, rfl⟩ := hm
  split
  · exact hu y (h y hy)
  · exact h y hy

theorem asks_of_halted {s : State} {l : LaneIx} {b : Bool} (hb : b = true → s.mode = .running) (hm : s.mode = .halted)
    (h : s.crossingAsks = Vector.replicate 4 false) : s.crossingAsks.set l b = Vector.replicate 4 false := by
  have hf : b = false := by
    cases b
    · rfl
    · exact absurd (hb rfl) (by rw [hm]; decide)
  rw [h, hf]
  ext i hi
  simp

theorem State.HaltedLaw.admitOrder {s : State} (h : s.HaltedLaw) (q : QueuedOrder) : (s.admitOrder q).HaltedLaw := by
  intro hmode
  obtain ⟨hm, hl, ha⟩ := s.admitOrder_beside q
  obtain ⟨hmoves, hlanes, hasks⟩ := h (hm ▸ hmode)
  rw [hl, ha]
  refine ⟨fun m hm => ?_, hlanes, hasks⟩
  have hmem : (m.silence, m.backoff) ∈ (s.admitOrder q).moves.map fun m => (m.silence, m.backoff) :=
    List.mem_map_of_mem hm
  rw [s.admitOrder_map q (fun m => (m.silence, m.backoff)) fun _ _ => rfl, List.mem_append, List.mem_singleton] at hmem
  rcases hmem with hold | hnew
  · obtain ⟨y, hy, he⟩ := List.mem_map.1 hold
    obtain ⟨hs, hb⟩ := Prod.mk.inj he
    exact ⟨hs ▸ (hmoves y hy).1, hb ▸ (hmoves y hy).2⟩
  · obtain ⟨hs, hb⟩ := Prod.mk.inj hnew
    exact ⟨hs ▸ rfl, hb ▸ rfl⟩

theorem State.HaltedLaw.of_edit {x : Option SlotIx} {s t : State} (h : s.HaltedLaw) (e : Edit x s t) : t.HaltedLaw := by
  intro hmode
  cases e with
  | beside t hsame =>
    simp only [Prod.mk.injEq] at hsame
    obtain ⟨hm, -, hmoves, -, -, -, hlanes, hasks⟩ := hsame
    rw [hmoves, hlanes, hasks]
    exact h (hm ▸ hmode)
  | records | mark | token | enqueue | unqueue => exact h hmode
  | lanes v hv =>
    obtain ⟨hmoves, hlanes, hasks⟩ := h hmode
    exact ⟨hmoves, hv hmode hlanes, hasks⟩
  | asks l b hb =>
    obtain ⟨hmoves, hlanes, hasks⟩ := h hmode
    exact ⟨hmoves, hlanes, asks_of_halted hb hmode hasks⟩
  | moves u hu =>
    obtain ⟨hmoves, hlanes, hasks⟩ := h hmode
    refine ⟨fun m hm => ?_, hlanes, hasks⟩
    obtain ⟨y, hy, rfl⟩ := List.mem_map.1 hm
    exact hu.halted hmode y (hmoves y hy)
  | restore k =>
    obtain ⟨hmoves, hlanes, hasks⟩ := h ((s.restore_steady k).mode ▸ hmode)
    unfold State.restore
    split
    · exact ⟨updateMove_halted _ (fun m => Move.restored_halted) hmoves, hlanes, hasks⟩
    · exact ⟨hmoves, hlanes, hasks⟩
  | grant m e u hx hm hh he hfree hu =>
    obtain ⟨hmoves, hlanes, hasks⟩ := h hmode
    exact ⟨updateMove_halted _ (hu.halted hmode) hmoves, hlanes, hasks⟩
  | front m u hm hheld htf hu =>
    obtain ⟨hmoves, hlanes, hasks⟩ := h hmode
    exact ⟨updateMove_halted _ (hu.halted hmode) hmoves, hlanes, hasks⟩
  | tail m =>
    obtain ⟨hmoves, hlanes, hasks⟩ := h hmode
    exact ⟨updateMove_halted _ (fun m => id) hmoves, hlanes, hasks⟩
  | giveToken m =>
    obtain ⟨hmoves, hlanes, hasks⟩ := h hmode
    exact ⟨updateMove_halted _ (fun m => id) hmoves, hlanes, hasks⟩
  | admission q => exact h.admitOrder q hmode
  | halt =>
    refine ⟨fun m hm => ?_, fun l => ?_, rfl⟩
    · obtain ⟨y, hy, rfl⟩ := List.mem_map.1 hm
      exact ⟨y.silence.freeze_halted, y.backoff.freeze_halted⟩
    · simp only [State.haltPart, Fin.getElem_fin, Vector.getElem_map]
      exact ⟨Timer.freeze_halted _, Timer.freeze_halted _, Timer.freeze_halted _, Timer.freeze_halted _⟩
  | wake => exact absurd hmode (by simp)

end Sys2Proof.Machine
end


section
/-!
PROOFS. What every atomic change keeps of the rail: its configuration (R2), the places of the benches (R11), and the runs
of the live moves (R49).
-/

open Sys2Proof Sys2Proof.Machine

namespace Sys2Proof.Machine

/-! ### The configuration (R2) -/

/-- The configured part of a segment's record. -/
abbrev Segment.config (g : Segment) : Nat × SegKind × List Nat := (g.id, g.kind, g.links)

theorem map_config_of_map {l : List Segment} {f : Segment → Segment} (h : ∀ g, (f g).config = g.config) :
    (l.map f).map Segment.config = l.map Segment.config := by
  rw [List.map_map]
  exact List.map_congr_left fun g _ => h g

theorem State.admitOrder_config (s : State) (q : QueuedOrder) :
    (s.admitOrder q).segs.map Segment.config = s.segs.map Segment.config := by
  rw [State.admitOrder_segs]
  exact map_config_of_map fun g => by split <;> rfl

theorem Edit.config {x : Option SlotIx} {s t : State} (e : Edit x s t) :
    t.segs.map Segment.config = s.segs.map Segment.config := by
  cases e with
  | beside t hsame =>
    simp only [Prod.mk.injEq] at hsame
    exact congrArg _ hsame.2.1
  | lanes | asks | moves | token | enqueue | unqueue | giveToken | halt | wake | front => rfl
  | records ids u h =>
    refine map_config_of_map fun g => ?_
    split
    · exact Prod.ext (h g).id (Prod.ext (h g).kind (h g).links)
    · rfl
  | mark g b => exact (s.mark_steady g b).config
  | restore k => exact (s.restore_steady k).config
  | grant m e u => exact (s.hold_steady _ _).config
  | tail m => exact (s.release_steady _ _).config
  | admission q => exact s.admitOrder_config q

theorem find?_config (l : List Segment) (g : Nat) :
    (l.find? fun r => r.id == g).map Segment.config = (l.map Segment.config).find? fun c => c.1 == g := by
  rw [List.find?_map]
  rfl

section config
variable {s t : State}

theorem State.seg?_config (h : t.segs.map Segment.config = s.segs.map Segment.config) (g : Nat) :
    (t.seg? g).map Segment.config = (s.seg? g).map Segment.config := by
  rw [State.seg?, State.seg?, find?_config, find?_config, h]

theorem State.configured_config (h : t.segs.map Segment.config = s.segs.map Segment.config) : t.configured = s.configured := by
  funext g
  have := congrArg Option.isSome (State.seg?_config h g)
  simpa [State.configured] using this

/-- What a look-up finds of the configuration is found from the configuration. -/
theorem State.look_config {α : Type} (h : t.segs.map Segment.config = s.segs.map Segment.config) (f : SegKind → List Nat → α)
    (g : Nat) : (t.seg? g).map (fun r => f r.kind r.links) = (s.seg? g).map fun r => f r.kind r.links := by
  have := congrArg (Option.map fun c : Nat × SegKind × List Nat => f c.2.1 c.2.2) (State.seg?_config h g)
  simpa [Option.map_map, Function.comp_def] using this

theorem State.cellLane_config (h : t.segs.map Segment.config = s.segs.map Segment.config) : t.cellLane = s.cellLane := by
  funext g
  have hk := State.look_config h (fun k _ => k) g
  unfold State.cellLane
  cases ht : t.seg? g <;> cases hs : s.seg? g <;> simp_all

theorem State.isCell_config (h : t.segs.map Segment.config = s.segs.map Segment.config) : t.isCell = s.isCell := by
  funext g
  rw [State.isCell, State.isCell, State.cellLane_config h]

theorem State.berthOf_config (h : t.segs.map Segment.config = s.segs.map Segment.config) : t.berthOf = s.berthOf := by
  funext g
  have hk := State.look_config h (fun k _ => k) g
  unfold State.berthOf
  cases ht : t.seg? g <;> cases hs : s.seg? g <;> simp_all

theorem State.linked_config (h : t.segs.map Segment.config = s.segs.map Segment.config) : t.linked = s.linked := by
  funext a b
  have hk := State.look_config h (fun _ l => l) a
  unfold State.linked
  cases ht : t.seg? a <;> cases hs : s.seg? a <;> simp_all

theorem State.routeOk_config (h : t.segs.map Segment.config = s.segs.map Segment.config) : t.routeOk = s.routeOk := by
  have hstep : t.stepOk = s.stepOk := by
    funext a b
    rw [State.stepOk, State.stepOk, State.linked_config h, State.cellLane_config h, State.berthOf_config h]
  have hsteps : t.stepsOk = s.stepsOk := by
    funext r
    induction r with
    | nil => rfl
    | cons a rest ih =>
      cases rest with
      | nil => rfl
      | cons b rest => rw [State.stepsOk, State.stepsOk, ih, hstep]
  funext len route
  rw [State.routeOk, State.routeOk, hsteps, State.configured_config h, State.isCell_config h]

theorem State.RouteLaw.of_config {r : List Nat} (hr : s.RouteLaw r)
    (h : t.segs.map Segment.config = s.segs.map Segment.config) : t.RouteLaw r := by
  rw [State.RouteLaw, State.routeOk_config h]
  exact hr

theorem State.SegLaw.of_config (hs : s.SegLaw) (h : t.segs.map Segment.config = s.segs.map Segment.config) : t.SegLaw := by
  have hids : t.segs.map (·.id) = s.segs.map (·.id) := by
    have := congrArg (List.map (Prod.fst (α := Nat) (β := SegKind × List Nat))) h
    rwa [List.map_map, List.map_map] at this
  refine ⟨hids ▸ hs.1, fun g hg => ?_⟩
  have hmem : g.id ∈ s.segs.map (·.id) := hids ▸ List.mem_map_of_mem hg
  obtain ⟨r, hr, he⟩ := List.mem_map.1 hmem
  exact he ▸ hs.2 r hr

end config

/-! ### The places of the benches (R11) -/

theorem State.benchAt_nodup {s : State} (h : s.SegLaw) (b : Nat) : (s.benchAt b).Nodup :=
  h.1.sublist (List.filter_sublist.map _)

/-- The place law, of any two places of a bench. -/
theorem State.placeLaw_iff {s : State} (h : s.SegLaw) : s.PlaceLaw ↔ ∀ b, b ≠ 0 → (s.benchAt b).length ≤ 2
    ∧ ∀ x ∈ s.benchAt b, ∀ y ∈ s.benchAt b, x ≠ y → s.linked x y = true ∨ s.linked y x = true := by
  refine forall_congr' fun b => imp_congr_right fun _ => ?_
  have hnodup := s.benchAt_nodup h b
  match hb : s.benchAt b with
  | [] => simp
  | [x] => simp
  | [x, y] =>
    rw [hb] at hnodup
    have hxy : x ≠ y := by simpa using hnodup
    simp only [List.length_cons, List.length_nil, List.mem_cons, List.not_mem_nil, or_false]
    constructor
    · intro hl
      refine ⟨by omega, ?_⟩
      rintro _ (rfl | rfl) _ (rfl | rfl) hne
      · exact absurd rfl hne
      · exact hl
      · exact hl.symm
      · exact absurd rfl hne
    · exact fun hl => hl.2 x (.inl rfl) y (.inr rfl) hxy
  | x :: y :: z :: rest => simp

/-- Where no bench is newly recorded the place law stays. -/
theorem State.PlaceLaw.of_subset {s t : State} (hs : s.SegLaw) (h : s.PlaceLaw)
    (hconfig : t.segs.map Segment.config = s.segs.map Segment.config) (hsub : ∀ b, t.benchAt b ⊆ s.benchAt b) : t.PlaceLaw := by
  have ht := hs.of_config hconfig
  rw [State.placeLaw_iff ht]
  intro b hb
  obtain ⟨hlen, hlink⟩ := (State.placeLaw_iff hs).1 h b hb
  refine ⟨(List.subperm_of_subset (t.benchAt_nodup ht b) (hsub b)).length_le.trans hlen, fun x hx y hy hne => ?_⟩
  rw [State.linked_config hconfig]
  exact hlink x (hsub b hx) y (hsub b hy) hne

theorem State.mem_benchAt {s : State} {b x : Nat} :
    x ∈ s.benchAt b ↔ ∃ g ∈ s.segs, g.occupant = some (.bench b) ∧ g.id = x := by
  simp [State.benchAt, and_assoc]

theorem benchAt_subset_of_map {s t : State} {f : Segment → Segment} (ht : t.segs = s.segs.map f)
    (hid : ∀ g, (f g).id = g.id) (hocc : ∀ g b, (f g).occupant = some (.bench b) → g.occupant = some (.bench b)) (b : Nat) :
    t.benchAt b ⊆ s.benchAt b := by
  intro x hx
  obtain ⟨g, hg, ho, rfl⟩ := State.mem_benchAt.1 hx
  rw [ht, List.mem_map] at hg
  obtain ⟨r, hr, rfl⟩ := hg
  exact State.mem_benchAt.2 ⟨r, hr, hocc r b ho, (hid r).symm⟩

/-- Where every place of a bench after a mark was before it, or is the marked one. -/
theorem State.mem_benchAt_mark {s : State} {g b c x : Nat} (h : x ∈ (s.mark g b).benchAt c) :
    (x ∈ s.benchAt c ∧ x ≠ g) ∨ (x = g ∧ s.markOf g b = .bench c) := by
  obtain ⟨r, hr, ho, rfl⟩ := State.mem_benchAt.1 h
  have hsegs : (s.mark g b).segs = s.segs.map fun r =>
      if r.id ∈ [g] then { r with occupant := some (s.markOf g b) } else r := rfl
  rw [hsegs, List.mem_map] at hr
  obtain ⟨y, hy, rfl⟩ := hr
  by_cases hid : y.id ∈ [g]
  · rw [if_pos hid] at ho ⊢
    exact .inr ⟨List.mem_singleton.1 hid, by simpa using ho⟩
  · rw [if_neg hid] at ho ⊢
    exact .inl ⟨State.mem_benchAt.2 ⟨y, hy, ho, rfl⟩, fun e => hid (List.mem_singleton.2 e)⟩

/-- A bench is marked where nothing else records it, or a linked segment alone does (R11). -/
theorem State.markOf_bench {s : State} {g b c : Nat} (h : s.markOf g b = .bench c) : b = c ∧
    ((s.benchAt b).filter (· ≠ g) = [] ∨ ∃ x, (s.benchAt b).filter (· ≠ g) = [x] ∧ s.linked x g = true) := by
  unfold State.markOf at h
  split at h
  · cases h
  · split at h
    · rename_i hnil
      exact ⟨by simpa using h, .inl hnil⟩
    · rename_i x hx
      split at h
      · rename_i hl
        exact ⟨by simpa using h, .inr ⟨x, hx, hl⟩⟩
      · cases h
    · cases h

theorem State.PlaceLaw.mark {s : State} (hs : s.SegLaw) (h : s.PlaceLaw) (g b : Nat) : (s.mark g b).PlaceLaw := by
  have hconfig := (s.mark_steady g b).config
  have ht := hs.of_config hconfig
  rw [State.placeLaw_iff ht]
  intro c hc
  obtain ⟨hlen, hlink⟩ := (State.placeLaw_iff hs).1 h c hc
  have hnodup := State.benchAt_nodup ht c
  rw [State.linked_config hconfig]
  by_cases hmark : s.markOf g b = .bench c
  · obtain ⟨rfl, hothers⟩ := State.markOf_bench hmark
    have hmem : ∀ x ∈ (s.mark g b).benchAt b, x = g ∨ x ∈ (s.benchAt b).filter (· ≠ g) := by
      intro x hx
      rcases State.mem_benchAt_mark hx with ⟨hx, hne⟩ | ⟨hx, -⟩
      · exact .inr (List.mem_filter.2 ⟨hx, by simpa using hne⟩)
      · exact .inl hx
    rcases hothers with hnil | ⟨y, hy, hyg⟩
    · rw [hnil] at hmem
      have hsub : (s.mark g b).benchAt b ⊆ [g] := fun x hx => by simpa using hmem x hx
      refine ⟨((List.subperm_of_subset hnodup hsub).length_le).trans (by simp), fun x hx z hz hne => ?_⟩
      exact absurd ((List.mem_singleton.1 (hsub hx)).trans (List.mem_singleton.1 (hsub hz)).symm) hne
    · rw [hy] at hmem
      have hsub : (s.mark g b).benchAt b ⊆ [g, y] := fun x hx => by simpa using hmem x hx
      refine ⟨(List.subperm_of_subset hnodup hsub).length_le, fun x hx z hz hne => ?_⟩
      have hx' := hsub hx
      have hz' := hsub hz
      simp only [List.mem_cons, List.not_mem_nil, or_false] at hx' hz'
      rcases hx' with rfl | rfl <;> rcases hz' with rfl | rfl
      · exact absurd rfl hne
      · exact .inr hyg
      · exact .inl hyg
      · exact absurd rfl hne
  · have hsub : (s.mark g b).benchAt c ⊆ s.benchAt c := by
      intro x hx
      rcases State.mem_benchAt_mark hx with ⟨hx, -⟩ | ⟨-, hx⟩
      · exact hx
      · exact absurd hx hmark
    exact ⟨(List.subperm_of_subset hnodup hsub).length_le.trans hlen, fun x hx y hy => hlink x (hsub hx) y (hsub hy)⟩

/-! ### Releases and restores (R8, R52) -/

/-- A segment's record after a release by the move in slot k (R8). -/
def Segment.released (k : SlotIx) (g : Segment) : Segment := if g.holder = some k then { g with holder := none } else g

theorem Segment.released_id (k : SlotIx) (g : Segment) : (g.released k).id = g.id := by
  unfold Segment.released
  split <;> rfl

theorem Segment.released_occupant (k : SlotIx) (g : Segment) : (g.released k).occupant = g.occupant := by
  unfold Segment.released
  split <;> rfl

theorem Segment.released_holder (k j : SlotIx) (g : Segment) :
    (g.released k).holder = some j ↔ g.holder = some j ∧ j ≠ k := by
  unfold Segment.released
  split
  · rename_i h
    simp only [h, reduceCtorEq, false_iff, not_and, not_not, Option.some.injEq]
    exact fun e => e.symm
  · rename_i h
    exact ⟨fun e => ⟨e, fun ej => h (ej ▸ e)⟩, And.left⟩

theorem State.release_eq (s : State) (k : SlotIx) (ids : List Nat) :
    s.release k ids = s.updateSegs ids (Segment.released k) := rfl

theorem State.restore_of_move {s : State} {k : SlotIx} {m : Move} (h : s.move? k = some m) :
    s.restore k = (s.release k (m.span (m.f + 1) m.h)).updateMove k Move.restored := by
  rw [State.restore, h]

theorem State.restore_of_none {s : State} {k : SlotIx} (h : s.move? k = none) : s.restore k = s := by
  rw [State.restore, h]

theorem Segment.released_config (k : SlotIx) (g : Segment) : (g.released k).config = g.config := by
  unfold Segment.released
  split <;> rfl

section place
variable {s t : State}

theorem State.PlaceLaw.of_map (hs : s.SegLaw) (h : s.PlaceLaw) {f : Segment → Segment} (ht : t.segs = s.segs.map f)
    (hf : ∀ g, (f g).config = g.config)
    (hocc : ∀ g b, (f g).occupant = some (.bench b) → g.occupant = some (.bench b)) : t.PlaceLaw :=
  h.of_subset hs (ht ▸ map_config_of_map hf) (benchAt_subset_of_map ht (fun g => congrArg Prod.fst (hf g)) hocc)

theorem State.PlaceLaw.of_release (hs : s.SegLaw) (h : s.PlaceLaw) {k : SlotIx} {ids : List Nat}
    (ht : t.segs = (s.release k ids).segs) : t.PlaceLaw := by
  refine h.of_map hs ht (fun g => ?_) fun g b => ?_
  · split
    · exact g.released_config k
    · rfl
  · show (if g.id ∈ ids then g.released k else g).occupant = _ → _
    split
    · rw [g.released_occupant k]
      exact id
    · exact id

theorem State.PlaceLaw.admitOrder (hs : s.SegLaw) (h : s.PlaceLaw) (q : QueuedOrder) : (s.admitOrder q).PlaceLaw :=
  h.of_map hs (s.admitOrder_segs q) (fun g => by split <;> rfl) fun g b => by split <;> exact id

/-- Every atomic change keeps the place law. -/
theorem State.PlaceLaw.of_edit {x : Option SlotIx} (hs : s.SegLaw) (h : s.PlaceLaw) (e : Edit x s t) : t.PlaceLaw := by
  cases e with
  | beside t hbeside =>
    simp only [Prod.mk.injEq] at hbeside
    exact h.of_map hs (f := id) (by rw [hbeside.2.1, List.map_id]) (fun _ => rfl) fun _ _ => id
  | lanes | asks | moves | token | enqueue | unqueue | giveToken | halt | wake | front => exact h
  | records ids u hu =>
    refine h.of_map hs rfl (fun g => ?_) fun g b => ?_
    · split
      · exact Prod.ext (hu g).id (Prod.ext (hu g).kind (hu g).links)
      · rfl
    · split
      · exact (hu g).bench b
      · exact id
  | mark g b => exact h.mark hs g b
  | restore k =>
    cases hm : s.move? k with
    | none => rwa [State.restore_of_none hm]
    | some m =>
      rw [State.restore_of_move hm]
      exact h.of_release hs rfl
  | grant m e u => exact h.of_map hs rfl (fun g => by split <;> rfl) fun g b => by split <;> exact id
  | tail m => exact h.of_release hs rfl
  | admission q => exact h.admitOrder hs q

end place

end Sys2Proof.Machine
end


section
/-!
PROOFS. Every atomic change keeps the run law (R49, R50 to R52, R101), but for the holds of a move that is ending (R39).
-/

open Sys2Proof Sys2Proof.Machine

namespace Sys2Proof.Machine

/-! ### Spans of a route (R22, R49) -/

theorem Move.mem_span {m : Move} {i j g : Nat} :
    g ∈ m.span i j ↔ ∃ p, i ≤ p ∧ p ≤ j ∧ p < m.route.length ∧ m.seg p = g := by
  rw [Move.span, List.mem_take_iff_getElem]
  constructor
  · rintro ⟨n, hn, rfl⟩
    rw [List.length_drop] at hn
    have hlt : i + n < m.route.length := by omega
    refine ⟨i + n, by omega, by omega, hlt, ?_⟩
    rw [Move.seg, List.getD_eq_getElem _ _ hlt, List.getElem_drop]
  · rintro ⟨p, hi, hj, hlt, rfl⟩
    refine ⟨p - i, by rw [List.length_drop]; omega, ?_⟩
    rw [List.getElem_drop, Move.seg, List.getD_eq_getElem _ _ hlt]
    simp [Nat.add_sub_cancel' hi]

theorem State.RouteLaw.nodup {s : State} {r : List Nat} (h : s.RouteLaw r) : r.Nodup :=
  ((s.routeOk_iff _ _).1 h).2.2.2.1

theorem Move.seg_inj {m : Move} (h : m.route.Nodup) {i j : Nat} (hi : i < m.route.length) (hj : j < m.route.length)
    (he : m.seg i = m.seg j) : i = j := by
  rw [Move.seg, Move.seg, List.getD_eq_getElem _ _ hi, List.getD_eq_getElem _ _ hj] at he
  exact (h.getElem_inj_iff).1 he

/-- A span parts where its positions part. -/
theorem Move.mem_span_split {m : Move} {i j k g : Nat} (hij : i ≤ j + 1) (hjk : j ≤ k) :
    g ∈ m.span i k ↔ g ∈ m.span i j ∨ g ∈ m.span (j + 1) k := by
  simp only [Move.mem_span]
  constructor
  · rintro ⟨p, hi, hk, hlt, he⟩
    rcases Nat.lt_or_ge j p with h | h
    · exact .inr ⟨p, h, hk, hlt, he⟩
    · exact .inl ⟨p, hi, h, hlt, he⟩
  · rintro (⟨p, hi, hj, hlt, he⟩ | ⟨p, hj, hk, hlt, he⟩)
    · exact ⟨p, hi, hj.trans hjk, hlt, he⟩
    · exact ⟨p, hij.trans hj, hk, hlt, he⟩

theorem Move.not_mem_span_of_lt {m : Move} (h : m.route.Nodup) {i j k l g : Nat} (hjk : j < k) (hg : g ∈ m.span i j) :
    g ∉ m.span k l := by
  obtain ⟨p, -, hp, hplt, rfl⟩ := Move.mem_span.1 hg
  intro hin
  obtain ⟨q, hq, -, hqlt, he⟩ := Move.mem_span.1 hin
  have := Move.seg_inj h hqlt hplt he
  omega

theorem Move.span_congr {a b : Move} (h : a.route = b.route) (i j : Nat) : a.span i j = b.span i j := by
  rw [Move.span, Move.span, h]

theorem Move.seg_congr {a b : Move} (h : a.route = b.route) (i : Nat) : a.seg i = b.seg i := by
  rw [Move.seg, Move.seg, h]

/-! ### The stack after a pop and after a tail release (R49, R51, R52) -/

theorem popTo_length (f : Nat) : ∀ (h : Nat) (l : List Nat), (popTo f h l).length ≤ l.length
  | _, [] => le_rfl
  | h, c :: rest => by
    unfold popTo
    split
    · exact (popTo_length f (h - c) rest).trans (Nat.le_succ _)
    · exact le_rfl

theorem popTo_pos (f : Nat) : ∀ (h : Nat) (l : List Nat), (∀ n ∈ l, 1 ≤ n) → f ≤ h → ∀ n ∈ popTo f h l, 1 ≤ n
  | _, [] => fun h _ => h
  | h, c :: rest => by
    intro hpos hf
    unfold popTo
    split
    · exact popTo_pos f (h - c) rest (fun n hn => hpos n (List.mem_cons_of_mem _ hn)) (by omega)
    · intro n hn
      rcases List.mem_cons.1 hn with rfl | hn
      · omega
      · exact hpos n (List.mem_cons_of_mem _ hn)

theorem dropBottom_length (l : List Nat) : (dropBottom l).length ≤ l.length := by
  fun_induction dropBottom l with
  | case1 => exact le_rfl
  | case2 => simp
  | case3 => simp
  | case4 a b rest ih =>
    rw [List.length_cons, List.length_cons (as := b :: rest)]
    exact Nat.succ_le_succ ih

theorem dropBottom_pos (l : List Nat) (h : ∀ n ∈ l, 1 ≤ n) : ∀ n ∈ dropBottom l, 1 ≤ n := by
  fun_induction dropBottom l with
  | case1 => exact h
  | case2 a => simp
  | case3 a ha => simp; omega
  | case4 a b rest ih =>
    intro n hn
    rcases List.mem_cons.1 hn with rfl | hn
    · exact h _ (by simp)
    · exact ih (fun x hx => h x (List.mem_cons_of_mem _ hx)) n hn

theorem length_pos_of_sum_pos {l : List Nat} (h : 1 ≤ l.sum) : 1 ≤ l.length := by
  cases l with
  | nil => simp at h
  | cons a rest => simp

/-! ### The run law but for one move's holds -/

/-- The run law, in a state where the move in slot x, if there is one, has given up its holds (R39, R49). -/
structure State.RunBut (x : Option SlotIx) (s : State) : Prop where
  segs : s.SegLaw
  slots : s.SlotLaw
  runs : ∀ m ∈ s.moves, s.RouteLaw m.route ∧ m.IndexLaw ∧ m.StackLaw
  queue : ∀ q ∈ s.queue, s.RouteLaw q.route
  holds : ∀ g ∈ s.segs, ∀ k, g.holder = some k ↔ x ≠ some k ∧ s.spans k g.id

theorem State.runBut_none {s : State} : s.RunBut none ↔ s.RunLaw := by
  constructor
  · rintro ⟨hsegs, hslots, hruns, hqueue, hholds⟩
    exact ⟨hsegs, hslots, hruns, hqueue, fun g hg k => by simpa using hholds g hg k⟩
  · rintro ⟨hsegs, hslots, hruns, hqueue, hholds⟩
    exact ⟨hsegs, hslots, hruns, hqueue, fun g hg k => by simpa using hholds g hg k⟩

section run
variable {x : Option SlotIx} {s t : State}

theorem State.SlotLaw.moves (h : s.SlotLaw) : (s.moves.map (·.slot)).Nodup := (List.nodup_append.1 h).1

theorem State.spans_of_move (h : s.SlotLaw) {k : SlotIx} {m : Move} (hm : s.move? k = some m) (g : Nat) :
    s.spans k g ↔ g ∈ m.span m.t m.h := by
  obtain ⟨hslot, hmem⟩ := State.move?_some hm
  constructor
  · rintro ⟨y, hy, hyk, hg⟩
    rwa [eq_of_slot h.moves hy hmem (hyk.trans hslot.symm)] at hg
  · exact fun hg => ⟨m, hmem, hslot, hg⟩

/-- What the run law reads of a move. -/
abbrev Move.track (m : Move) : SlotIx × List Nat × Nat × Nat × Nat × List Nat := (m.slot, m.route, m.t, m.f, m.h, m.stack)

theorem Move.track_congr {a b : Move} (h : a.track = b.track) : a.slot = b.slot ∧ a.route = b.route
    ∧ (b.IndexLaw → a.IndexLaw) ∧ (b.StackLaw → a.StackLaw) ∧ a.span a.t a.h = b.span b.t b.h := by
  simp only [Prod.mk.injEq] at h
  obtain ⟨hslot, hroute, ht, hf, hh, hstack⟩ := h
  refine ⟨hslot, hroute, ?_, ?_, ?_⟩
  · rw [Move.IndexLaw, Move.IndexLaw, hroute, ht, hf, hh]
    exact id
  · rw [Move.StackLaw, Move.StackLaw, hstack, ht, hh]
    exact id
  · rw [Move.span_congr hroute, ht, hh]

/-- The run law reads no more than the track of the moves, the routes of the queue, and who holds what. -/
theorem State.RunBut.congr (h : s.RunBut x) (hmoves : t.moves.map Move.track = s.moves.map Move.track)
    (hqueue : t.queue = s.queue) (hconfig : t.segs.map Segment.config = s.segs.map Segment.config)
    (hholders : t.segs.map (fun g => (g.id, g.holder)) = s.segs.map fun g => (g.id, g.holder)) : t.RunBut x := by
  have hroute : ∀ {r}, s.RouteLaw r → t.RouteLaw r := fun hr => hr.of_config hconfig
  have hback : ∀ m ∈ t.moves, ∃ y ∈ s.moves, m.track = y.track := by
    intro m hm
    have hmem : m.track ∈ s.moves.map Move.track := hmoves ▸ List.mem_map_of_mem hm
    obtain ⟨y, hy, he⟩ := List.mem_map.1 hmem
    exact ⟨y, hy, he.symm⟩
  have hforth : ∀ y ∈ s.moves, ∃ m ∈ t.moves, m.track = y.track := by
    intro m hm
    have hmem : m.track ∈ t.moves.map Move.track := hmoves ▸ List.mem_map_of_mem hm
    obtain ⟨y, hy, he⟩ := List.mem_map.1 hmem
    exact ⟨y, hy, he⟩
  have hspans : ∀ k g, t.spans k g ↔ s.spans k g := by
    refine fun k g => ⟨?_, ?_⟩
    · rintro ⟨m, hm, hk, hg⟩
      obtain ⟨y, hy, he⟩ := hback m hm
      obtain ⟨hslot, -, -, -, hspan⟩ := Move.track_congr he
      exact ⟨y, hy, hslot ▸ hk, hspan ▸ hg⟩
    · rintro ⟨y, hy, hk, hg⟩
      obtain ⟨m, hm, he⟩ := hforth y hy
      obtain ⟨hslot, -, -, -, hspan⟩ := Move.track_congr he
      exact ⟨m, hm, hslot.trans hk, hspan ▸ hg⟩
  refine ⟨h.segs.of_config hconfig, ?_, fun m hm => ?_, fun q hq => hroute (h.queue q (hqueue ▸ hq)), fun g hg k => ?_⟩
  · have hslots : t.moves.map (·.slot) = s.moves.map (·.slot) := by
      have := congrArg (List.map Prod.fst) hmoves
      rwa [List.map_map, List.map_map] at this
    rw [State.SlotLaw, hslots, hqueue]
    exact h.slots
  · obtain ⟨y, hy, he⟩ := hback m hm
    obtain ⟨-, hr, hindex, hstack, -⟩ := Move.track_congr he
    obtain ⟨hry, hiy, hsy⟩ := h.runs y hy
    exact ⟨hr ▸ hroute hry, hindex hiy, hstack hsy⟩
  · have hmem : (g.id, g.holder) ∈ s.segs.map fun g => (g.id, g.holder) :=
      hholders ▸ List.mem_map_of_mem (f := fun g : Segment => (g.id, g.holder)) hg
    obtain ⟨r, hr, he⟩ := List.mem_map.1 hmem
    obtain ⟨hid, hholder⟩ := Prod.mk.inj he
    rw [hspans, ← hid, ← hholder]
    exact h.holds r hr k

/-- A change of one move's run with the holds that go with it. -/
theorem State.RunBut.of_update (h : s.RunBut x) {k : SlotIx} {m : Move} {u : Move → Move} {f : Segment → Segment}
    (hm : s.move? k = some m) (hmoves : t.moves = (s.updateMove k u).moves) (hqueue : t.queue = s.queue)
    (hsegs : t.segs = s.segs.map f) (hf : ∀ g, (f g).config = g.config) (hslot : ∀ y, (u y).slot = y.slot)
    (hroute : (u m).route = m.route) (hindex : (u m).IndexLaw) (hstack : (u m).StackLaw)
    (hholds : ∀ g ∈ s.segs, ∀ j, (f g).holder = some j ↔
      x ≠ some j ∧ if j = k then g.id ∈ (u m).span (u m).t (u m).h else s.spans j g.id) : t.RunBut x := by
  have hconfig : t.segs.map Segment.config = s.segs.map Segment.config := hsegs ▸ map_config_of_map hf
  have hsound : ∀ {r}, s.RouteLaw r → t.RouteLaw r := fun hr => hr.of_config hconfig
  obtain ⟨hmk, hmem⟩ := State.move?_some hm
  have hwas : ∀ y ∈ t.moves, y = u m ∨ (y ∈ s.moves ∧ y.slot ≠ k) := by
    intro y hy
    rw [hmoves, State.updateMove_moves, List.mem_map] at hy
    obtain ⟨z, hz, rfl⟩ := hy
    by_cases hzk : z.slot = k
    · rw [if_pos hzk, eq_of_slot h.slots.moves hz hmem (hzk.trans hmk.symm)]
      exact .inl rfl
    · rw [if_neg hzk]
      exact .inr ⟨hz, hzk⟩
  have hnow : ∀ y ∈ s.moves, y.slot ≠ k → y ∈ t.moves := by
    intro y hy hyk
    rw [hmoves, State.updateMove_moves, List.mem_map]
    exact ⟨y, hy, if_neg hyk⟩
  have hnew : u m ∈ t.moves := by
    rw [hmoves, State.updateMove_moves, List.mem_map]
    exact ⟨m, hmem, if_pos hmk⟩
  have hspans : ∀ j g, t.spans j g ↔ if j = k then g ∈ (u m).span (u m).t (u m).h else s.spans j g := by
    intro j g
    by_cases hj : j = k
    · rw [if_pos hj]
      constructor
      · rintro ⟨y, hy, hyj, hg⟩
        rcases hwas y hy with rfl | ⟨-, hne⟩
        · exact hg
        · exact absurd (hyj.trans hj) hne
      · exact fun hg => ⟨u m, hnew, (hslot m).trans (hmk.trans hj.symm), hg⟩
    · rw [if_neg hj]
      constructor
      · rintro ⟨y, hy, hyj, hg⟩
        rcases hwas y hy with rfl | ⟨hys, -⟩
        · exact absurd (hyj.symm.trans ((hslot m).trans hmk)) hj
        · exact ⟨y, hys, hyj, hg⟩
      · rintro ⟨y, hy, hyj, hg⟩
        exact ⟨y, hnow y hy (hyj ▸ hj), hyj, hg⟩
  refine ⟨h.segs.of_config hconfig, ?_, fun y hy => ?_, fun q hq => hsound (h.queue q (hqueue ▸ hq)), fun g hg j => ?_⟩
  · rw [State.SlotLaw, hmoves, s.updateMove_map k (·.slot) hslot, hqueue]
    exact h.slots
  · rcases hwas y hy with rfl | ⟨hys, -⟩
    · exact ⟨hroute ▸ hsound (h.runs m hmem).1, hindex, hstack⟩
    · obtain ⟨hr, hi, hst⟩ := h.runs y hys
      exact ⟨hsound hr, hi, hst⟩
  · rw [hsegs, List.mem_map] at hg
    obtain ⟨r, hr, rfl⟩ := hg
    rw [hspans, show (f r).id = r.id from congrArg Prod.fst (hf r)]
    exact hholds r hr j

/-! ### Restores, grants, advances, releases and admissions -/

theorem Move.track_of_named_run {a b : Move} (hnamed : a.named = b.named) (hrun : a.run = b.run) : a.track = b.track := by
  simp only [Prod.mk.injEq] at hnamed hrun ⊢
  obtain ⟨hslot, -, hroute, -, -⟩ := hnamed
  exact ⟨hslot, hroute, hrun⟩

theorem Move.restored_run (m : Move) : m.restored.t = m.t ∧ m.restored.f = m.f ∧ m.restored.h = m.f
    ∧ m.restored.route = m.route ∧ m.restored.slot = m.slot
    ∧ m.restored.stack = if m.h = m.f then m.stack else popTo m.f m.h m.stack := by
  unfold Move.restored
  split
  · rename_i h
    exact ⟨rfl, rfl, h, rfl, rfl, rfl⟩
  · exact ⟨rfl, rfl, rfl, rfl, rfl, rfl⟩

/-- A restored move stands as its laws ask (R49, R52). -/
theorem Move.restored_laws {m : Move} (hi : m.IndexLaw) (hs : m.StackLaw) : m.restored.IndexLaw ∧ m.restored.StackLaw := by
  obtain ⟨ht, hf, hh, hroute, -, hstack⟩ := m.restored_run
  obtain ⟨htf, hfh, hlen, hft⟩ := hi
  obtain ⟨hlo, hhi, hpos, hsum⟩ := hs
  rw [Move.IndexLaw, Move.StackLaw, ht, hf, hh, hroute, hstack]
  refine ⟨⟨htf, le_rfl, by omega, hft⟩, ?_⟩
  split
  · rename_i he
    exact ⟨hlo, hhi, hpos, by omega⟩
  · have hpop := popTo_sum m.f m.h m.stack hfh (by omega)
    exact ⟨length_pos_of_sum_pos (by omega), (popTo_length _ _ _).trans hhi, popTo_pos _ _ _ hpos hfh, by omega⟩

theorem State.RunBut.restore (h : s.RunBut x) (k : SlotIx) : (s.restore k).RunBut x := by
  cases hm : s.move? k with
  | none => rwa [State.restore_of_none hm]
  | some m =>
    obtain ⟨hslot, hmem⟩ := State.move?_some hm
    obtain ⟨hroute, hindex, hstack⟩ := h.runs m hmem
    obtain ⟨hindex', hstack'⟩ := Move.restored_laws hindex hstack
    obtain ⟨ht, hf, hh, hr, -, -⟩ := m.restored_run
    rw [State.restore_of_move hm]
    refine h.of_update (f := fun g => if g.id ∈ m.span (m.f + 1) m.h then g.released k else g) hm rfl rfl rfl
      (fun g => ?_) (fun y => y.restored_run.2.2.2.2.1) hr hindex' hstack' fun g hg j => ?_
    · split
      · exact g.released_config k
      · rfl
    · have hold := h.holds g hg j
      rw [Move.span_congr hr, ht, hh]
      by_cases hj : j = k
      · subst hj
        rw [if_pos rfl]
        rw [State.spans_of_move h.slots hm, Move.mem_span_split (j := m.f) (by omega) hindex.2.1] at hold
        by_cases hin : g.id ∈ m.span (m.f + 1) m.h
        · rw [if_pos hin, Segment.released_holder]
          have hout : g.id ∉ m.span m.t m.f := fun e =>
            Move.not_mem_span_of_lt hroute.nodup (Nat.lt_succ_self _) e hin
          simp [hout]
        · rw [if_neg hin, hold]
          simp [hin]
      · rw [if_neg hj, ← hold]
        split
        · rw [Segment.released_holder]
          simp [hj]
        · rfl

/-- The stack after a grant (R45, R50). -/
theorem Move.granted_stack {m m' : Move} {e : Nat} (hs : m.StackLaw) (hh : m.h < e) (ht : m'.t = m.t) (he : m'.h = e)
    (hstack : m'.stack = pushEntry (e - m.h) m.stack ∨ m'.stack = addTop (e - m.h) m.stack) : m'.StackLaw := by
  obtain ⟨hlo, hhi, hpos, hsum⟩ := hs
  rw [Move.StackLaw, ht, he]
  rcases hstack with hst | hst <;> rw [hst]
  · obtain ⟨hl1, hl2⟩ := pushEntry_length (e - m.h) m.stack hhi
    exact ⟨hl1, hl2, pushEntry_pos _ _ (by omega) hpos, by rw [pushEntry_sum]; omega⟩
  · rw [addTop_length]
    have hne : m.stack ≠ [] := fun h0 => by rw [h0] at hlo; simp at hlo
    exact ⟨hlo, hhi, addTop_pos _ _ hpos, by rw [addTop_sum _ _ hne]; omega⟩

theorem State.holder_of_grantable (hseg : s.SegLaw) {token : Bool} {g : Segment} (hg : g ∈ s.segs)
    (h : s.grantable token g.id = true) : g.holder = none := by
  simp only [State.grantable, State.seg?_of_mem hseg hg, Segment.grantable, Segment.isOpen, Bool.and_eq_true,
    Option.isNone_iff_eq_none] at h
  exact h.1.1.2

theorem State.RunBut.grant (h : s.RunBut x) {m : Move} {e : Nat} {u : Move → Move} (hx : x ≠ some m.slot)
    (hmem : m ∈ s.moves) (hh : m.h < e) (he : e < m.route.length)
    (hfree : ∀ g ∈ m.span (m.h + 1) e, s.grantable m.token g = true) (hu : s.Updates u)
    (hrun : (u m).run = (m.t, m.f, e, (u m).stack))
    (hs : (u m).stack = pushEntry (e - m.h) m.stack ∨ (u m).stack = addTop (e - m.h) m.stack) :
    ((s.hold m.slot (m.span (m.h + 1) e)).updateMove m.slot u).RunBut x := by
  have hm := State.move?_of_mem h.slots.moves hmem
  obtain ⟨hroute, ⟨htf, hfh, hlen, hft⟩, hstack⟩ := h.runs m hmem
  have hnamed := hu.named
  simp only [Prod.mk.injEq] at hrun hnamed
  obtain ⟨ht, hf, hhor, -⟩ := hrun
  have hr := (hnamed m).2.2.1
  refine h.of_update (f := fun g => if g.id ∈ m.span (m.h + 1) e then { g with holder := some m.slot } else g) hm rfl rfl
    rfl (fun g => by split <;> rfl) (fun y => (hnamed y).1) hr ?_ (Move.granted_stack hstack hh ht hhor hs)
    fun g hg j => ?_
  · rw [Move.IndexLaw, ht, hf, hhor, hr]
    exact ⟨htf, by omega, he, hft⟩
  · have hold := h.holds g hg j
    rw [Move.span_congr hr, ht, hhor]
    by_cases hin : g.id ∈ m.span (m.h + 1) e
    · rw [if_pos hin]
      have hnone := State.holder_of_grantable h.segs hg (hfree _ hin)
      by_cases hj : j = m.slot
      · rw [if_pos hj, hj]
        simp only [true_iff]
        exact ⟨hx, (Move.mem_span_split (by omega) hh.le).2 (.inr hin)⟩
      · rw [if_neg hj, ← hold, hnone]
        simp only [Option.some.injEq, reduceCtorEq, iff_false]
        exact fun e => hj e.symm
    · rw [if_neg hin, hold]
      by_cases hj : j = m.slot
      · rw [if_pos hj, hj, State.spans_of_move h.slots hm, Move.mem_span_split (j := m.h) (by omega) hh.le]
        simp [hin]
      · rw [if_neg hj]

/-- What a move holds next beyond its front lies within its horizon (R49). -/
theorem State.RunBut.front_lt (h : s.RunBut x) {m : Move} (hmem : m ∈ s.moves)
    (hheld : s.holder (m.seg (m.f + 1)) = some m.slot) : m.f + 1 ≤ m.h := by
  have hm := State.move?_of_mem h.slots.moves hmem
  obtain ⟨hroute, ⟨htf, hfh, hlen, hft⟩, -⟩ := h.runs m hmem
  unfold State.holder at hheld
  cases hr : s.seg? (m.seg (m.f + 1)) with
  | none => rw [hr] at hheld; cases hheld
  | some r =>
    rw [hr] at hheld
    obtain ⟨hid, hrs⟩ := State.seg?_some hr
    have hspan := ((h.holds r hrs m.slot).1 hheld).2
    rw [State.spans_of_move h.slots hm, hid] at hspan
    obtain ⟨p, -, hp, hplt, he⟩ := Move.mem_span.1 hspan
    by_cases hlt : m.f + 1 < m.route.length
    · rw [← Move.seg_inj hroute.nodup hplt hlt he]
      exact hp
    · have hzero : m.seg (m.f + 1) = 0 := by
        rw [Move.seg, List.getD_eq_default _ _ (Nat.not_lt.1 hlt)]
      have := (h.segs.2 r hrs).1
      rw [hid, hzero] at this
      omega

theorem State.RunBut.front (h : s.RunBut x) {m : Move} {u : Move → Move} (hmem : m ∈ s.moves)
    (hheld : s.holder (m.seg (m.f + 1)) = some m.slot) (htf : m.t = m.f) (hu : s.Updates u)
    (hrun : (u m).run = (m.t, m.f + 1, m.h, m.stack)) : (s.updateMove m.slot u).RunBut x := by
  have hm := State.move?_of_mem h.slots.moves hmem
  obtain ⟨hroute, ⟨-, hfh, hlen, hft⟩, hstack⟩ := h.runs m hmem
  have hlt := h.front_lt hmem hheld
  have hnamed := hu.named
  simp only [Prod.mk.injEq] at hrun hnamed
  obtain ⟨ht, hf, hhor, hst⟩ := hrun
  have hr := (hnamed m).2.2.1
  refine h.of_update (f := id) hm rfl rfl (List.map_id _).symm (fun _ => rfl) (fun y => (hnamed y).1) hr ?_ ?_
    fun g hg j => ?_
  · rw [Move.IndexLaw, ht, hf, hhor, hr]
    exact ⟨by omega, hlt, hlen, by omega⟩
  · rw [Move.StackLaw, hst, ht, hhor]
    exact hstack
  · have hold := h.holds g hg j
    rw [Move.span_congr hr, ht, hhor]
    by_cases hj : j = m.slot
    · rw [if_pos hj, hj, ← State.spans_of_move h.slots hm, ← hj]
      exact hold
    · rw [if_neg hj]
      exact hold

theorem State.RunBut.tail (h : s.RunBut x) {m : Move} (hmem : m ∈ s.moves) (hf : m.f = m.t + 1) :
    ((s.release m.slot [m.seg m.t]).updateMove m.slot fun y =>
      { y with t := y.t + 1, stack := dropBottom y.stack }).RunBut x := by
  have hm := State.move?_of_mem h.slots.moves hmem
  obtain ⟨hroute, ⟨htf, hfh, hlen, hft⟩, hlo, hhi, hpos, hsum⟩ := h.runs m hmem
  have hne : m.stack ≠ [] := fun h0 => by rw [h0] at hlo; simp at hlo
  have hdrop := dropBottom_sum m.stack hpos hne
  have htail : ∀ g, g ∈ m.span m.t m.t ↔ g = m.seg m.t := by
    intro g
    rw [Move.mem_span]
    constructor
    · rintro ⟨p, hp, hp', -, rfl⟩
      rw [Nat.le_antisymm hp' hp]
    · rintro rfl
      exact ⟨m.t, le_rfl, le_rfl, by omega, rfl⟩
  refine h.of_update (f := fun g => if g.id ∈ [m.seg m.t] then g.released m.slot else g) hm rfl rfl rfl (fun g => ?_)
    (fun _ => rfl) rfl ⟨by dsimp only; omega, hfh, hlen, by dsimp only; omega⟩
    ⟨length_pos_of_sum_pos (by dsimp only; omega), (dropBottom_length _).trans hhi, dropBottom_pos _ hpos,
      by dsimp only; omega⟩ fun g hg j => ?_
  · split
    · exact g.released_config m.slot
    · rfl
  · have hold := h.holds g hg j
    show _ ↔ x ≠ some j ∧ if j = m.slot then g.id ∈ m.span (m.t + 1) m.h else _
    by_cases hj : j = m.slot
    · subst hj
      rw [if_pos rfl]
      rw [State.spans_of_move h.slots hm, Move.mem_span_split (j := m.t) (by omega) (by omega), htail] at hold
      by_cases hin : g.id = m.seg m.t
      · rw [if_pos (List.mem_singleton.2 hin), Segment.released_holder]
        have hout : g.id ∉ m.span (m.t + 1) m.h :=
          Move.not_mem_span_of_lt hroute.nodup (Nat.lt_succ_self _) ((htail _).2 hin)
        simp [hout]
      · rw [if_neg (by simpa using hin), hold]
        simp [hin]
    · rw [if_neg hj, ← hold]
      split
      · rw [Segment.released_holder]
        simp [hj]
      · rfl

theorem State.newMove_laws (s : State) {q : QueuedOrder} (hroute : 2 ≤ q.route.length) :
    (s.newMove q).IndexLaw ∧ (s.newMove q).StackLaw :=
  ⟨⟨le_rfl, le_rfl, show 0 < q.route.length by omega, show 0 ≤ 0 + 1 by omega⟩,
    ⟨show 1 ≤ 1 by omega, show 1 ≤ 8 by omega, fun n hn => by rw [List.mem_singleton.1 hn], rfl⟩⟩

theorem mem_take_one {l : List Nat} {g : Nat} (h : l ≠ []) : g ∈ l.take 1 ↔ g = l.headD 0 := by
  cases l with
  | nil => exact absurd rfl h
  | cons a rest => simp

theorem State.RunBut.admitted (h : s.RunBut x) {q : QueuedOrder} (hx : x ≠ some q.slot)
    (hq : s.admissionFault q.bench (q.route.headD 0) true = none) (hlive : s.live q.slot = false)
    (hroute : s.RouteLaw q.route) : (s.admitOrder q).RunBut x := by
  have hconfig := s.admitOrder_config q
  have hsound : ∀ {r}, s.RouteLaw r → (s.admitOrder q).RouteLaw r := fun hr => hr.of_config hconfig
  obtain ⟨-, hstart⟩ := State.start_of_admissible hq
  have hlen := hroute.bounds.1
  have hne : q.route ≠ [] := fun h0 => by rw [h0] at hlen; simp at hlen
  have hnew : (s.readyCounter.newMove q).track = (q.slot, q.route, 0, 0, 0, [1]) := rfl
  have htracks := s.admitOrder_map q Move.track fun _ _ => rfl
  have hwas : ∀ m ∈ (s.admitOrder q).moves, (∃ y ∈ s.moves, m.track = y.track)
      ∨ m.track = (s.readyCounter.newMove q).track := by
    intro m hm
    have hmem : m.track ∈ (s.admitOrder q).moves.map Move.track := List.mem_map_of_mem hm
    rw [htracks, List.mem_append, List.mem_singleton] at hmem
    rcases hmem with hold | hnew
    · obtain ⟨y, hy, he⟩ := List.mem_map.1 hold
      exact .inl ⟨y, hy, he.symm⟩
    · exact .inr hnew
  have hnow : ∀ y ∈ s.moves, ∃ m ∈ (s.admitOrder q).moves, m.track = y.track := by
    intro y hy
    have hmem : y.track ∈ (s.admitOrder q).moves.map Move.track := by
      rw [htracks]
      exact List.mem_append_left _ (List.mem_map_of_mem hy)
    exact List.mem_map.1 hmem
  have hnewspan : ∀ g, g ∈ (s.readyCounter.newMove q).span 0 0 ↔ g = q.route.headD 0 := fun g =>
    mem_take_one hne
  have hspans : ∀ j g, (s.admitOrder q).spans j g ↔ s.spans j g ∨ (j = q.slot ∧ g = q.route.headD 0) := by
    intro j g
    constructor
    · rintro ⟨m, hm, hj, hg⟩
      rcases hwas m hm with ⟨y, hy, he⟩ | he
      · obtain ⟨hslot, -, -, -, hspan⟩ := Move.track_congr he
        exact .inl ⟨y, hy, hslot ▸ hj, hspan ▸ hg⟩
      · obtain ⟨hslot, -, -, -, hspan⟩ := Move.track_congr he
        exact .inr ⟨hj.symm.trans hslot, (hnewspan g).1 (hspan ▸ hg)⟩
    · rintro (⟨y, hy, hj, hg⟩ | ⟨rfl, hg⟩)
      · obtain ⟨m, hm, he⟩ := hnow y hy
        obtain ⟨hslot, -, -, -, hspan⟩ := Move.track_congr he
        exact ⟨m, hm, hslot.trans hj, hspan ▸ hg⟩
      · exact ⟨s.readyCounter.newMove q, by rw [State.admitOrder_moves]; simp, rfl, (hnewspan g).2 hg⟩
  refine ⟨h.segs.of_config hconfig, h.slots.admitOrder hlive, fun m hm => ?_, fun y hy => ?_, fun g hg j => ?_⟩
  · rcases hwas m hm with ⟨y, hy, he⟩ | he
    · obtain ⟨-, hr, hi, hs, -⟩ := Move.track_congr he
      obtain ⟨hry, hiy, hsy⟩ := h.runs y hy
      exact ⟨hr ▸ hsound hry, hi hiy, hs hsy⟩
    · obtain ⟨-, hr, hi, hs, -⟩ := Move.track_congr he
      obtain ⟨hin, hsn⟩ := s.readyCounter.newMove_laws hlen
      exact ⟨hr ▸ hsound hroute, hi hin, hs hsn⟩
  · exact hsound (h.queue y (s.admitOrder_queue q ▸ hy))
  · rw [State.admitOrder_segs, List.mem_map] at hg
    obtain ⟨r, hr, rfl⟩ := hg
    have hold := h.holds r hr j
    rw [hspans]
    by_cases hin : r.id ∈ q.route.take 1
    · rw [if_pos hin]
      have hid := (mem_take_one hne).1 hin
      have hnone : r.holder = none := by
        have := hstart rfl
        rwa [State.holder, ← hid, State.seg?_of_mem h.segs hr] at this
      rw [hnone] at hold
      simp only [reduceCtorEq, false_iff, not_and] at hold
      show some q.slot = some j ↔ x ≠ some j ∧ (s.spans j r.id ∨ j = q.slot ∧ r.id = q.route.headD 0)
      constructor
      · intro e
        obtain rfl : q.slot = j := by simpa using e
        exact ⟨hx, .inr ⟨rfl, hid⟩⟩
      · rintro ⟨hxj, hspan | ⟨rfl, -⟩⟩
        · exact absurd hspan (hold hxj)
        · rfl
    · rw [if_neg hin]
      have hid : r.id ≠ q.route.headD 0 := fun e => hin ((mem_take_one hne).2 e)
      rw [hold]
      exact and_congr_right fun _ => ⟨.inl, fun e => e.resolve_right fun e => hid e.2⟩

/-- Every atomic change keeps the run law. -/
theorem State.RunBut.of_edit (h : s.RunBut x) (e : Edit x s t) : t.RunBut x := by
  have hconfig := e.config
  cases e with
  | beside t hsame =>
    simp only [Prod.mk.injEq] at hsame
    obtain ⟨-, hsegs, hmoves, hqueue, -⟩ := hsame
    exact h.congr (congrArg _ hmoves) hqueue hconfig (congrArg _ hsegs)
  | lanes | asks | token => exact h.congr rfl rfl rfl rfl
  | records ids u hu =>
    refine h.congr rfl rfl hconfig ?_
    show (s.segs.map _).map _ = _
    rw [List.map_map]
    refine List.map_congr_left fun g _ => ?_
    show (fun r : Segment => (r.id, r.holder)) (if g.id ∈ ids then u g else g) = _
    split
    · exact Prod.ext (hu g).id (hu g).holder
    · rfl
  | mark g b =>
    refine h.congr rfl rfl hconfig ?_
    show (s.segs.map _).map _ = _
    rw [List.map_map]
    refine List.map_congr_left fun r _ => ?_
    show (fun r : Segment => (r.id, r.holder)) (if r.id ∈ [g] then _ else r) = _
    split <;> rfl
  | moves u hu hrun =>
    refine h.congr ?_ rfl rfl rfl
    rw [List.map_map]
    exact List.map_congr_left fun m _ => Move.track_of_named_run (hu.named m) (hrun m)
  | restore k => exact h.restore k
  | grant m e u hx hm hh he hfree hu hrun hs => exact h.grant hx hm hh he hfree hu hrun hs
  | front m u hm hheld htf hu hrun => exact h.front hm hheld htf hu hrun
  | tail m hm hf => exact h.tail hm hf
  | giveToken m =>
    exact h.congr (s.updateMove_map m.slot (u := fun y => { y with token := true }) Move.track fun _ => rfl) rfl rfl rfl
  | admission q hx hq hlive hroom hroute => exact h.admitted hx hq hlive hroute
  | enqueue q hq hlive hfull hroom hroute =>
    refine ⟨h.segs, h.slots.enqueue hlive, fun m hm => ?_, fun y hy => ?_, h.holds⟩
    · obtain ⟨hr, hi, hs⟩ := h.runs m hm
      exact ⟨hr.of_config hconfig, hi, hs⟩
    · rcases List.mem_append.1 hy with hy | hy
      · exact (h.queue y hy).of_config hconfig
      · rw [List.mem_singleton.1 hy]
        exact hroute.of_config hconfig
  | unqueue q hsub =>
    refine ⟨h.segs, h.slots.unqueue hsub, fun m hm => ?_, fun y hy => (h.queue y (hsub.subset hy)).of_config hconfig,
      h.holds⟩
    obtain ⟨hr, hi, hs⟩ := h.runs m hm
    exact ⟨hr.of_config hconfig, hi, hs⟩
  | halt =>
    refine h.congr ?_ rfl rfl rfl
    show (s.moves.map Move.freeze).map _ = _
    rw [List.map_map]
    exact List.map_congr_left fun m _ => rfl
  | wake u hu hrun =>
    refine h.congr ?_ rfl rfl rfl
    rw [List.map_map]
    exact List.map_congr_left fun m _ => Move.track_of_named_run (hu m) (hrun m)

end run

end Sys2Proof.Machine
end


section
/-!
PROOFS. Every operation of the rail blocks is a row of atomic changes, or the end of a move with a row of them before it
and after it (R39).
-/

open Sys2Proof Sys2Proof.Machine

namespace Sys2Proof.Machine

section edits
variable {x : Option SlotIx} {s t u : State}

theorem Edits.beside (h : (t.mode, t.segs, t.moves, t.queue, t.tokens, t.admissionCounter, t.lanes, t.crossingAsks)
    = (s.mode, s.segs, s.moves, s.queue, s.tokens, s.admissionCounter, s.lanes, s.crossingAsks)) : Edits x s t :=
  .one (.beside t h)

theorem Edits.notify (s : State) (n : Notice) : Edits x s (s.notify n) := .beside rfl

theorem Edits.trigger (s : State) : Edits x s s.trigger := by
  obtain ⟨a, h⟩ := s.trigger_eq
  rw [h]
  exact .beside rfl

theorem Edits.setVerdict (s : State) (k : SlotIx) (v : Verdict) : Edits x s (s.setVerdict k v) := .beside rfl

theorem Edits.refuse (s : State) (k : SlotIx) (r : RefuseReason) : Edits x s (s.refuse k r) := .beside rfl

theorem Edits.applied (s : State) (k : SlotIx) : Edits x s (s.applied k) := .beside rfl

theorem Edits.arbiter (s : State) (a : Arbiter) : Edits x s { s with arbiter := a } := .beside rfl

theorem Edits.updateLane (s : State) (l : LaneIx) (w : Lane → Lane)
    (h : s.mode = .halted → ∀ ln : Lane, ln.halted → (w ln).halted) : Edits x s (s.updateLane l w) := by
  refine .one (.lanes _ fun hm hl y => ?_)
  rw [lanes_set_get]
  split
  · exact h hm _ (hl l)
  · exact hl y

theorem Edits.updateMove (s : State) (k : SlotIx) {w : Move → Move} (hw : s.Updates w) (h : ∀ m, (w m).run = m.run) :
    Edits x s (s.updateMove k w) :=
  .one (.moves (fun m => if m.slot = k then w m else m)
    ⟨fun m => by split <;> [exact hw.named m; rfl],
      fun hm m hh => by split <;> [exact hw.halted hm m hh; exact hh]⟩
    fun m => by split <;> [exact h m; rfl])

/-- Updates of a move's state, marks and lane reference. -/
theorem State.Updates.plain {w : Move → Move} (hw : ∀ m, (w m).named = m.named)
    (ht : ∀ m, ((w m).silence, (w m).backoff) = (m.silence, m.backoff)) : s.Updates w :=
  ⟨hw, fun _ m hm => by
    obtain ⟨hs, hb⟩ := Prod.mk.inj (ht m)
    exact ⟨hs ▸ hm.1, hb ▸ hm.2⟩⟩

theorem Timer.restart_halted {y : Timer} (full : Nat) (h : y.isRunning = false) : (y.restart full).isRunning = false := by
  cases y with
  | running n => cases h
  | frozen n => rfl
  | stopped => rfl

theorem Timer.tick_halted {y : Timer} (h : y.isRunning = false) : y.tick.isRunning = false := by
  cases y with
  | running n => cases h
  | frozen n => rfl
  | stopped => rfl

theorem Edits.records (s : State) (ids : List Nat) (w : Segment → Segment) (h : ∀ g : Segment, g.Recorded (w g)) :
    Edits x s (s.updateSegs ids w) := .one (.records ids w h)

theorem Edits.setFence (s : State) (ids : List Nat) (c : FenceCause) : Edits x s (s.setFence ids c) :=
  .records s _ _ fun _ => ⟨rfl, rfl, rfl, rfl, fun _ => id⟩

theorem Edits.survey (s : State) (g : Nat) : Edits x s (s.survey g) :=
  .records s _ _ fun _ => ⟨rfl, rfl, rfl, rfl, fun _ => id⟩

theorem Edits.clear (s : State) (g : Nat) : Edits x s (s.clear g) :=
  .records s _ _ fun _ => ⟨rfl, rfl, rfl, rfl, fun _ h => nomatch h⟩

theorem Edits.vacate (s : State) (g b : Nat) : Edits x s (s.vacate g b) :=
  .records s _ _ fun r => by
    split
    · exact ⟨rfl, rfl, rfl, rfl, fun _ h => nomatch h⟩
    · exact ⟨rfl, rfl, rfl, rfl, fun _ h => h⟩

theorem Edits.mark (s : State) (g b : Nat) : Edits x s (s.mark g b) := .one (.mark g b)

theorem Edits.restore (s : State) (k : SlotIx) : Edits x s (s.restore k) := .one (.restore k)

theorem Edits.settleByIndices (s : State) (k : SlotIx) : Edits x s (s.settleByIndices k) :=
  .updateMove s k (.plain (fun _ => rfl) fun _ => rfl) fun _ => rfl

theorem Edits.heard (s : State) (b : Nat) : Edits x s (s.heard b) := by
  unfold State.heard
  split
  · exact .updateMove s _ ⟨fun _ => rfl, fun _ m hm => ⟨Timer.restart_halted _ hm.1, hm.2⟩⟩ fun _ => rfl
  · exact .refl

/-! ### The lanes (chapter 4) -/

/-- An update of a lane that leaves its timers. -/
theorem Edits.updateLane_plain (s : State) (l : LaneIx) (w : Lane → Lane)
    (h : ∀ ln : Lane, ((w ln).offerTimer, (w ln).crossingTimer, (w ln).settleTimer, (w ln).releaseTimer)
      = (ln.offerTimer, ln.crossingTimer, ln.settleTimer, ln.releaseTimer)) : Edits x s (s.updateLane l w) := by
  refine .updateLane s l w fun _ ln hln => ?_
  have he := h ln
  simp only [Prod.mk.injEq] at he
  obtain ⟨h1, h2, h3, h4⟩ := he
  rw [Lane.halted, h1, h2, h3, h4]
  exact hln

theorem Edits.enterOffering (s : State) (l : LaneIx) (k : BerthIx) : Edits x s (s.enterOffering l k) :=
  .updateLane s l _ fun hm _ hln => ⟨State.startTimer_halted hm _, hln.2⟩

theorem Edits.enterQuiet (s : State) (l : LaneIx) : Edits x s (s.enterQuiet l) := .updateLane_plain s l _ fun _ => rfl

theorem Edits.judgeRound (s : State) (l : LaneIx) : Edits x s (s.judgeRound l) := by
  unfold State.judgeRound
  split
  · exact (Edits.notify _ _).after (.updateLane_plain s l _ fun _ => rfl)
  · exact .refl

theorem Edits.clearRound (s : State) (l : LaneIx) : Edits x s (s.clearRound l) := .updateLane_plain s l _ fun _ => rfl

theorem Edits.startRound (s : State) (l : LaneIx) : Edits x s (s.startRound l) := by
  unfold State.startRound
  split
  · exact Edits.after (.enterOffering _ _ _) (Edits.clearRound s l)
  · exact Edits.after (.enterQuiet _ _) (Edits.after (.updateLane_plain _ l _ fun _ => rfl) (Edits.clearRound s l))

theorem Edits.advanceNormal (s : State) (l : LaneIx) : Edits x s (s.advanceNormal l) := by
  unfold State.advanceNormal
  split
  · exact Edits.after (.enterOffering _ _ _) (Edits.updateLane_plain s l _ fun _ => rfl)
  · dsimp only
    split
    · exact Edits.after (.startRound _ _) (Edits.after (.judgeRound _ _) (Edits.updateLane_plain s l _ fun _ => rfl))
    · exact Edits.after (.enterQuiet _ _) (Edits.after (.judgeRound _ _) (Edits.updateLane_plain s l _ fun _ => rfl))

theorem Edits.advanceStrict (s : State) (l : LaneIx) : Edits x s (s.advanceStrict l) := by
  unfold State.advanceStrict
  split
  · split
    · exact Edits.after (.enterOffering _ _ _) (Edits.after (.clearRound _ _) (Edits.judgeRound s l))
    · exact .enterOffering s _ _
  · exact Edits.after (.enterQuiet _ _) (Edits.judgeRound s l)

theorem Edits.advanceLane (s : State) (l : LaneIx) : Edits x s (s.advanceLane l) := by
  unfold State.advanceLane
  split
  · exact .advanceStrict s l
  · exact .advanceNormal s l

theorem Edits.joinList (s : State) (l : LaneIx) (b : BerthIx) (k : SlotIx) : Edits x s (s.joinList l b k) := by
  unfold State.joinList
  dsimp only
  split
  · exact Edits.after (.startRound _ _) (Edits.updateLane_plain s l _ fun _ => rfl)
  · exact .updateLane_plain s l _ fun _ => rfl

/-- An update of a lane that stops its offer timer, and leaves the others. -/
theorem Edits.stopOffer (s : State) (l : LaneIx) (w : Lane → Lane)
    (h : ∀ ln : Lane, ((w ln).offerTimer, (w ln).crossingTimer, (w ln).settleTimer, (w ln).releaseTimer)
      = (.stopped, ln.crossingTimer, ln.settleTimer, ln.releaseTimer)) : Edits x s (s.updateLane l w) := by
  refine .updateLane s l w fun _ ln hln => ?_
  have he := h ln
  simp only [Prod.mk.injEq] at he
  obtain ⟨h1, h2, h3, h4⟩ := he
  rw [Lane.halted, h1, h2, h3, h4]
  exact ⟨rfl, hln.2⟩

theorem Edits.leaveList (s : State) (l : LaneIx) (k : SlotIx) : Edits x s (s.leaveList l k) := by
  have h : Edits x s (s.updateLane l fun ln => { ln with lists := ln.lists.map fun q => q.filter (· ≠ k) }) :=
    .updateLane_plain s l _ fun _ => rfl
  unfold State.leaveList
  dsimp only
  split
  · exact Edits.after (.advanceLane _ _) (Edits.after (.stopOffer _ l _ fun _ => rfl) h)
  · exact h

theorem Edits.enterCrossing (s : State) (l : LaneIx) (k : SlotIx) : Edits x s (s.enterCrossing l k) := by
  unfold State.enterCrossing
  split
  · exact .updateLane s l _ fun hm _ hln => ⟨rfl, State.startTimer_halted hm _, hln.2.2⟩
  · exact .refl

theorem Edits.offerNext (s : State) (l : LaneIx) : Edits x s (s.offerNext l) := by
  unfold State.offerNext
  dsimp only
  split
  · exact Edits.after (.enterOffering _ _ _) (Edits.updateLane_plain s l _ fun _ => rfl)
  · exact .advanceLane s l

theorem Edits.releaseAfterFault (s : State) (l : LaneIx) : Edits x s (s.releaseAfterFault l) := by
  unfold State.releaseAfterFault
  split
  · exact .updateLane s l _ fun hm _ hln => ⟨hln.1, hln.2.1, hln.2.2.1, State.startTimer_halted hm _⟩
  · exact .refl

/-- An update of a lane that stops its crossing timer, and leaves the others. -/
theorem Edits.stopCrossing (s : State) (l : LaneIx) (w : Lane → Lane)
    (h : ∀ ln : Lane, ((w ln).offerTimer, (w ln).crossingTimer, (w ln).settleTimer, (w ln).releaseTimer)
      = (ln.offerTimer, .stopped, ln.settleTimer, ln.releaseTimer)) : Edits x s (s.updateLane l w) := by
  refine .updateLane s l w fun _ ln hln => ?_
  have he := h ln
  simp only [Prod.mk.injEq] at he
  obtain ⟨h1, h2, h3, h4⟩ := he
  rw [Lane.halted, h1, h2, h3, h4]
  exact ⟨hln.1, rfl, hln.2.2⟩

theorem Edits.endCrossing (s : State) (l : LaneIx) (k : SlotIx) : Edits x s (s.endCrossing l k) := by
  have h1 : Edits x s ((s.updateLane l fun ln => { ln with crossing := none, crossingTimer := .stopped }).updateMove k
      fun m => { m with lane := none, state := if m.state = .crossing then .moving else m.state }) :=
    Edits.after (.updateMove _ k (.plain (fun _ => rfl) fun _ => rfl) fun _ => rfl) (Edits.stopCrossing s l _ fun _ => rfl)
  have h2 : ∀ {v : State} (b : Prop) [Decidable b], Edits x s v → Edits x s (if b then v.trigger else v) := by
    intro v b _ hv
    split
    · exact Edits.after (.trigger v) hv
    · exact hv
  unfold State.endCrossing
  dsimp only
  split
  · exact Edits.after (.offerNext _ _) (h2 _ h1)
  · exact Edits.after (.releaseAfterFault _ _) (h2 _ h1)
  all_goals exact h2 _ h1

theorem State.awaitsRest_running {l : LaneIx} (h : (s.awaitsRest l).isSome = true) : s.mode = .running := by
  unfold State.awaitsRest at h
  dsimp only at h
  split at h
  · rename_i hc
    exact hc.1
  · cases h

theorem Edits.askRest (s : State) (l : LaneIx) : Edits x s (s.askRest l) := by
  unfold State.askRest
  split
  · rename_i h
    exact .one (.asks l true fun _ => State.awaitsRest_running h)
  · exact .refl

theorem Edits.withdrawGrant (s : State) (l : LaneIx) : Edits x s (s.withdrawGrant l) :=
  Edits.after (.advanceLane _ _) (Edits.stopOffer s l _ fun _ => rfl)

theorem Edits.revokeGrant (s : State) (l : LaneIx) : Edits x s (s.revokeGrant l) := by
  unfold State.revokeGrant
  split
  · exact Edits.after (.stopOffer _ l _ fun _ => rfl) (Edits.after (.updateMove _ _ (.plain (fun _ => rfl) fun _ => rfl) fun _ => rfl) (Edits.restore s _))
  all_goals exact .refl

theorem Edits.faultLane (s : State) (l : LaneIx) (c : FaultCause) : Edits x s (s.faultLane l c) :=
  Edits.after (.notify _ _) (Edits.after (.updateLane _ l _ fun _ _ _ => ⟨rfl, rfl, rfl, rfl⟩) (Edits.revokeGrant s l))

theorem Edits.changeCause (s : State) (l : LaneIx) (c : FaultCause) : Edits x s (s.changeCause l c) :=
  .updateLane s l _ fun _ _ hln => ⟨hln.1, rfl, hln.2.2.1, rfl⟩

theorem Edits.putInFault (s : State) (l : LaneIx) (c : FaultCause) : Edits x s (s.putInFault l c) := by
  unfold State.putInFault
  split
  · exact Edits.after (.notify _ _) (Edits.changeCause s l c)
  · exact .faultLane s l c

theorem Edits.settleLane (s : State) (l : LaneIx) : Edits x s (s.settleLane l) :=
  .updateLane s l _ fun hm _ hln => ⟨rfl, hln.2.1, State.startTimer_halted hm _, hln.2.2.2⟩

theorem Edits.strandIf (s : State) (b : Nat) (l : LaneIx) : Edits x s (s.strandIf b l) := by
  unfold State.strandIf
  split
  · exact .putInFault s l _
  · exact .refl

theorem Edits.strandAll (s : State) (b : Nat) : Edits x s (s.strandAll b) :=
  Edits.after (.strandIf _ _ _) (Edits.after (.strandIf _ _ _) (Edits.after (.strandIf _ _ _) (Edits.strandIf s b 0)))

/-! ### Stops, stalls and progress (chapter 6) -/

theorem Edits.leaveLane (s : State) (k : SlotIx) : Edits x s (s.leaveLane k) := by
  unfold State.leaveLane
  split
  · exact .refl
  · split
    · exact .refl
    · have h : Edits x s (s.updateMove k fun m => { m with lane := none }) :=
        .updateMove s k (.plain (fun _ => rfl) fun _ => rfl) fun _ => rfl
      dsimp only
      split
      · exact Edits.after (.withdrawGrant _ _) h
      · exact Edits.after (.leaveList _ _ _) h

theorem Edits.enterStopping (s : State) (k : SlotIx) (r : EndReason) : Edits x s (s.enterStopping k r) := by
  unfold State.enterStopping
  split
  · exact .refl
  · split
    · exact .refl
    · refine Edits.after (.leaveLane _ _) (Edits.after (.updateMove _ k ⟨fun _ => rfl, fun hm _ _ => ?_⟩ fun _ => rfl) (Edits.restore s k))
      exact ⟨State.startTimer_halted ((s.restore_steady k).mode ▸ hm) _, rfl⟩

theorem Edits.stallMove (s : State) (k : SlotIx) : Edits x s (s.stallMove k) := by
  refine Edits.after (.notify _ _) (Edits.after (.leaveLane _ _) (Edits.after (.updateMove _ k ⟨fun _ => rfl, fun hm _ _ => ?_⟩ fun _ => rfl) (Edits.restore s k)))
  exact ⟨rfl, State.startTimer_halted ((s.restore_steady k).mode ▸ hm) _⟩

theorem Edits.stallAgain (s : State) (k : SlotIx) : Edits x s (s.stallAgain k) :=
  Edits.after (.notify _ _) (Edits.updateMove s k ⟨fun _ => rfl, fun hm _ hh => ⟨hh.1, State.startTimer_halted hm _⟩⟩ fun _ => rfl)

theorem Edits.endLane (s : State) (k : SlotIx) : Edits x s (s.endLane k) := by
  unfold State.endLane
  split
  · exact .refl
  · split
    · exact .stopCrossing s _ _ fun _ => rfl
    · split
      · exact .withdrawGrant s _
      · exact .leaveList s _ _

theorem Edits.settleProgress (s : State) (k : SlotIx) : Edits x s (s.settleProgress k) := by
  unfold State.settleProgress
  split
  · split
    · exact Edits.after (.trigger _) (Edits.settleByIndices s k)
    · exact .refl
  · exact .refl

/-- A mark changes no holder (R11). -/
theorem State.mark_holder (s : State) (g b a : Nat) : (s.mark g b).holder a = s.holder a := by
  have hseg := s.seg?_updateSegs [g] (fun r => { r with occupant := some (s.markOf g b) }) a fun _ => rfl
  unfold State.holder State.mark
  rw [hseg]
  cases s.seg? a with
  | none => rfl
  | some r =>
    show (if a ∈ [g] then _ else r).holder = r.holder
    split <;> rfl

theorem Edits.advance (s : State) {m : Move} {g : Nat} (hm : m ∈ s.moves) (hheld : s.holder g = some m.slot)
    (htf : m.t = m.f) (hg : g = m.seg (m.f + 1)) : Edits x s (s.advance m g) := by
  have h : Edits x s ((s.mark g m.bench).updateMove m.slot fun y =>
      { y with
        f := y.f + 1
        shed := false
        silence := if y.f + 1 < y.h then y.silence.restart s.silenceFull else .stopped }) := by
    refine Edits.after (.one (.front m _ hm ?_ htf ⟨fun _ => rfl, fun _ y hy => ?_⟩ rfl)) (Edits.mark s g m.bench)
    · rw [State.mark_holder, ← hg]
      exact hheld
    · refine ⟨?_, hy.2⟩
      dsimp only
      split
      · exact Timer.restart_halted _ hy.1
      · rfl
  unfold State.advance
  refine Edits.after (.settleProgress _ _) ?_
  split
  · split
    · exact Edits.after (.enterCrossing _ _ _) h
    · exact h
  · exact h

/-! ### Intrusions (R81 to R84, R103 to R105) -/

theorem Edits.intrudeEntered (s : State) (l : LaneIx) (k : SlotIx) : Edits x s (s.intrudeEntered l k) :=
  Edits.after (.enterStopping _ _ _) (Edits.putInFault s l _)

theorem Edits.intrudeFaulted (s : State) (l : LaneIx) : Edits x s (s.intrudeFaulted l) := by
  unfold State.intrudeFaulted
  dsimp only
  split
  · exact .changeCause s l _
  · exact Edits.after (.notify _ _) (Edits.changeCause s l _)

theorem Edits.intrudeLane (s : State) (l : LaneIx) : Edits x s (s.intrudeLane l) := by
  unfold State.intrudeLane
  refine Edits.after (.notify _ _) ?_
  split
  · exact .settleLane s l
  · exact .settleLane s l
  · exact .settleLane s l
  · split
    · exact .intrudeEntered s _ _
    · exact Edits.after (.settleLane _ _) (Edits.revokeGrant s l)
  · split
    · exact .intrudeEntered s _ _
    · exact .intrudeFaulted s l

theorem Edits.stopIntruder (s : State) (mv : Option Move) : Edits x s (s.stopIntruder mv) := by
  unfold State.stopIntruder
  split
  · exact .enterStopping s _ _
  · exact .refl

theorem Edits.intrude (s : State) (mv : Option Move) (b g : Nat) : Edits x s (s.intrude mv b g) := by
  have hmark : ∀ (c : Bool) (v : State) (o : Nat), Edits x v (if c then v else v.mark g o) := by
    intro c v o
    split
    · exact .refl
    · exact .mark v g o
  unfold State.intrude
  split
  · exact Edits.after (.stopIntruder _ _) (Edits.after (.notify _ _) (Edits.after (hmark _ _ _) (Edits.intrudeLane s _)))
  · split
    · exact Edits.after (.stopIntruder _ _) (Edits.after (.notify _ _) (Edits.after (hmark _ _ _) (Edits.after (.setFence _ _ _) (Edits.enterStopping s _ _))))
    · exact Edits.after (.stopIntruder _ _) (Edits.after (.notify _ _) (Edits.after (.mark _ _ _) (Edits.setFence s _ _)))

/-! ### Announcements and the arbiter (R9, chapter 3) -/

theorem Edits.announceLane (s : State) (a : List Segment) (l : LaneIx) : Edits x s (s.announceLane a l) := by
  unfold State.announceLane
  split
  · exact .askRest s l
  · exact .refl

theorem Edits.announce (before s : State) : Edits x s (before.announce s) := by
  by_cases h : announced before.segs s.segs = []
  · rw [State.announce_of_none h]
    exact .refl
  · rw [State.announce_of_some h]
    exact Edits.after (.trigger _) (Edits.after (.announceLane _ _ 3) (Edits.after (.announceLane _ _ 2) (Edits.after (.announceLane _ _ 1) (Edits.announceLane s _ 0))))

/-- A change of the moves' states and marks, all at once. -/
theorem Edits.allMoves (s : State) {w : Move → Move} (hw : ∀ m, (w m).named = m.named)
    (ht : ∀ m, ((w m).silence, (w m).backoff) = (m.silence, m.backoff)) (h : ∀ m, (w m).run = m.run) :
    Edits x s { s with moves := s.moves.map w } := .one (.moves w (.plain hw ht) h)

theorem Edits.endPass (s : State) : Edits x s s.endPass := by
  have h : Edits x s { s with
      moves := s.moves.map fun m => { m with yield := m.yield.onPassEnd }
      arbiter := { s.arbiter with pass := none, check := none, further := false } } :=
    Edits.after (.arbiter _ _) (.allMoves s (w := fun m => { m with yield := m.yield.onPassEnd }) (fun _ => rfl)
      (fun _ => rfl) fun _ => rfl)
  unfold State.endPass
  dsimp only
  split
  · exact Edits.after (.trigger _) h
  · exact h

theorem Edits.beginPass (s : State) : Edits x s s.beginPass :=
  Edits.after (.arbiter _ _) (Edits.allMoves s (w := fun m => { m with yield := m.yield.onPassStart }) (fun _ => rfl) (fun _ => rfl)
    fun _ => rfl)

theorem Edits.startPass (s : State) : Edits x s s.startPass := by
  unfold State.startPass
  split
  · split
    · exact .arbiter s _
    · split
      · exact .beginPass s
      · exact Edits.after (.endPass _) (Edits.beginPass s)
  all_goals exact .refl

theorem Edits.joinBerth (s : State) (m : Move) : Edits x s (s.joinBerth m) := by
  unfold State.joinBerth
  split
  · exact Edits.after (.joinList _ _ _ _) (Edits.updateMove s _ (.plain (fun _ => rfl) fun _ => rfl) fun _ => rfl)
  · exact .refl

theorem Edits.gridlock (s : State) (c : GridlockCapture) : Edits x s { s with gridlock := c } := .beside rfl

theorem Edits.shedMove (s : State) (k : SlotIx) (len : Nat) : Edits x s (s.shedMove k len) :=
  Edits.after (.notify _ _) (Edits.after (.gridlock _ _)
    (Edits.after (.updateMove _ k ⟨fun _ => rfl, fun _ _ hh => ⟨rfl, hh.2⟩⟩ fun _ => rfl) (.restore s k)))

theorem Edits.reportRing (s : State) (ring : List SlotIx) (members : List Move) :
    Edits x s (s.reportRing ring members) := by
  have h : Edits x s
      { s with moves := s.moves.map fun m => if m.slot ∈ ring then { m with gridlocked := true } else m } :=
    .allMoves s (fun m => by split <;> rfl) (fun m => by split <;> rfl) fun m => by split <;> rfl
  unfold State.reportRing
  dsimp only
  split
  · exact h
  · split
    · exact h
    · exact Edits.after (.notify _ _) (Edits.after (.gridlock _ _) h)

theorem Edits.breakRing (s : State) (ring : List SlotIx) : Edits x s (s.breakRing ring) := by
  unfold State.breakRing
  dsimp only
  split
  · exact .shedMove s _ _
  · exact .reportRing s _ _

theorem Edits.followChain (s : State) (c : WaitCheck) : Edits x s (s.followChain c) := by
  unfold State.followChain
  split
  · exact .arbiter s _
  · split
    · dsimp only
      split
      · exact Edits.after (.breakRing _ _) (Edits.arbiter s _)
      · exact .arbiter s _
    · split
      · exact .arbiter s _
      · split <;> exact .arbiter s _

theorem Edits.settleVisit (s : State) (m : Move) : Edits x s (s.settleVisit m) := by
  have h : Edits x s (s.updateMove m.slot fun y => { y with state := s.tableState m, extending := false }) :=
    .updateMove s _ (.plain (fun _ => rfl) fun _ => rfl) fun _ => rfl
  unfold State.settleVisit
  dsimp only
  split
  · exact Edits.after (.joinBerth _ _) h
  · exact Edits.after (.arbiter _ _) h
  all_goals exact h

theorem Edits.closePass (s : State) : Edits x s s.closePass := by
  unfold State.closePass
  split
  · exact .endPass s
  · exact .refl

theorem Edits.cutPass (s : State) : Edits x s s.cutPass :=
  Edits.after (.endPass _) (Edits.allMoves s (w := fun m => if m.extending then { m with state := s.indexState m, extending := false } else m)
    (fun m => by split <;> rfl) (fun m => by split <;> rfl) fun m => by split <;> rfl)

end edits

/-! ### Grants (R7, R44, R70, R78) -/

section grants
variable {s : State}

theorem State.grantableTo_iff (s : State) (m : Move) (e : Nat) : s.grantableTo m e = true ↔
    e < m.route.length ∧ ∀ g ∈ m.span (m.h + 1) e, s.grantable m.token g = true := by
  simp [State.grantableTo]

theorem State.le_pastCells (s : State) (m : Move) (i : Nat) : i ≤ s.pastCells m i := Nat.le_add_right _ _

theorem State.offerGrant_some {l : LaneIx} {m : Move} {e : Nat} (h : s.offerGrant l = some (m, e)) :
    m ∈ s.moves ∧ m.h < e ∧ e < m.route.length ∧ ∀ g ∈ m.span (m.h + 1) e, s.grantable m.token g = true := by
  unfold State.offerGrant at h
  split at h
  · split at h
    · split at h
      · rename_i k _ m' hm
        split at h
        · rename_i hg
          simp only [Option.some.injEq, Prod.mk.injEq] at h
          obtain ⟨rfl, rfl⟩ := h
          exact ⟨(State.move?_some hm).2, s.le_pastCells m' (m'.h + 1), (s.grantableTo_iff _ _).1 hg⟩
        · cases h
      · cases h
    · cases h
  · cases h

theorem Edits.offerCheck (s : State) (l : LaneIx) : Edits none s (s.offerCheck l) := by
  unfold State.offerCheck
  split
  · rename_i m e h
    obtain ⟨hm, hlt, he, hfree⟩ := State.offerGrant_some h
    refine Edits.after (.updateLane _ l _ fun hmode _ hln => ⟨State.startTimer_halted hmode _, hln.2⟩) (Edits.one (.grant m e _ (by simp) hm hlt he hfree ⟨fun _ => rfl, fun hmode y hy => ?_⟩ rfl (.inl rfl)))
    exact ⟨State.startTimer_halted hmode _, hy.2⟩
  · exact .refl

theorem State.awaitsRest_some {l : LaneIx} {m : Move} {e : Nat} (h : s.awaitsRest l = some (m, e)) :
    s.mode = .running ∧ m ∈ s.moves ∧ m.state = .crossing ∧ m.h = m.f ∧ m.f < e ∧ e = s.exitEntered m
      ∧ s.lanes[l].crossing = some ⟨m.slot, true⟩ := by
  unfold State.awaitsRest at h
  dsimp only at h
  split at h
  · rename_i hmode
    split at h
    · rename_i k hc
      split at h
      · rename_i m' hm
        split at h
        · rename_i hs
          simp only [Option.some.injEq, Prod.mk.injEq] at h
          obtain ⟨rfl, rfl⟩ := h
          obtain ⟨hslot, hmem⟩ := State.move?_some hm
          exact ⟨hmode.1, hmem, hs.1, hs.2.1, hs.2.2, rfl, hslot ▸ hc⟩
        · cases h
      · cases h
    · cases h
    · cases h
  · cases h

theorem Edits.resumeCrossing (s : State) (l : LaneIx) : Edits none s (s.resumeCrossing l) := by
  unfold State.resumeCrossing
  split
  · rename_i m e h
    obtain ⟨hmode, hm, -, hhf, hlt, -, -⟩ := State.awaitsRest_some h
    split
    · rename_i hg
      obtain ⟨he, hfree⟩ := (s.grantableTo_iff _ _).1 hg
      refine Edits.one (.grant m e _ (by simp) hm (hhf ▸ hlt) he hfree ⟨fun _ => rfl, fun hmode y hy => ?_⟩ rfl (.inl rfl))
      exact ⟨State.startTimer_halted hmode _, hy.2⟩
    · exact .refl
  · exact .refl

theorem Edits.makeAsk (s : State) (l : LaneIx) : Edits none s (s.makeAsk l) :=
  Edits.after (.resumeCrossing _ l) (Edits.one (.asks l false (by simp)))

theorem State.mayExtend_iff (s : State) (m : Move) (i : Nat) : s.mayExtend m i = true ↔
    i < m.route.length ∧ s.isCell (m.seg i) = false ∧ i ≤ m.f + s.timing.reach ∧ s.grantable m.token (m.seg i) = true := by
  simp [State.mayExtend, and_assoc]

/-- The one segment of a span of one position. -/
theorem Move.span_one {m : Move} {i : Nat} (h : i < m.route.length) : m.span i i = [m.seg i] := by
  rw [Move.span, Move.seg, List.getD_eq_getElem _ _ h, Nat.add_sub_cancel_left, List.drop_eq_getElem_cons h]
  rfl

theorem Edits.grantNext (s : State) {m : Move} (hm : m ∈ s.moves) (h : s.mayExtend m (m.h + 1) = true) :
    Edits none s (s.grantNext m) := by
  obtain ⟨hlt, -, -, hfree⟩ := (s.mayExtend_iff _ _).1 h
  have hspan := Move.span_one hlt
  have hgrant : Edits none s ((s.hold m.slot (m.span (m.h + 1) (m.h + 1))).updateMove m.slot fun y =>
      { y.extended with silence := if m.h = m.f then s.startTimer s.silenceFull else y.silence }) := by
    refine Edits.one (.grant m (m.h + 1) _ (by simp) hm (Nat.lt_succ_self _) hlt ?_
      ⟨fun _ => rfl, fun hmode y hy => ⟨?_, hy.2⟩⟩ rfl ?_)
    · rw [hspan]
      exact fun g hg => List.mem_singleton.1 hg ▸ hfree
    · dsimp only
      split
      · exact State.startTimer_halted hmode _
      · exact hy.1
    · rw [Nat.add_sub_cancel_left]
      show (if m.extending then addTop 1 m.stack else pushEntry 1 m.stack) = _
        ∨ (if m.extending then addTop 1 m.stack else pushEntry 1 m.stack) = _
      split
      · exact .inr rfl
      · exact .inl rfl
  rw [hspan] at hgrant
  exact hgrant

theorem Edits.turn (s : State) (k : SlotIx) : Edits none s (s.turn k) := by
  unfold State.turn
  split
  · exact .arbiter s _
  · rename_i m hm
    split
    · split
      · rename_i h
        exact .grantNext s (State.move?_some hm).2 h
      · exact Edits.after (.settleVisit _ _) (Edits.arbiter s _)
    · exact .arbiter s _

theorem Edits.request (s : State) : Edits none s s.request := by
  unfold State.request
  split
  · exact .refl
  · split
    · split
      · exact Edits.after (.closePass _) (Edits.followChain s _)
      · exact .endPass s
      · exact Edits.after (.closePass _) (Edits.turn s _)
    all_goals exact .cutPass s

theorem Edits.finishVisit (fuel : Nat) (s : State) : Edits none s (State.finishVisit fuel s) := by
  induction fuel generalizing s with
  | zero => exact .refl
  | succ n ih =>
    unfold State.finishVisit
    split
    · exact Edits.after (ih _) (Edits.request s)
    · exact .refl

theorem Edits.visit (s : State) : Edits none s s.visit := Edits.after (.finishVisit _ _) (Edits.request s)

/-! ### Expiries that end no move -/

theorem Edits.retryMove (s : State) (k : SlotIx) : Edits none s (s.retryMove k) := by
  have h : Edits none s (s.updateMove k fun m => { m with retries := m.retries - 1, backoff := .stopped }) :=
    .updateMove s k ⟨fun _ => rfl, fun _ _ hh => ⟨hh.1, rfl⟩⟩ fun _ => rfl
  unfold State.retryMove
  dsimp only
  split
  · exact Edits.after (.trigger _) (Edits.after (.resumeCrossing _ _) (Edits.after (.updateMove _ k (.plain (fun _ => rfl) fun _ => rfl) fun _ => rfl) h))
  · exact Edits.after (.trigger _) (Edits.after (.settleByIndices _ _) h)

theorem Edits.backoffExpiry (s : State) (k : SlotIx) : Edits none s (s.backoffExpiry k) := by
  unfold State.backoffExpiry
  split
  · exact .refl
  · split
    · split
      · exact .enterStopping s _ _
      · exact .retryMove s _
    · exact .refl

theorem Edits.offerLapse (s : State) (l : LaneIx) : Edits none s (s.offerLapse l) := by
  unfold State.offerLapse
  split
  · exact Edits.after (.advanceLane _ _) (Edits.stopOffer s l _ fun _ => rfl)
  · exact .refl

theorem Edits.entryDeadlineLapse (s : State) (l : LaneIx) : Edits none s (s.entryDeadlineLapse l) := by
  unfold State.entryDeadlineLapse
  split
  · exact Edits.after (.advanceLane _ _) (Edits.revokeGrant s l)
  · exact .refl

theorem Edits.crossingLimitExpiry (s : State) (l : LaneIx) : Edits none s (s.crossingLimitExpiry l) := by
  unfold State.crossingLimitExpiry
  split
  · exact .faultLane s l _
  · exact .refl

theorem Edits.leaveFault (s : State) (l : LaneIx) : Edits none s (s.leaveFault l) :=
  Edits.after (.startRound _ _) (Edits.updateLane s l _ fun _ _ hln => ⟨hln.1, hln.2.1, hln.2.2.1, rfl⟩)

theorem Edits.leaveSettling (s : State) (l : LaneIx) : Edits none s (s.leaveSettling l) :=
  Edits.after (.startRound _ _) (Edits.updateLane s l _ fun _ _ hln => ⟨hln.1, hln.2.1, rfl, hln.2.2.2⟩)

theorem Edits.settleExpiry (s : State) (l : LaneIx) : Edits none s (s.settleExpiry l) := by
  unfold State.settleExpiry
  split
  · exact .leaveSettling s l
  · exact .refl

theorem Edits.releaseExpiry (s : State) (l : LaneIx) : Edits none s (s.releaseExpiry l) := by
  unfold State.releaseExpiry
  split
  · exact .leaveFault s l
  · exact .refl

end grants

end Sys2Proof.Machine
end


section
/-!
PROOFS. The end of a move (R31, R39), the orders, the reports and the step as rows of atomic changes and ends of moves;
and the laws that every step keeps: tables (R20, R29, R30), admission numbers (R24), modes (R90, R130, R160, R181), runs
(R49) and places (R11).
-/

open Sys2Proof Sys2Proof.Machine

namespace Sys2Proof.Machine

/-! ### Ends of moves -/

/-- An atomic change, or the end of a move: its holds are released, its lane and the lanes it stands on are dealt with,
its entry goes, its verdict is set, and the queue is tried (R39, R31). -/
inductive Change (s : State) : State → Prop
  | edit {t : State} (e : Edit none s t) : Change s t
  | ends {u : State} (m : Move) (hm : s.move? m.slot = some m)
      (h : Edits (some m.slot) (s.release m.slot (m.span m.t m.h)) u) (v : Verdict) (n : Notice) :
      Change s (((u.removeMove m.slot).setVerdict m.slot v).notify n).tryQueue

/-- A row of changes. -/
def Changes : State → State → Prop := Relation.ReflTransGen Change

section changes
variable {s t u : State}

theorem Changes.refl : Changes s s := Relation.ReflTransGen.refl

theorem Changes.after (k : Changes t u) (h : Changes s t) : Changes s u := Relation.ReflTransGen.trans h k

theorem Changes.keeps {P : State → Prop} (hP : ∀ {s t}, Change s t → P s → P t) (h : Changes s t) (hs : P s) : P t := by
  induction h with
  | refl => exact hs
  | tail _ e ih => exact hP e ih

theorem Edits.changes (h : Edits none s t) : Changes s t := by
  induction h with
  | refl => exact .refl
  | tail _ e ih => exact Changes.after (Relation.ReflTransGen.single (.edit e)) ih

theorem Changes.endMove (s : State) (k : SlotIx) (final : Nat → Verdict) (n : Notice) : Changes s (s.endMove k final n) := by
  unfold State.endMove
  cases hm : s.move? k with
  | none => exact .refl
  | some m =>
    obtain ⟨rfl, -⟩ := State.move?_some hm
    exact Changes.after (Edits.trigger _).changes (Relation.ReflTransGen.single
      (.ends m hm (Edits.after (.strandAll _ _) (.endLane _ _)) _ _))

theorem Changes.afterTail (s : State) (k : SlotIx) : Changes s (s.afterTail k) := by
  unfold State.afterTail
  split
  · split
    · exact .endMove s k _ _
    · exact (Edits.settleProgress s k).changes
  · exact .refl

theorem Changes.tailRelease (s : State) {m : Move} (hm : m ∈ s.moves) (hf : m.f = m.t + 1) : Changes s (s.tailRelease m) := by
  have h : Edits none s (((s.vacate (m.seg m.t) m.bench).release m.slot [m.seg m.t]).updateMove m.slot fun y =>
      { y with t := y.t + 1, stack := dropBottom y.stack }) :=
    Edits.after (.one (.tail m hm hf)) (.vacate s _ _)
  unfold State.tailRelease
  refine Changes.after (.afterTail _ _) ?_
  split
  · split
    · exact (Edits.after (.endCrossing _ _ _) h).changes
    · exact h.changes
  · exact h.changes

/-! ### Reports (chapter 5) -/

theorem Changes.arrivedReport (b g : Nat) (s : State) : Changes s (arrivedReport b g s).1 := by
  unfold Machine.arrivedReport
  split
  · rename_i m hm
    obtain ⟨-, hmem, -⟩ := State.moveOfBench_some hm
    split
    · rename_i hheld
      split
      · rename_i htf
        split
        · rename_i hg
          exact (Edits.advance s hmem hheld htf hg).changes
        · exact (Edits.enterStopping s _ _).changes
      · exact (Edits.enterStopping s _ _).changes
    · exact (Edits.intrude s _ _ _).changes
  · split
    · exact .refl
    · exact (Edits.intrude s _ _ _).changes

theorem Changes.leftReport (b g : Nat) (s : State) : Changes s (leftReport b g s).1 := by
  unfold Machine.leftReport
  split
  · rename_i m hm
    obtain ⟨-, hmem, -⟩ := State.moveOfBench_some hm
    split
    · split
      · rename_i hf
        exact .tailRelease s hmem hf
      · exact .refl
    · exact (Edits.enterStopping s _ _).changes
  · exact (Edits.vacate s _ _).changes

theorem Changes.stalledReport (b g : Nat) (s : State) : Changes s (stalledReport b g s).1 := by
  unfold Machine.stalledReport
  split
  · split
    · unfold State.takeStall
      split
      · exact (Edits.stallMove s _).changes
      · exact (Edits.stallMove s _).changes
      · exact (Edits.stallMove s _).changes
      · exact (Edits.stallMove s _).changes
      · exact (Edits.stallAgain s _).changes
      · exact .refl
    · exact (Edits.enterStopping s _ _).changes
  · exact .refl

theorem Changes.takeHalt (s : State) (m : Move) : Changes s (s.takeHalt m) := by
  unfold State.takeHalt
  split
  · exact .endMove s _ _ _
  · exact .endMove s _ _ _

theorem Changes.haltedReport (b g : Nat) (s : State) : Changes s (haltedReport b g s).1 := by
  unfold Machine.haltedReport
  split
  · split
    · exact .takeHalt s _
    · exact (Edits.enterStopping s _ _).changes
  · exact .refl

theorem Changes.seenReport (b g : Nat) (s : State) : Changes s (seenReport b g s).1 := by
  unfold Machine.seenReport
  split
  · exact .refl
  · split
    · refine (Edits.records s [g] Segment.seen fun r => ⟨rfl, rfl, rfl, rfl, fun b h => ?_⟩).changes
      cases ho : r.occupant <;> simp_all [Segment.seen]
    · split
      · exact (Edits.heard s _).changes
      · exact .refl
      · split
        · exact .refl
        · unfold State.seenIntrusion
          split
          · exact (Edits.after (.notify _ _) (Edits.after (.mark _ _ _) (.intrudeLane s _))).changes
          · exact (Edits.after (.notify _ _) (Edits.after (.mark _ _ _) (.setFence s _ _))).changes

theorem Changes.emptyReport (b g : Nat) (s : State) : Changes s (emptyReport b g s).1 := by
  unfold Machine.emptyReport
  split
  · exact .refl
  · split
    · exact (Edits.after (.enterStopping _ _ _) (Edits.after (.notify _ _)
        (Edits.after (.setFence _ _ _) (.survey s _)))).changes
    · split
      · exact (Edits.after (.clear _ _) (.survey s _)).changes
      · split
        · exact (Edits.clear s _).changes
        · exact (Edits.after (.notify _ _) (Edits.after (.setFence _ _ _) (.clear s _))).changes
        · exact .refl

theorem Changes.checkedReport {j : Nat → Nat → State → Judgement} (hj : ∀ b g s, Changes s (j b g s).1) (nb : Bool)
    (r : ReportRecord) (s : State) : Changes s (checkedReport j nb r s).1 := by
  unfold Machine.checkedReport
  split
  · exact .refl
  · split
    · exact hj _ _ s
    · exact .refl

theorem Changes.hearing {j : Nat → Nat → State → Judgement} (hj : ∀ b g s, Changes s (j b g s).1) (b g : Nat) (s : State) :
    Changes s (hearing j b g s).1 := by
  unfold Machine.hearing
  dsimp only
  split
  · exact Changes.after (Edits.heard _ _).changes (hj b g s)
  · exact hj b g s

/-- Every judgement of a report is a row of changes. -/
theorem Changes.carryReport (kind : Option ReportKind) (r : ReportRecord) (s : State) :
    Changes s (carryReport kind r s).1 := by
  unfold Machine.carryReport
  split
  · exact Changes.checkedReport (Changes.hearing Changes.arrivedReport) _ r s
  · exact Changes.checkedReport (Changes.hearing Changes.leftReport) _ r s
  · exact Changes.checkedReport (Changes.hearing Changes.stalledReport) _ r s
  · exact Changes.checkedReport (Changes.hearing Changes.haltedReport) _ r s
  · exact Changes.checkedReport Changes.seenReport _ r s
  · exact Changes.checkedReport Changes.emptyReport _ r s
  · exact .refl

theorem Changes.beside (h : (t.mode, t.segs, t.moves, t.queue, t.tokens, t.admissionCounter, t.lanes, t.crossingAsks)
    = (s.mode, s.segs, s.moves, s.queue, s.tokens, s.admissionCounter, s.lanes, s.crossingAsks)) : Changes s t :=
  (Edits.beside h).changes

theorem Changes.updateReport (s : State) (j : ReportIx) (w : ReportSlot → ReportSlot) : Changes s (s.updateReport j w) :=
  .beside rfl

theorem Changes.updateOrder (s : State) (k : SlotIx) (w : OrderSlot → OrderSlot) : Changes s (s.updateOrder k w) :=
  .beside rfl

theorem Changes.takeReport (s : State) (kind : Option ReportKind) (j : ReportIx) (w : Word) :
    Changes s (s.takeReport (Machine.carryReport kind) j w) := by
  unfold State.takeReport
  dsimp only
  have hjudge : ∀ v : State, Changes v (v.judge (Machine.carryReport kind) j).1 := by
    intro v
    unfold State.judge
    split
    · exact .refl
    · exact .carryReport kind _ v
  have hnote : ∀ (v : State) (a : Acceptance), Changes v (v.noteRejection a) := by
    intro v a
    unfold State.noteRejection
    split
    · exact (Edits.notify v _).changes
    all_goals exact .refl
  exact Changes.after (Edits.announce _ _).changes (Changes.after (hnote _ _) (Changes.after (.updateReport _ _ _)
    (Changes.after (hjudge _) (Changes.after (.updateReport _ _ _) (.updateReport s _ _)))))

/-! ### Orders (chapter 7) -/

theorem Changes.moveOrder {k : SlotIx} {s : State} (o : OrderRecord) (hlive : s.live k = false) :
    Changes s (moveOrder k o s) := by
  unfold Machine.moveOrder
  split
  · exact (Edits.refuse s k _).changes
  · rename_i cls _
    split
    · exact (Edits.refuse s k _).changes
    · split
      · rename_i hroute
        have hlaw : s.RouteLaw (queuedOrder k s.orders[k].lastTag cls o).route := by
          obtain ⟨hmin, hmax, hlen, hrest⟩ := (s.routeOk_iff _ _).1 hroute
          exact (s.routeOk_iff _ _).2 ⟨hlen ▸ hmin, hlen ▸ hmax, rfl, hrest⟩
        cases hfault : s.admissionFault (queuedOrder k s.orders[k].lastTag cls o).bench
            ((queuedOrder k s.orders[k].lastTag cls o).route.headD 0) (decide (s.moves.length < Config.moveTableSize)) with
        | some r =>
          rw [State.placeMove_refused hfault]
          exact (Edits.refuse s k _).changes
        | none =>
          by_cases hroom : s.moves.length < Config.moveTableSize
          · rw [decide_eq_true hroom] at hfault
            rw [State.placeMove_admitted hroom hfault]
            exact (Edits.one (.admission _ (by simp) hfault hlive hroom hlaw)).changes
          · rw [decide_eq_false hroom] at hfault
            rw [State.placeMove_held hroom hfault]
            split
            · rename_i hq
              exact (Edits.one (.enqueue _ hfault hlive (Nat.not_lt.1 hroom) hq hlaw)).changes
            · exact (Edits.refuse s k _).changes
      · exact (Edits.refuse s k _).changes

theorem Edits.unqueue (s : State) (q : List QueuedOrder) (h : q.Sublist s.queue) : Edits none s { s with queue := q } :=
  .one (.unqueue q h)

theorem Changes.cancelOrder (k : SlotIx) (o : OrderRecord) (s : State) : Changes s (cancelOrder k o s) := by
  unfold Machine.cancelOrder
  split
  · dsimp only
    split
    · exact (Edits.after (.applied _ _) (Edits.after (.setVerdict _ _ _) (.unqueue s _ List.filter_sublist))).changes
    · exact (Edits.after (.applied _ _) (.enterStopping s _ _)).changes
    · exact (Edits.refuse s k _).changes
  · exact (Edits.refuse s k _).changes

theorem Edits.fenceOrder (k : SlotIx) (o : OrderRecord) (s : State) : Edits none s (fenceOrder k o s) := by
  unfold Machine.fenceOrder
  split
  · exact Edits.after (.applied _ _) (.setFence s _ _)
  · exact .refuse s k _

theorem Edits.unfenceOrder (k : SlotIx) (o : OrderRecord) (s : State) : Edits none s (unfenceOrder k o s) := by
  unfold Machine.unfenceOrder
  split
  · exact Edits.after (.applied _ _) (.records s _ _ fun _ => ⟨rfl, rfl, rfl, rfl, fun _ => id⟩)
  · exact .refuse s k _

theorem Segment.vouched_recorded (g : Segment) : g.Recorded g.vouched := by
  rw [Segment.vouched_eq]
  split
  · exact ⟨rfl, rfl, rfl, rfl, fun _ h => nomatch h⟩
  · exact ⟨rfl, rfl, rfl, rfl, fun _ h => h⟩

theorem Edits.vouchOrder (k : SlotIx) (o : OrderRecord) (s : State) : Edits none s (vouchOrder k o s) := by
  unfold Machine.vouchOrder
  split
  · split
    · exact .refuse s k _
    · exact Edits.after (.applied _ _) (.records s _ _ Segment.vouched_recorded)
  · exact .refuse s k _

theorem Edits.tokenOrder (k : SlotIx) (o : OrderRecord) (s : State) : Edits none s (tokenOrder k o s) := by
  unfold Machine.tokenOrder
  split
  · exact .refuse s k _
  · rename_i hb0
    split
    · exact .refuse s k _
    · rename_i hheld
      rw [Bool.not_eq_true] at hheld
      split
      · rename_i m hm
        obtain ⟨hb, -, -⟩ := State.moveOfBench_some hm
        exact Edits.after (.trigger _) (Edits.after (.applied _ _)
          (.one (.giveToken m (hb ▸ hheld) (by rw [hb]; exact hm))))
      · rename_i hm
        split
        · rename_i hroom
          exact Edits.after (.applied _ _) (.one (.token _ hb0 hheld hm hroom))
        · exact .refuse s k _

theorem Edits.laneClearOrder (k : SlotIx) (o : OrderRecord) (s : State) : Edits none s (laneClearOrder k o s) := by
  unfold Machine.laneClearOrder
  split
  · dsimp only
    split
    · exact .refuse s k _
    · split
      · exact .refuse s k _
      · exact .refuse s k _
      · exact .refuse s k _
      · exact Edits.after (.applied _ _) (.leaveSettling s _)
      · unfold State.clearFaulted
        dsimp only
        split
        · exact .refuse s k _
        · split
          · exact Edits.after (.applied _ _) (.leaveFault s _)
          · split
            · exact Edits.after (.applied _ _) (.updateLane s _ _ fun hm _ hln =>
                ⟨hln.1, State.startTimer_halted hm _, hln.2.2⟩)
            · exact .refuse s k _
  · exact .refuse s k _

theorem Edits.stopAllOrder (k : SlotIx) (o : OrderRecord) (s : State) : Edits none s (stopAllOrder k o s) := by
  unfold Machine.stopAllOrder
  split
  · exact Edits.after (.applied _ _) (.one .halt)
  all_goals exact .applied s k

theorem Edits.resumePart (s : State) : Edits none s s.resumePart := by
  have hthaw : ∀ (v : State) (l : LaneIx), v.mode = .running → Edits none v (v.thawLane l) := fun v l hv =>
    .updateLane v l _ fun hm => absurd (hv.symm.trans hm) (by decide)
  exact Edits.after (.trigger _) (Edits.after (.askRest _ 3) (Edits.after (.askRest _ 2) (Edits.after (.askRest _ 1)
    (Edits.after (.askRest _ 0) (Edits.after (hthaw _ 3 rfl) (Edits.after (hthaw _ 2 rfl) (Edits.after (hthaw _ 1 rfl)
      (Edits.after (hthaw _ 0 rfl) (.one (.wake _ (fun _ => rfl) fun _ => rfl))))))))))

theorem Edits.resumeOrder (k : SlotIx) (o : OrderRecord) (s : State) : Edits none s (resumeOrder k o s) := by
  unfold Machine.resumeOrder
  split
  · exact Edits.after (.applied _ _) (.resumePart s)
  all_goals exact .applied s k

/-- Every order in a slot that is not live is a row of changes. -/
theorem Changes.carryOrder (kind : Option OrderKind) {k : SlotIx} (o : OrderRecord) {s : State} (hlive : s.live k = false) :
    Changes s (carryOrder kind k o s) := by
  unfold Machine.carryOrder
  split
  · exact .moveOrder o hlive
  · exact .cancelOrder k o s
  · exact (Edits.fenceOrder k o s).changes
  · exact (Edits.unfenceOrder k o s).changes
  · exact (Edits.vouchOrder k o s).changes
  · exact (Edits.tokenOrder k o s).changes
  · exact (Edits.laneClearOrder k o s).changes
  · exact (Edits.stopAllOrder k o s).changes
  · exact (Edits.resumeOrder k o s).changes
  · exact .beside rfl
  · exact (Edits.refuse s k _).changes

theorem Changes.takeOrder (s : State) (kind : Option OrderKind) (k : SlotIx) (w : Word) :
    Changes s (s.takeOrder (Machine.carryOrder kind) k w) := by
  unfold State.takeOrder
  dsimp only
  have htag : Changes s ((s.mergeTag k w).updateOrder k fun o => { o with lastTag := tagOf w }) :=
    Changes.after (.updateOrder _ _ _) (.updateOrder s _ _)
  generalize (s.mergeTag k w).updateOrder k (fun o => { o with lastTag := tagOf w }) = v at htag
  split
  · exact Changes.after (Edits.notify _ _).changes (Changes.after (Edits.notify _ _).changes
      (Changes.after (.updateOrder _ _ _) htag))
  · rename_i hlive
    rw [Bool.not_eq_true] at hlive
    have hcleared : Changes s (v.clearVerdict k) := Changes.after (.updateOrder _ _ _) htag
    split
    · exact Changes.after (Edits.refuse _ _ _).changes hcleared
    · exact Changes.after (Edits.announce _ _).changes (Changes.after (.carryOrder kind _ hlive) hcleared)

/-! ### Transfers and the step -/

theorem Changes.busWrite (s : State) (w : WriteWord) : Changes s (s.busWrite w) := by
  unfold State.busWrite
  split
  · exact .beside rfl
  · exact .refl
  · rw [State.deny_eq]
    exact .beside rfl
  · exact .beside rfl
  · exact .beside rfl
  · exact .beside rfl
  · unfold State.orderTagWrite
    split
    · exact Changes.after (.takeOrder _ _ _ _) (.beside rfl)
    · exact .beside rfl
  · unfold State.reportTagWrite
    split
    · exact Changes.after (.takeReport _ _ _ _) (.beside rfl)
    · exact .beside rfl

theorem Changes.readWord (s : State) (r : ReadWord) : Changes s (s.readWord r) := by
  rw [(s.readWord_readOnly r).only]
  exact .beside rfl

theorem Changes.silenceExpiry (s : State) (k : SlotIx) : Changes s (s.silenceExpiry k) := by
  unfold State.silenceExpiry
  split
  · exact .refl
  · split
    · split
      · exact .endMove s k _ _
      · exact (Edits.enterStopping s k _).changes
    · exact .refl

/-- Every command but a start is a row of changes. -/
theorem exec_changes {c : Instr} (hs : Instr.isStart c = false) (h : exec c s = .next t) : Changes s t := by
  cases hw : Instr.write? c with
  | some w =>
    rw [exec_of_write hw] at h
    injection h with h
    exact h ▸ Changes.busWrite s w
  | none =>
    cases hr : Instr.read? c with
    | some r =>
      rw [exec_of_read hr] at h
      injection h with h
      exact h ▸ Changes.readWord s r
    | none =>
      cases c <;> simp only [Instr.write?, Instr.read?, Instr.isStart, reduceCtorEq] at hw hr hs <;> injection h with h <;>
        subst h
      case silenceExpiry k => exact Changes.after (Edits.announce _ _).changes (.silenceExpiry s k)
      case backoffExpiry k => exact (Edits.after (.announce _ _) (.backoffExpiry s k)).changes
      case offerLapse l => exact (Edits.after (.announce _ _) (.offerLapse s l)).changes
      case entryDeadlineLapse l => exact (Edits.after (.announce _ _) (.entryDeadlineLapse s l)).changes
      case crossingLimitExpiry l => exact (Edits.after (.announce _ _) (.crossingLimitExpiry s l)).changes
      case settleExpiry l => exact (Edits.after (.announce _ _) (.settleExpiry s l)).changes
      case releaseExpiry l => exact (Edits.after (.announce _ _) (.releaseExpiry s l)).changes
      case extensionPass => exact (Edits.startPass s).changes
      case extensionVisit => exact (Edits.after (.announce _ _) (.visit s)).changes
      case offerCheck l => exact (Edits.offerCheck s l).changes

theorem Edits.tick (s : State) :
    Edits none s { s with moves := s.moves.map Move.tick, lanes := s.lanes.map Lane.tick } := by
  have hmoves : Edits none s { s with moves := s.moves.map Move.tick } :=
    .one (.moves _ ⟨fun _ => rfl, fun _ _ hh => ⟨Timer.tick_halted hh.1, Timer.tick_halted hh.2⟩⟩ fun _ => rfl)
  refine Edits.after (.one (.lanes _ fun _ hl l => ?_)) hmoves
  simp only [Fin.getElem_fin, Vector.getElem_map]
  obtain ⟨h1, h2, h3, h4⟩ := hl l
  exact ⟨Timer.tick_halted h1, Timer.tick_halted h2, Timer.tick_halted h3, Timer.tick_halted h4⟩

theorem Changes.clockCycle (s : State) : Changes s s.clockCycle := by
  rw [State.clockCycle_eq]
  split
  · exact .beside rfl
  · exact Changes.after (Edits.tick _).changes (.beside (t := { s with clockCount := 0 }) rfl)

/-- A step is a row of changes, or a start from a state that differs beside the tables alone. -/
theorem step_changes (h : step s = .next t) : Changes s t ∨ ∃ c u, Instr.isStart c = true ∧ exec c u = .next t
    ∧ ∃ p n, u = { s with pending := p, picks := n } := by
  have hexec : ∀ c p n, exec c { s with pending := p, picks := n } = .next t → Changes s t ∨ ∃ c u,
      Instr.isStart c = true ∧ exec c u = .next t ∧ ∃ p n, u = { s with pending := p, picks := n } := by
    intro c p n hc
    cases hs : Instr.isStart c with
    | true => exact .inr ⟨c, _, hs, hc, p, n, rfl⟩
    | false => exact .inl (Changes.after (exec_changes hs hc) (.beside rfl))
  unfold step at h
  split at h
  · rename_i hidle
    by_cases hdue : s.dueSteps = []
    · rw [State.ownStep_of_nothing_due hdue] at h
      injection h with h
      exact .inl (h ▸ .clockCycle s)
    · obtain ⟨d, -, n, hd⟩ := State.ownStep_of_due hdue
      rw [hd] at h
      cases d with
      | command c => exact hexec c s.pending n h
      | request =>
        injection h with h
        exact .inl (h ▸ Changes.after (Edits.after (.announce _ _) (.request _)).changes (.beside rfl))
      | rest l =>
        injection h with h
        exact .inl (h ▸ Changes.after (Edits.makeAsk _ l).changes (.beside rfl))
  · rename_i c rest _
    exact hexec c rest s.picks h

end changes

end Sys2Proof.Machine
end


section
/-!
PROOFS. What the end of a move and the trial of the queue keep (R31, R39), what a start gives (R181 to R183), and with
them the laws that every step keeps: tables (R20, R29, R30), admission numbers (R24), runs (R49) and places (R11).
-/

open Sys2Proof Sys2Proof.Machine

namespace Sys2Proof.Machine

/-! ### The trial of the queue (R31) -/

/-- Heads are refused until one is admitted or none is left: P holds while they are tried, Q at the end. -/
theorem State.tryHeads_induct {P Q : State → Prop}
    (hdrop : ∀ {s : State} {q rest} (r), s.queue = q :: rest → P s → P ({ s with queue := rest }.refuse q.slot r))
    (hadmit : ∀ {s : State} {q rest}, s.queue = q :: rest → P s →
      { s with queue := rest }.admissionFault q.bench (q.route.headD 0) true = none →
        Q ({ s with queue := rest }.admitOrder q))
    (hnil : ∀ {s : State}, s.queue = [] → P s → Q s) :
    ∀ (q : List QueuedOrder) (s : State), s.queue = q → P s → Q (s.tryHeads q)
  | [], s, hq, hs => by
    have hsame : s.tryHeads [] = s := by rw [State.tryHeads, ← hq]
    rw [hsame]
    exact hnil hq hs
  | q :: rest, s, hq, hs => by
    rw [State.tryHeads]
    split
    · rename_i hnone
      exact hadmit hq hs hnone
    · exact State.tryHeads_induct hdrop hadmit hnil rest _ rfl (hdrop _ hq hs)

theorem State.tryQueue_induct {P Q : State → Prop} {s : State} (hs : P s)
    (hdrop : ∀ {s : State} {q rest} (r), s.queue = q :: rest → P s → P ({ s with queue := rest }.refuse q.slot r))
    (hadmit : ∀ {s : State} {q rest}, s.queue = q :: rest → P s →
      { s with queue := rest }.admissionFault q.bench (q.route.headD 0) true = none →
        Q ({ s with queue := rest }.admitOrder q))
    (hnil : ∀ {s : State}, s.queue = [] → P s → Q s) : Q s.tryQueue :=
  State.tryHeads_induct hdrop hadmit hnil s.queue s rfl hs

/-- The slot of the head of the queue is the slot of no other order (R139). -/
theorem State.SlotLaw.head_not_live {s : State} {q : QueuedOrder} {rest : List QueuedOrder} (h : s.SlotLaw)
    (hq : s.queue = q :: rest) : ({ s with queue := rest } : State).live q.slot = false := by
  rw [State.SlotLaw, hq, List.map_cons, List.perm_middle.nodup_iff] at h
  obtain ⟨hfresh, -⟩ := List.nodup_cons.1 h
  simp only [List.mem_append, List.mem_map, not_or, not_exists, not_and] at hfresh
  simpa [State.live, State.move?, State.queued?] using hfresh

/-! ### The slots of the live moves -/

/-- No atomic change removes a move. -/
theorem Edit.slots {x : Option SlotIx} {s t : State} (e : Edit x s t) :
    s.moves.map (·.slot) ⊆ t.moves.map (·.slot) := by
  have hnamed : t.moves.map Move.named = s.moves.map Move.named → s.moves.map (·.slot) ⊆ t.moves.map (·.slot) :=
    fun h => (map_slot_of_named h) ▸ List.Subset.refl _
  cases e with
  | beside t hsame =>
    simp only [Prod.mk.injEq] at hsame
    exact hnamed (congrArg _ hsame.2.2.1)
  | lanes | asks | records | mark | token | enqueue | unqueue => exact List.Subset.refl _
  | moves u hu => exact hnamed (map_named_of_map hu.named)
  | restore k => exact hnamed (s.restore_named k)
  | grant m e u hx hm hh he hfree hu => exact hnamed (State.updateMove_named _ _ hu.named)
  | front m u hm hheld htf hu => exact hnamed (State.updateMove_named _ _ hu.named)
  | tail m => exact hnamed (State.updateMove_named _ _ fun _ => rfl)
  | giveToken m =>
    rw [s.updateMove_map m.slot (u := fun y => { y with token := true }) (·.slot) fun _ => rfl]
    exact List.Subset.refl _
  | admission q =>
    rw [s.admitOrder_map q (·.slot) fun _ _ => rfl]
    exact List.subset_append_left _ _
  | halt =>
    exact hnamed (map_named_of_map fun _ => rfl)
  | wake u hu => exact hnamed (map_named_of_map hu)

theorem Edits.slots {x : Option SlotIx} {s t : State} (h : Edits x s t) : s.moves.map (·.slot) ⊆ t.moves.map (·.slot) :=
  h.keeps (P := fun v => s.moves.map (·.slot) ⊆ v.moves.map (·.slot)) (fun e hs => List.Subset.trans hs e.slots)
    (List.Subset.refl _)

/-- Without the move in a slot, the Move Table is shorter by as many as have the slot. -/
theorem length_without (ms : List Move) (k : SlotIx) :
    (ms.filter fun m => m.slot ≠ k).length + (ms.map (·.slot)).count k = ms.length := by
  rw [List.length_eq_countP_add_countP (fun m : Move => m.slot ≠ k) (l := ms), List.countP_eq_length_filter, List.count,
    List.countP_map]
  congr 1
  refine List.countP_congr fun m _ => ?_
  simp

section ends
variable {s u : State} {m : Move}

/-- The move that ends still has its entry when its lane business is done. -/
theorem ending_slot_mem (hm : s.move? m.slot = some m) (h : Edits (some m.slot) (s.release m.slot (m.span m.t m.h)) u) :
    m.slot ∈ u.moves.map (·.slot) := h.slots (List.mem_map_of_mem (State.move?_some hm).2)

theorem removeMove_length_lt {k : SlotIx} (h : k ∈ u.moves.map (·.slot)) :
    (u.removeMove k).moves.length < u.moves.length := by
  have hcount := length_without u.moves k
  have hpos := List.count_pos_iff.2 h
  show (u.moves.filter fun m => m.slot ≠ k).length < _
  omega

theorem removeMove_length {k : SlotIx} (h : k ∈ u.moves.map (·.slot)) (hslot : u.SlotLaw) :
    (u.removeMove k).moves.length + 1 = u.moves.length := by
  have hcount := length_without u.moves k
  rw [List.count_eq_one_of_mem hslot.moves h] at hcount
  exact hcount

/-! ### The table laws at the end of a move -/

/-- The table laws while the queue is tried: one entry is free. -/
structure State.Trying (s : State) : Prop where
  moves : s.moves.length ≤ 23
  queue : s.queue.length ≤ 6
  full : s.queue ≠ [] → s.moves.length = 23
  bench : s.BenchLaw
  slot : s.SlotLaw
  token : s.TokenLaw

/-- The removal of a move leaves one entry free. -/
theorem State.TableLaw.removeMove {k : SlotIx} (h : u.TableLaw) (hk : k ∈ u.moves.map (·.slot)) :
    (u.removeMove k).Trying := by
  obtain ⟨⟨hlen, hqlen⟩, hbench, hslot, hqueue, htok⟩ := h
  have hcount := removeMove_length hk hslot
  have hsub : (u.removeMove k).moves.Sublist u.moves := List.filter_sublist
  exact
    { moves := by omega
      queue := hqlen
      full := fun hne => by have := hqueue hne; omega
      bench := hbench.sublist ((hsub.map _).append (List.Sublist.refl _))
      slot := hslot.sublist ((hsub.map _).append (List.Sublist.refl _))
      token := ⟨htok.1, htok.2.1, fun y hy => htok.2.2 y (hsub.subset hy)⟩ }

/-- With a head less, the tables stay lawful but for the free entry. -/
theorem State.Trying.drop {q : QueuedOrder} {rest : List QueuedOrder} (h : s.Trying) (hq : s.queue = q :: rest) :
    ({ s with queue := rest } : State).Trying := by
  have hsub : rest.Sublist s.queue := hq ▸ List.sublist_cons_self _ _
  have hne : s.queue ≠ [] := by rw [hq]; simp
  exact
    { moves := h.moves
      queue := hsub.length_le.trans h.queue
      full := fun _ => h.full hne
      bench := h.bench.sublist (List.Sublist.append_left (hsub.map _) _)
      slot := h.slot.unqueue hsub
      token := h.token }

theorem State.Trying.tryQueue (h : s.Trying) : s.tryQueue.TableLaw := by
  refine State.tryQueue_induct (P := State.Trying) h (fun r hq hs => ?_) (fun {v q rest} hq hs hnone => ?_) fun hq hs => ?_
  · obtain ⟨h1, h2, h3, h4, h5, h6⟩ := hs.drop hq
    exact ⟨h1, h2, h3, h4, h5, h6⟩
  · have hdrop := hs.drop hq
    obtain ⟨hbench, hslot, htok⟩ := State.admitOrder_tables hdrop.bench hdrop.slot hdrop.token hnone (hs.slot.head_not_live hq)
    have hne : v.queue ≠ [] := by rw [hq]; simp
    have hlen : ({ v with queue := rest }.admitOrder q).moves.length = 24 :=
      (State.admitOrder_length _ q).trans (congrArg (· + 1) (hs.full hne))
    refine ⟨⟨hlen.le, ?_⟩, hbench, hslot, fun _ => hlen, htok⟩
    rw [State.admitOrder_queue]
    exact hdrop.queue
  · have hlen := hs.moves
    exact ⟨⟨by omega, hs.queue⟩, hs.bench, hs.slot, fun hne => absurd hq hne, hs.token⟩

theorem State.TableLaw.of_change {t : State} (h : s.TableLaw) (c : Change s t) : t.TableLaw := by
  cases c with
  | edit e => exact h.of_edit e
  | @ends u m hm he v n =>
    have hu : u.TableLaw := he.keeps (fun e hs => hs.of_edit e) (h.of_named rfl rfl rfl)
    obtain ⟨h1, h2, h3, h4, h5, h6⟩ := hu.removeMove (ending_slot_mem hm he)
    exact State.Trying.tryQueue ⟨h1, h2, h3, h4, h5, h6⟩

/-! ### The admission numbers at the end of a move -/

theorem State.AdmissionLaw.of_change {t : State} (h : s.moves.length ≤ 24 ∧ s.AdmissionLaw) (c : Change s t) :
    t.moves.length ≤ 24 ∧ t.AdmissionLaw := by
  cases c with
  | edit e => exact h.2.of_edit h.1 e
  | @ends u m hm he v n =>
    obtain ⟨hlen, hnodup, hlt, hmax⟩ := he.keeps (P := fun v => v.moves.length ≤ 24 ∧ v.AdmissionLaw)
      (fun e hs => hs.2.of_edit hs.1 e) h
    have hless : (u.removeMove m.slot).moves.length < u.moves.length := removeMove_length_lt (ending_slot_mem hm he)
    have hsub : (u.removeMove m.slot).moves.Sublist u.moves := List.filter_sublist
    refine State.tryQueue_induct (P := fun v => v.moves.length ≤ 23 ∧ v.AdmissionLaw)
      (Q := fun v => v.moves.length ≤ 24 ∧ v.AdmissionLaw)
      ⟨show (u.removeMove m.slot).moves.length ≤ 23 by omega, hnodup.sublist (hsub.map _),
        fun y hy => hlt y (hsub.subset hy), hmax⟩
      (fun r hq hs => hs) (fun {v q rest} hq hs hnone => ?_) fun hq hs => ⟨hs.1.trans (by decide), hs.2⟩
    have hroom : v.moves.length ≤ 23 := hs.1
    have hnumbers : ({ v with queue := rest } : State).AdmissionLaw := hs.2
    refine ⟨?_, hnumbers.admitOrder (show v.moves.length ≤ 24 by omega) q⟩
    rw [State.admitOrder_length]
    exact Nat.succ_le_succ hroom

/-! ### HALTED mode at the end of a move -/

theorem State.HaltedLaw.of_change {t : State} (h : s.HaltedLaw) (c : Change s t) : t.HaltedLaw := by
  cases c with
  | edit e => exact h.of_edit e
  | @ends u m hm he v n =>
    have hu : u.HaltedLaw := he.keeps (fun e hs => hs.of_edit e) h
    refine State.tryQueue_induct (P := State.HaltedLaw) (fun hmode => ?_) (fun r hq hs => hs)
      (fun {v q rest} hq hs hnone => State.HaltedLaw.admitOrder (s := { v with queue := rest }) hs q) fun hq hs => hs
    obtain ⟨hmoves, hlanes, hasks⟩ := hu hmode
    exact ⟨fun y hy => hmoves y (List.mem_filter.1 hy).1, hlanes, hasks⟩

/-! ### Places at the end of a move -/

theorem State.SegLaw.of_edits {x : Option SlotIx} {t : State} (h : s.SegLaw) (he : Edits x s t) : t.SegLaw :=
  he.keeps (fun e hs => State.SegLaw.of_config hs e.config) h

theorem State.PlaceLaw.of_change {t : State} (h : s.SegLaw ∧ s.PlaceLaw) (c : Change s t) : t.SegLaw ∧ t.PlaceLaw := by
  cases c with
  | edit e => exact ⟨State.SegLaw.of_config h.1 e.config, h.2.of_edit h.1 e⟩
  | @ends u m hm he v n =>
    have hrelease : (s.release m.slot (m.span m.t m.h)).SegLaw ∧ (s.release m.slot (m.span m.t m.h)).PlaceLaw :=
      ⟨State.SegLaw.of_config h.1 (s.release_steady _ _).config, h.2.of_release h.1 rfl⟩
    have hu : u.SegLaw ∧ u.PlaceLaw := he.keeps (P := fun v => v.SegLaw ∧ v.PlaceLaw)
      (fun e hs => ⟨State.SegLaw.of_config hs.1 e.config, hs.2.of_edit hs.1 e⟩) hrelease
    exact State.tryQueue_induct (P := fun v => v.SegLaw ∧ v.PlaceLaw) (Q := fun v => v.SegLaw ∧ v.PlaceLaw)
      (s := ((u.removeMove m.slot).setVerdict m.slot v).notify n) hu (fun r hq hs => hs)
      (fun {v q rest} hq hs hnone => ⟨State.SegLaw.of_config (s := { v with queue := rest }) hs.1 (State.admitOrder_config _ q),
        State.PlaceLaw.admitOrder (s := { v with queue := rest }) hs.1 hs.2 q⟩) fun hq hs => hs

/-! ### Runs at the end of a move -/

/-- The move that ends gives up its holds (R39 step 1). -/
theorem State.RunBut.giveUp (h : s.RunBut none) (hm : s.move? m.slot = some m) :
    (s.release m.slot (m.span m.t m.h)).RunBut (some m.slot) := by
  have hconfig := (s.release_steady m.slot (m.span m.t m.h)).config
  refine ⟨State.SegLaw.of_config h.segs hconfig, h.slots, fun y hy => ?_, fun q hq => (h.queue q hq).of_config hconfig, ?_⟩
  · obtain ⟨hr, hi, hs⟩ := h.runs y hy
    exact ⟨hr.of_config hconfig, hi, hs⟩
  · intro g hg k
    rw [State.release_eq] at hg
    obtain ⟨r, hr, rfl⟩ := List.mem_map.1 hg
    have hold := h.holds r hr k
    have hspan := State.spans_of_move h.slots hm r.id
    have hid : (if r.id ∈ m.span m.t m.h then r.released m.slot else r).id = r.id := by
      split
      · exact r.released_id _
      · rfl
    rw [hid]
    show _ ↔ some m.slot ≠ some k ∧ s.spans k r.id
    split
    · rw [Segment.released_holder, hold]
      simp only [ne_eq, reduceCtorEq, not_false_eq_true, true_and, Option.some.injEq]
      exact ⟨fun ⟨h1, h2⟩ => ⟨fun e => h2 e.symm, h1⟩, fun ⟨h1, h2⟩ => ⟨h2, fun e => h1 e.symm⟩⟩
    · rename_i hin
      rw [hold]
      simp only [ne_eq, reduceCtorEq, not_false_eq_true, true_and, Option.some.injEq]
      exact ⟨fun h1 => ⟨fun e => hin (hspan.1 (e ▸ h1)), h1⟩, And.right⟩

/-- Its entry goes with no hold left (R39 step 5). -/
theorem State.RunBut.removeMove {k : SlotIx} (h : u.RunBut (some k)) : (u.removeMove k).RunBut none := by
  have hsub : (u.removeMove k).moves.Sublist u.moves := List.filter_sublist
  refine ⟨h.segs, h.slots.sublist ((hsub.map _).append (List.Sublist.refl _)), fun y hy => ?_,
    fun q hq => State.RouteLaw.of_config (s := u) (h.queue q hq) rfl, fun g hg j => ?_⟩
  · obtain ⟨hr, hi, hs⟩ := h.runs y (hsub.subset hy)
    exact ⟨State.RouteLaw.of_config (s := u) hr rfl, hi, hs⟩
  rw [h.holds g hg j]
  simp only [ne_eq, reduceCtorEq, not_false_eq_true, true_and, Option.some.injEq]
  constructor
  · rintro ⟨hne, y, hy, rfl, hspan⟩
    exact ⟨y, List.mem_filter.2 ⟨hy, by simpa using fun e => hne e.symm⟩, rfl, hspan⟩
  · rintro ⟨y, hy, rfl, hspan⟩
    obtain ⟨hy, hne⟩ := List.mem_filter.1 hy
    exact ⟨fun e => by simp [e] at hne, y, hy, rfl, hspan⟩

theorem State.RunBut.of_change {t : State} (h : s.RunBut none) (c : Change s t) : t.RunBut none := by
  cases c with
  | edit e => exact h.of_edit e
  | @ends u m hm he v n =>
    have hu : u.RunBut (some m.slot) := he.keeps (fun e hs => hs.of_edit e) (h.giveUp hm)
    have hdrop : ∀ {s : State} {q rest}, s.queue = q :: rest → s.RunBut none →
        ({ s with queue := rest } : State).RunBut none := fun hq hs =>
      hs.of_edit (.unqueue _ (hq ▸ List.sublist_cons_self _ _))
    refine State.tryQueue_induct (P := State.RunBut none)
      (((hu.removeMove).of_edit (.beside _ rfl)).of_edit (.beside _ rfl))
      (fun r hq hs => (hdrop hq hs).of_edit (.beside _ rfl)) (fun {v q rest} hq hs hnone => ?_) fun hq hs => hs
    exact (hdrop hq hs).admitted (by simp) hnone (hs.slots.head_not_live hq)
      (State.RouteLaw.of_config (s := v) (hs.queue q (hq ▸ List.mem_cons_self)) rfl)

end ends

end Sys2Proof.Machine
end


section
/-!
PROOFS. What a load finds and what its end gives (R176, R180, R181, R186).
-/

open Sys2Proof Sys2Proof.Machine

namespace Sys2Proof.Machine

/-! ### The status of a zone (R176) -/

theorem zoneStatus_error_iff {y : Zone} {failed replaced : Bool} :
    zoneStatus (some y) failed replaced = .error ↔ failed = true ∨ y.whole = false := by
  unfold zoneStatus
  dsimp only
  split
  · rename_i h
    simpa using h
  · rename_i h
    split <;> simpa using h

/-- A word that was not read lies beyond the zone's length, or is an uncorrectable one (R186). -/
theorem Zone.not_whole_of_unread {y : Zone} {i : Nat} (hlacks : y.lacks i = false) (h : y.word? i = none) (hi : 1 ≤ i) :
    y.whole = false := by
  have hlen : i - 1 < y.words.length := by simp [Zone.lacks] at hlacks; omega
  rw [Zone.word?, List.getD_eq_getElem _ _ hlen] at h
  rw [Zone.whole, List.all_eq_false]
  exact ⟨_, List.getElem_mem hlen, by simp [h]⟩

theorem Zone.windowWords_pos {y : Zone} {i : Nat} (h : i ∈ y.windowWords) : 1 ≤ i := by
  unfold Zone.windowWords at h
  split at h
  · rw [List.mem_range'_1] at h
    omega
  · simp only [List.mem_cons, List.not_mem_nil, or_false] at h
    omega

/-- Without the words of the windows LAYOUT is in ERROR (R180, R186). -/
theorem Zone.error_of_windows_unread {y : Zone} (h : y.windowsRead = false) : zoneStatus (some y) y.windowsLost false = .error := by
  rw [zoneStatus_error_iff]
  obtain ⟨i, hi, hnone⟩ := List.all_eq_false.1 h
  by_cases hlacks : y.lacks i = true
  · exact .inl (List.any_eq_true.2 ⟨i, hi, hlacks⟩)
  · exact .inr (Zone.not_whole_of_unread (Bool.not_eq_true _ ▸ hlacks) (by simpa using hnone) (Zone.windowWords_pos hi))

/-! ### LAYOUT (R180, R181) -/

theorem LayoutFinding.mode_blocking_iff (f : LayoutFinding) : f.mode = .blocking ↔ f.status = .error ∨ f.code ≠ 0 := by
  unfold LayoutFinding.mode
  split
  · exact ⟨fun _ => ‹_›, fun _ => rfl⟩
  · exact ⟨fun h => (by simp at h), fun h => absurd h ‹_›⟩

theorem LayoutFinding.mode_cases (f : LayoutFinding) : f.mode = .blocking ∨ f.mode = .running := by
  unfold LayoutFinding.mode
  split
  · exact .inl rfl
  · exact .inr rfl

/-- A part that starts RUNNING has a LAYOUT zone that passed the structure checks (R180, R181). -/
theorem judgeLayout_running {z : Option Zone} (h : (judgeLayout z).mode = .running) :
    ∃ y, z = some y ∧ y.structureCheck = 0 := by
  have hok : ¬ ((judgeLayout z).status = .error ∨ (judgeLayout z).code ≠ 0) := fun hbad => by
    rw [(LayoutFinding.mode_blocking_iff _).2 hbad] at h
    cases h
  rw [not_or, not_not] at hok
  obtain ⟨hst, hcode⟩ := hok
  unfold judgeLayout at hst hcode
  cases z with
  | none => exact absurd rfl hst
  | some y =>
    dsimp only at hst hcode
    split at hst
    · rename_i hread
      exact absurd (Zone.error_of_windows_unread (by simpa using hread)) hst
    · rename_i hread
      rw [if_neg hread] at hcode
      split at hst
      · rename_i hcheck
        rw [if_pos hcheck] at hcode
        exact absurd hcode hcheck
      · rename_i hcheck
        rw [if_neg hcheck] at hcode
        split at hst
        · rename_i hbad
          exact absurd hbad hst
        · rename_i hbad
          rw [if_neg hbad] at hcode
          exact ⟨y, rfl, hcode⟩

theorem Zone.idsOk_of_structure {y : Zone} (h : y.structureCheck = 0) : y.entries.idsOk = true := by
  unfold Zone.structureCheck at h
  by_contra hids
  rw [Bool.not_eq_true] at hids
  dsimp only at h
  rw [hids] at h
  split at h <;> simp at h

theorem Windows.check_le (ws : Windows) : ws.check ≤ 3 := by
  unfold Windows.check
  split
  · decide
  · split
    · decide
    · split <;> decide

theorem Zone.structureCheck_le (y : Zone) : y.structureCheck ≤ 11 := by
  unfold Zone.structureCheck
  simp only
  repeat' split
  all_goals decide

theorem judgeLayout_code_le (z : Option Zone) : (judgeLayout z).code ≤ 11 := by
  unfold judgeLayout
  cases z with
  | none => decide
  | some y =>
    have hw := y.windows.check_le
    dsimp only
    split
    · exact Nat.zero_le _
    · split
      · exact hw.trans (by decide)
      · split
        · exact Nat.zero_le _
        · exact y.structureCheck_le

/-! ### The tables of a load (R1, R181) -/

/-- The entries of a load name each segment once, 1 to 192 (R1). -/
theorem LayoutFinding.entries_ids (z : Option Zone) :
    (((judgeLayout z).entries z).segments.map (·.id)).Nodup
      ∧ ∀ x ∈ ((judgeLayout z).entries z).segments, 1 ≤ x.id ∧ x.id ≤ 192 := by
  unfold LayoutFinding.entries
  split
  · split
    · rename_i y hrun
      obtain ⟨y', hy', hcheck⟩ := judgeLayout_running hrun
      injection hy' with hy'
      subst hy'
      have hids := Zone.idsOk_of_structure hcheck
      unfold Entries.idsOk at hids
      rw [Bool.and_eq_true, List.all_eq_true] at hids
      exact ⟨(noRepeats_iff_nodup _).1 hids.2, fun x hx => by simpa using hids.1 x hx⟩
    · exact ⟨List.nodup_nil, fun x hx => absurd hx (List.not_mem_nil)⟩
  · exact ⟨List.nodup_nil, fun x hx => absurd hx (List.not_mem_nil)⟩

theorem LayoutFinding.entries_blocking {f : LayoutFinding} (h : f.mode = .blocking) (z : Option Zone) :
    f.entries z = ⟨[], [], []⟩ := by
  unfold LayoutFinding.entries
  split
  · rw [if_neg (by rw [h]; decide)]
  · rfl

section outcome
variable (code : List CodeWord)

theorem loadOutcome_mode : (loadOutcome code).mode = (judgeLayout (readZones code).layout).mode := rfl

theorem loadOutcome_segs :
    (loadOutcome code).segs = ((judgeLayout (readZones code).layout).entries (readZones code).layout).table := rfl

theorem loadOutcome_lanes :
    (loadOutcome code).lanes = ((judgeLayout (readZones code).layout).entries (readZones code).layout).laneTable := rfl

theorem loadOutcome_segLaw :
    ((loadOutcome code).segs.map (·.id)).Nodup ∧ ∀ g ∈ (loadOutcome code).segs, 1 ≤ g.id ∧ g.id ≤ 192 := by
  obtain ⟨hnodup, hrange⟩ := LayoutFinding.entries_ids (readZones code).layout
  rw [loadOutcome_segs, Entries.table, List.map_map]
  refine ⟨hnodup, fun g hg => ?_⟩
  obtain ⟨x, hx, rfl⟩ := List.mem_map.1 hg
  exact hrange x hx

/-- No segment is surveyed, held or occupied at the end of a load, and its fence is one of the image (R13, R181). -/
theorem loadOutcome_fresh {g : Segment} (hg : g ∈ (loadOutcome code).segs) : g.surveyed = false ∧ g.holder = none
    ∧ g.occupant = none ∧ (g.fence = none ∨ g.fence = some .image) := by
  rw [loadOutcome_segs, Entries.table] at hg
  obtain ⟨x, -, rfl⟩ := List.mem_map.1 hg
  refine ⟨rfl, rfl, rfl, ?_⟩
  unfold Entries.record
  dsimp only
  split
  · exact .inr rfl
  · exact .inl rfl

/-- In BLOCKING mode there is no rail (R181). -/
theorem loadOutcome_blocking (h : (loadOutcome code).mode = .blocking) :
    (loadOutcome code).segs = [] ∧ (loadOutcome code).lanes = Vector.replicate 4 Lane.absent := by
  rw [loadOutcome_segs, loadOutcome_lanes, LayoutFinding.entries_blocking h]
  exact ⟨rfl, by decide⟩

/-- Every lane is fresh at the end of a load (R92). -/
theorem loadOutcome_lane (l : LaneIx) : ∃ d, (loadOutcome code).lanes[l] = Lane.fresh d := by
  rw [loadOutcome_lanes, Entries.laneTable]
  exact ⟨_, by rw [Fin.getElem_fin, Vector.getElem_ofFn]⟩

theorem judgeTiming_error {z : Option Zone} (h : (judgeTiming z).2 = .error) : (judgeTiming z).1 = Timing.default := by
  unfold judgeTiming at h ⊢
  cases z with
  | none => rfl
  | some y =>
    dsimp only at h ⊢
    split
    · rename_i hwhole
      rw [if_pos hwhole, zoneStatus_error_iff, hwhole] at h
      simp at h
    · rfl

end outcome

/-- Settles O49: the outcome is judged zone by zone, and each of its parts by the lemma on that zone. -/
theorem loadEndsInOneChange : Obligations.LoadEndsInOneChange := by
  rintro s code o hmode rfl
  obtain ⟨hnodup, hrange⟩ := loadOutcome_segLaw code
  refine ⟨?_, LayoutFinding.mode_blocking_iff _, LayoutFinding.mode_cases _, fun h => ?_,
    fun g hg => loadOutcome_fresh code hg, hnodup, hrange, judgeLayout_code_le _, judgeTiming_error⟩
  · show Host.Outcome.next (s.imageLoadEnd code) = _
    rw [State.imageLoadEnd, hmode]
    show Host.Outcome.next (s.endLoad (loadOutcome code)) = _
    simp only [State.endLoad, startNotices, decide_eq_true_eq]
    rfl
  · obtain ⟨hsegs, hlanes⟩ := loadOutcome_blocking code h
    refine ⟨hsegs, fun l => ?_⟩
    rw [hlanes]
    simp [Lane.absent, Lane.fresh]

end Sys2Proof.Machine
end


section
/-!
PROOFS. The laws that every step keeps: a step is a row of changes, or a start (R20, R24, R29, R49, R11).
-/

open Sys2Proof Sys2Proof.Machine

namespace Sys2Proof.Machine

/-! ### Starts (R181 to R183) -/

/-- A start that changes the part: a full load begins, a load ends, or the traffic is cleared (R181 to R183). -/
inductive State.Restart (s : State) : State → Prop
  | load : s.Restart s.beginLoad
  | loaded (h : s.mode = .starting) (code : List CodeWord) : s.Restart (s.endLoad (loadOutcome code))
  | warm (h : s.mode = .running ∨ s.mode = .halted) : s.Restart s.warmReset

/-- A start restarts the part or changes nothing. -/
theorem exec_start {c : Instr} {s t : State} (hs : Instr.isStart c = true) (h : exec c s = .next t) : s.Restart t ∨ t = s := by
  cases c <;> simp only [Instr.isStart, Bool.false_eq_true] at hs <;> injection h with h
  case powerOn =>
    subst h
    exact .inl .load
  case lineReset =>
    subst h
    unfold State.lineReset
    split
    · exact .inl (.warm (.inl ‹_›))
    · exact .inl (.warm (.inr ‹_›))
    · exact .inl .load
    · exact .inl .load
  case imageLoadEnd code =>
    subst h
    unfold State.imageLoadEnd
    split
    · exact .inl (.loaded ‹_› code)
    all_goals exact .inr rfl

/-- A step is a row of changes, or a restart after the choice of its command. -/
theorem step_changes_or_restart {s t : State} (h : step s = .next t) :
    Changes s t ∨ ∃ p n, ({ s with pending := p, picks := n } : State).Restart t := by
  rcases step_changes h with hchanges | ⟨c, u, hstart, hexec, p, n, rfl⟩
  · exact .inl hchanges
  · rcases exec_start hstart hexec with hrestart | rfl
    · exact .inr ⟨p, n, hrestart⟩
    · exact .inl (.beside rfl)

section restart
variable {s t : State}

/-- After a restart there is no move, no queued order and no token (R182, R183). -/
theorem State.Restart.empty (h : s.Restart t) :
    t.moves = [] ∧ t.queue = [] ∧ t.tokens = [] ∧ t.admissionCounter = 0 := by
  cases h <;> exact ⟨rfl, rfl, rfl, rfl⟩

theorem Segment.lineReset_config (g : Segment) : g.lineReset.config = g.config := rfl

theorem State.Restart.segLaw (h : s.Restart t) (hs : s.SegLaw) : t.SegLaw := by
  cases h with
  | load => exact ⟨List.nodup_nil, fun g hg => absurd hg List.not_mem_nil⟩
  | loaded _ code => exact loadOutcome_segLaw code
  | warm => exact State.SegLaw.of_config hs (map_config_of_map Segment.lineReset_config)

theorem State.Restart.not_held (h : s.Restart t) : ∀ g ∈ t.segs, g.holder = none := by
  intro g hg
  cases h with
  | load => exact absurd hg List.not_mem_nil
  | loaded _ code =>
    obtain ⟨-, hheld, -⟩ := loadOutcome_fresh code hg
    exact hheld
  | warm =>
    obtain ⟨r, -, rfl⟩ := List.mem_map.1 hg
    rfl

/-- Where no bench is recorded, the place law holds. -/
theorem State.PlaceLaw.of_unoccupied (h : ∀ g ∈ t.segs, g.occupant = none) : t.PlaceLaw := by
  intro b _
  have hnone : t.benchAt b = [] := by
    rw [List.eq_nil_iff_forall_not_mem]
    intro x hx
    obtain ⟨r, hr, hocc, -⟩ := State.mem_benchAt.1 hx
    rw [h r hr] at hocc
    cases hocc
  rw [hnone]
  trivial

theorem State.Restart.placeLaw (h : s.Restart t) (hs : s.SegLaw) (hp : s.PlaceLaw) : t.PlaceLaw := by
  cases h with
  | load => exact State.PlaceLaw.of_unoccupied fun g hg => absurd hg List.not_mem_nil
  | loaded _ code =>
    refine State.PlaceLaw.of_unoccupied fun g hg => ?_
    obtain ⟨-, -, hocc, -⟩ := loadOutcome_fresh code hg
    exact hocc
  | warm => exact hp.of_map hs rfl Segment.lineReset_config fun g b => id

end restart

/-! ### The laws -/

/-- Settles O53: no atomic change, no end of a move and no start breaks the laws of the tables. -/
theorem stepKeepsTheTableLaws : Obligations.StepKeepsTheTableLaws := by
  intro s t hs hstep
  rcases step_changes_or_restart hstep with h | ⟨p, n, h⟩
  · exact h.keeps (fun c hs => hs.of_change c) hs
  · obtain ⟨hmoves, hqueue, htokens, -⟩ := h.empty
    simp [State.TableLaw, State.CapacityLaw, State.BenchLaw, State.SlotLaw, State.QueueLaw, State.TokenLaw, hmoves, hqueue,
      htokens]

/-- Settles O54: at most 24 moves are renumbered, so that the counter never reaches 65536. -/
theorem stepKeepsAdmissionNumbers : Obligations.StepKeepsAdmissionNumbers := by
  intro s t hcap hs hstep
  rcases step_changes_or_restart hstep with h | ⟨p, n, h⟩
  · obtain ⟨-, hlaw⟩ := h.keeps (P := fun v => v.moves.length ≤ 24 ∧ v.AdmissionLaw)
      (fun c hs => State.AdmissionLaw.of_change hs c) ⟨hcap.1, hs⟩
    exact hlaw
  · obtain ⟨hmoves, -, -, hcounter⟩ := h.empty
    simp [State.AdmissionLaw, hmoves, hcounter]

/-- Settles O56: every atomic change keeps the run law but for the holds that an ending move has given up, and its entry
goes before the next move can be admitted. -/
theorem stepKeepsTheRunLaw : Obligations.StepKeepsTheRunLaw := by
  intro s t hs hstep
  rcases step_changes_or_restart hstep with h | ⟨p, n, h⟩
  · exact State.runBut_none.1 (h.keeps (fun c hs => hs.of_change c) (State.runBut_none.2 hs))
  · obtain ⟨hmoves, hqueue, -⟩ := h.empty
    obtain ⟨hsegs, -⟩ := hs
    refine ⟨h.segLaw hsegs, by simp [State.SlotLaw, hmoves, hqueue], by simp [hmoves], by simp [hqueue], fun g hg k => ?_⟩
    simp [h.not_held g hg, State.spans, hmoves]

/-- Settles O57: a mark is the one change that records a bench, and it leaves the bench on the segments linked to it. -/
theorem stepKeepsThePlaceLaw : Obligations.StepKeepsThePlaceLaw := by
  intro s t hsegs hs hstep
  rcases step_changes_or_restart hstep with h | ⟨p, n, h⟩
  · obtain ⟨-, hlaw⟩ := h.keeps (P := fun v => v.SegLaw ∧ v.PlaceLaw) (fun c hs => State.PlaceLaw.of_change hs c)
      ⟨hsegs, hs⟩
    exact hlaw
  · exact h.placeLaw hsegs hs

end Sys2Proof.Machine
end


section
/-!
PROOFS. What the mode decides (R78, R90, R130, R160, R165, R181): without a rail nothing of the rail blocks works, and in
HALTED mode no timer starts.
-/

open Sys2Proof Sys2Proof.Machine

namespace Sys2Proof.Machine

/-! ### A part without a rail (R181, R182) -/

/-- The part is STARTING or BLOCKING, with no rail and nothing to ask for. -/
structure State.Railless (s : State) : Prop where
  mode : s.mode = .starting ∨ s.mode = .blocking
  bare : s.Bare
  asks : s.crossingAsks = Vector.replicate 4 false

/-- What the rail blocks work on. -/
abbrev State.rail (s : State) : Mode × List Segment × List Move × List QueuedOrder × List Nat × Nat × Arbiter × Vector Lane 4
    × Vector Bool 4 := (s.mode, s.segs, s.moves, s.queue, s.tokens, s.admissionCounter, s.arbiter, s.lanes, s.crossingAsks)

section railless
variable {s t : State}

theorem State.Railless.of_rail (h : s.Railless) (hrail : t.rail = s.rail) (hgrid : t.gridlock = s.gridlock ∨ t.gridlock = .empty) :
    t.Railless := by
  simp only [Prod.mk.injEq] at hrail
  obtain ⟨hmode, hsegs, hmoves, hqueue, htokens, hcounter, harbiter, hlanes, hasks⟩ := hrail
  obtain ⟨hm, ⟨bsegs, bmoves, bqueue, btokens, bcounter, barbiter, blanes, bgrid⟩, ha⟩ := h
  refine ⟨hmode ▸ hm, ⟨hsegs.trans bsegs, hmoves.trans bmoves, hqueue.trans bqueue, htokens.trans btokens,
    hcounter.trans bcounter, harbiter.trans barbiter, hlanes.trans blanes, ?_⟩, hasks.trans ha⟩
  rcases hgrid with hgrid | hgrid
  · exact hgrid.trans bgrid
  · exact hgrid

theorem State.Railless.moves (h : s.Railless) : s.moves = [] := h.bare.2.1

theorem State.Railless.pass (h : s.Railless) : s.arbiter.pass = none := by
  obtain ⟨-, -, -, -, -, harbiter, -⟩ := h.bare
  rw [harbiter]
  rfl

theorem State.Railless.lane (h : s.Railless) (l : LaneIx) : s.lanes[l] = Lane.absent := by
  obtain ⟨-, -, -, -, -, -, hlanes, -⟩ := h.bare
  rw [hlanes]
  simp

theorem State.Railless.move_none (h : s.Railless) (k : SlotIx) : s.move? k = none := by
  rw [State.move?, h.moves]
  rfl

theorem State.Railless.not_live (h : s.Railless) (k : SlotIx) : s.live k = false := by
  obtain ⟨-, hmoves, hqueue, -⟩ := h.bare
  rw [State.live, State.move?, State.queued?, hmoves, hqueue]
  rfl

theorem State.Railless.not_running (h : s.Railless) : s.mode ≠ .running := by
  rcases h.mode with hm | hm <;> rw [hm] <;> decide

theorem State.Railless.offerGrant (h : s.Railless) (l : LaneIx) : s.offerGrant l = none := by
  unfold State.offerGrant
  exact if_neg fun hm => h.not_running hm.1

theorem State.Railless.request (h : s.Railless) : s.request = s := by
  rw [State.request, h.pass]

theorem State.Railless.visit (h : s.Railless) : s.visit = s := by
  rw [State.visit, h.request]
  refine State.finishVisit_over s _ ?_
  obtain ⟨-, -, -, -, -, harbiter, -⟩ := h.bare
  rw [State.midVisit, harbiter]
  rfl

theorem State.Railless.startPass (h : s.Railless) : s.startPass = s := by
  unfold State.startPass
  rcases h.mode with hm | hm <;> rw [hm]

/-- A lane that is not configured has no timer that expires. -/
theorem State.Railless.expiries (h : s.Railless) (l : LaneIx) : s.offerLapse l = s ∧ s.entryDeadlineLapse l = s
    ∧ s.crossingLimitExpiry l = s ∧ s.settleExpiry l = s ∧ s.releaseExpiry l = s := by
  have hl := h.lane l
  simp only [State.offerLapse, State.entryDeadlineLapse, State.crossingLimitExpiry, State.settleExpiry,
    State.releaseExpiry, hl]
  exact ⟨rfl, rfl, rfl, rfl, rfl⟩

/-- Without a rail the part's own commands change nothing. -/
theorem State.Railless.exec_own (h : s.Railless) {c : Instr} (hw : Instr.write? c = none) (hr : Instr.read? c = none)
    (hs : Instr.isStart c = false) : exec c s = .next s := by
  have hsame : s.announce s = s := State.announce_of_same_segs rfl
  cases c <;> simp only [Instr.write?, Instr.read?, Instr.isStart, reduceCtorEq] at hw hr hs
  case silenceExpiry k =>
    show Host.Outcome.next (s.announce (s.silenceExpiry k)) = _
    rw [State.silenceExpiry, h.move_none, hsame]
  case backoffExpiry k =>
    show Host.Outcome.next (s.announce (s.backoffExpiry k)) = _
    rw [State.backoffExpiry, h.move_none, hsame]
  case offerLapse l =>
    show Host.Outcome.next (s.announce (s.offerLapse l)) = _
    rw [(h.expiries l).1, hsame]
  case entryDeadlineLapse l =>
    show Host.Outcome.next (s.announce (s.entryDeadlineLapse l)) = _
    rw [(h.expiries l).2.1, hsame]
  case crossingLimitExpiry l =>
    show Host.Outcome.next (s.announce (s.crossingLimitExpiry l)) = _
    rw [(h.expiries l).2.2.1, hsame]
  case settleExpiry l =>
    show Host.Outcome.next (s.announce (s.settleExpiry l)) = _
    rw [(h.expiries l).2.2.2.1, hsame]
  case releaseExpiry l =>
    show Host.Outcome.next (s.announce (s.releaseExpiry l)) = _
    rw [(h.expiries l).2.2.2.2, hsame]
  case extensionPass => exact congrArg Host.Outcome.next h.startPass
  case extensionVisit =>
    show Host.Outcome.next (s.announce s.visit) = _
    rw [h.visit, hsame]
  case offerCheck l =>
    show Host.Outcome.next (s.offerCheck l) = _
    rw [State.offerCheck, h.offerGrant]

/-- In BLOCKING mode an order is refused (R141). -/
theorem State.Railless.takeOrder (h : s.Railless) (hmode : s.mode = .blocking) (carry : SlotIx → OrderRecord → State → State)
    (k : SlotIx) (w : Word) :
    (s.takeOrder carry k w).rail = s.rail ∧ (s.takeOrder carry k w).gridlock = s.gridlock := by
  unfold State.takeOrder
  dsimp only
  obtain ⟨o, ho⟩ : ∃ o, (s.mergeTag k w).updateOrder k (fun o => { o with lastTag := tagOf w }) = { s with orders := o } :=
    ⟨_, rfl⟩
  rw [ho]
  have hlive : ¬ ({ s with orders := o } : State).live k = true := by
    rw [show ({ s with orders := o } : State).live k = s.live k from rfl, h.not_live k]
    decide
  rw [if_neg hlive, if_pos hmode]
  exact ⟨rfl, rfl⟩

/-- In BLOCKING mode a report is rejected (R99 check 1). -/
theorem State.takeReport_blocking (hmode : s.mode = .blocking) (carry : ReportRecord → State → Judgement) (j : ReportIx)
    (w : Word) : (s.takeReport carry j w).rail = s.rail ∧ (s.takeReport carry j w).gridlock = s.gridlock := by
  unfold State.takeReport
  dsimp only
  obtain ⟨o, ho⟩ : ∃ o, (s.mergeReportTag j w).updateReport j (fun r => { r with lastTag := tagOf w })
      = { s with reports := o } := ⟨_, rfl⟩
  rw [ho, State.judge, if_pos hmode]
  dsimp only
  obtain ⟨n, x, hn⟩ : ∃ n x, (({ s with reports := o } : State).updateReport j fun r =>
      { r with acceptance := .rejected .imageFault, judgedTag := tagOf w }).noteRejection (.rejected .imageFault)
        = { s with notices := n, reports := x } := ⟨_, _, rfl⟩
  rw [hn, State.announce_of_same_segs (before := s) (s := { s with notices := n, reports := x }) rfl]
  exact ⟨rfl, rfl⟩

/-- In BLOCKING mode no write changes the rail. -/
theorem State.Railless.busWrite (h : s.Railless) (hmode : s.mode = .blocking) (w : WriteWord) :
    (s.busWrite w).rail = s.rail ∧ (s.busWrite w).gridlock = s.gridlock := by
  unfold State.busWrite
  split
  · exact ⟨rfl, rfl⟩
  · exact ⟨rfl, rfl⟩
  · rw [State.deny_eq]
    exact ⟨rfl, rfl⟩
  · exact ⟨rfl, rfl⟩
  · exact ⟨rfl, rfl⟩
  · exact ⟨rfl, rfl⟩
  · unfold State.orderTagWrite
    split
    · exact (h.of_rail (t := s.storeWord w) rfl (.inl rfl)).takeOrder hmode _ _ _
    · exact ⟨rfl, rfl⟩
  · unfold State.reportTagWrite
    split
    · exact State.takeReport_blocking (s := s.storeWord w) hmode _ _ _
    · exact ⟨rfl, rfl⟩

/-- A read clears the gridlock capture or leaves it (R62). -/
theorem State.serveRead_gridlock (u : State) (r : ReadWord) :
    (u.serveRead r).gridlock = u.gridlock ∨ (u.serveRead r).gridlock = .empty := by
  unfold State.serveRead
  split
  · exact .inl rfl
  · split
    · rw [State.deny_eq]
      exact .inl rfl
    · unfold State.readRegion
      split
      · exact .inl rfl
      · show (u.snapHeader _ r).gridlock = _ ∨ (u.snapHeader _ r).gridlock = _
        unfold State.snapHeader
        split
        · exact .inl rfl
        · unfold State.clearRead
          split
          · exact .inl rfl
          · dsimp only
            split
            · exact .inr rfl
            · exact .inl rfl
      · show (u.snapOrder _).gridlock = _ ∨ _
        unfold State.snapOrder
        split <;> exact .inl rfl
      · exact .inl rfl
      · show (u.snapReport _).gridlock = _ ∨ _
        unfold State.snapReport
        split <;> exact .inl rfl

theorem State.Railless.readWord (h : s.Railless) (r : ReadWord) : (s.readWord r).Railless := by
  refine h.of_rail ?_ ?_
  · rw [(s.readWord_readOnly r).only]
  · have hfrom := (s.servedFrom r).serveRead_gridlock r
    rw [State.readWord_eq]
    rwa [show (s.servedFrom r).gridlock = s.gridlock by rw [State.servedFrom_eq]] at hfrom

/-- In BLOCKING mode every command but a start leaves the part without a rail. -/
theorem State.Railless.exec_blocking (h : s.Railless) (hmode : s.mode = .blocking) {c : Instr}
    (hs : Instr.isStart c = false) (hstep : exec c s = .next t) : t.Railless ∧ t.mode = .blocking := by
  cases hw : Instr.write? c with
  | some w =>
    rw [exec_of_write hw] at hstep
    injection hstep with hstep
    subst hstep
    obtain ⟨hrail, hgrid⟩ := h.busWrite hmode w
    exact ⟨h.of_rail hrail (.inl hgrid), (congrArg Prod.fst hrail).trans hmode⟩
  | none =>
    cases hr : Instr.read? c with
    | some r =>
      rw [exec_of_read hr] at hstep
      injection hstep with hstep
      subst hstep
      refine ⟨h.readWord r, ?_⟩
      rw [(s.readWord_readOnly r).only]
      exact hmode
    | none =>
      rw [h.exec_own hw hr hs] at hstep
      injection hstep with hstep
      exact hstep ▸ ⟨h, hmode⟩

/-- While STARTING the bus is passed through, and nothing else is done (R160). -/
theorem State.Railless.exec_starting (h : s.Railless) (hmode : s.mode = .starting) (hlaw : s.StartingLaw) {c : Instr}
    (hs : Instr.isStart c = false) (hstep : exec c s = .next t) : t.Railless ∧ t.StartingLaw := by
  have hwindows := (hlaw hmode).1
  cases hw : Instr.write? c with
  | some w =>
    rw [exec_of_write hw, State.busWrite_of_passes (by rw [State.writeCase, hwindows]), State.storeWord_eq] at hstep
    injection hstep with hstep
    subst hstep
    exact ⟨h.of_rail rfl (.inl rfl), hlaw⟩
  | none =>
    cases hr : Instr.read? c with
    | some r =>
      rw [exec_of_read hr] at hstep
      injection hstep with hstep
      subst hstep
      refine ⟨h.readWord r, ?_⟩
      have hplain : s.readsPlain r := by rw [State.readsPlain, hwindows]; trivial
      have hlatch : (s.readWord r).latch = .empty := by
        obtain ⟨-, -, -, -, -, -, -, hempty⟩ := hlaw hmode
        rw [State.readWord_eq, State.serveRead_plain (by rw [State.servedFrom_eq]; exact hplain), State.servedFrom_eq]
        dsimp only
        split
        · rfl
        · split
          · rfl
          · exact hempty
      rw [State.readWord_plain hplain, hlatch]
      intro _
      obtain ⟨h1, h2, h3, h4, h5, h6, h7, -⟩ := hlaw hmode
      exact ⟨h1, h2, h3, h4, h5, h6, h7, rfl⟩
    | none =>
      rw [h.exec_own hw hr hs] at hstep
      injection hstep with hstep
      exact hstep ▸ ⟨h, hlaw⟩

/-! ### The part's own steps without a rail -/

theorem State.Railless.dueSteps (h : s.Railless) : s.dueSteps = [] := by
  have hlane : ∀ l, s.laneDueSteps l = [] := by
    intro l
    have hoffer := h.offerGrant l
    simp only [State.laneDueSteps, h.lane l, hoffer]
    rfl
  have hrest : ∀ l, s.restDueSteps l = [] := by
    intro l
    rw [State.restDueSteps, h.asks, if_neg (by simp)]
  have harb : s.arbiterDueSteps = [] := by
    obtain ⟨-, -, -, -, -, harbiter, -⟩ := h.bare
    rw [State.arbiterDueSteps, harbiter]
    rfl
  simp only [State.dueSteps, h.moves, hlane, hrest, harb, List.flatMap_nil, List.append_nil, List.map_nil]

/-- With nothing that runs, a cycle of the clock changes its count alone. -/
theorem State.Railless.clockCycle (h : s.Railless) : ∃ n, s.clockCycle = { s with clockCount := n } := by
  rw [State.clockCycle_eq]
  split
  · exact ⟨_, rfl⟩
  · obtain ⟨-, hmoves, -, -, -, -, hlanes, -⟩ := h.bare
    have htick : (Vector.replicate 4 Lane.absent).map Lane.tick = Vector.replicate 4 Lane.absent := by
      rw [Vector.map_replicate]
      rfl
    have hm : s.moves.map Move.tick = s.moves := by rw [hmoves]; rfl
    have hl : s.lanes.map Lane.tick = s.lanes := by rw [hlanes, htick]
    exact ⟨0, by rw [hm, hl]⟩

/-! ### The mode laws -/

theorem State.ModeLaw.railless (h : s.ModeLaw) (hmode : s.mode = .starting ∨ s.mode = .blocking) : s.Railless := by
  obtain ⟨-, hbare, -, hasks⟩ := h
  exact ⟨hmode, hbare hmode, hasks (by rcases hmode with hm | hm <;> rw [hm] <;> decide)⟩

theorem State.Railless.modeLaw (h : s.Railless) (hstart : s.StartingLaw) : s.ModeLaw := by
  refine ⟨hstart, fun _ => h.bare, fun _ => ⟨fun m hm => ?_, fun l => ?_⟩, fun _ => h.asks⟩
  · rw [h.moves] at hm
    exact absurd hm List.not_mem_nil
  · rw [h.lane l]
    exact ⟨rfl, rfl, rfl, rfl⟩

theorem State.StartingLaw.of_not (h : s.mode ≠ .starting) : s.StartingLaw := fun hm => absurd hm h

theorem State.ModeLaw.haltedLaw (h : s.ModeLaw) : s.HaltedLaw := by
  obtain ⟨-, -, htimer, hasks⟩ := h
  intro hm
  have hne : s.mode ≠ .running := by rw [hm]; decide
  obtain ⟨hmoves, hlanes⟩ := htimer hne
  exact ⟨hmoves, hlanes, hasks hne⟩

theorem State.Works.modeLaw (hw : s.Works) (h : s.HaltedLaw) : s.ModeLaw := by
  have hhalt : s.mode ≠ .running → s.mode = .halted := hw.resolve_left
  refine ⟨.of_not (by rcases hw with hm | hm <;> rw [hm] <;> decide), fun hm => ?_, fun hm => ?_, fun hm => ?_⟩
  · rcases hw with hw | hw <;> rcases hm with hm | hm <;> exact absurd (hw.symm.trans hm) (by decide)
  · obtain ⟨hmoves, hlanes, -⟩ := h (hhalt hm)
    exact ⟨hmoves, hlanes⟩
  · obtain ⟨-, -, hasks⟩ := h (hhalt hm)
    exact hasks

theorem State.Works.of_mode (h : s.Works) (hm : t.mode = s.mode) : t.Works := by rwa [State.Works, hm]

theorem State.Works.of_edit {x : Option SlotIx} (h : s.Works) (e : Edit x s t) : t.Works := by
  cases e with
  | beside t hsame => exact h.of_mode (congrArg Prod.fst hsame)
  | lanes | asks | records | mark | moves | grant | front | tail | token | giveToken | enqueue | unqueue => exact h
  | restore k => exact h.of_mode (s.restore_steady k).mode
  | admission q => exact h.of_mode (s.admitOrder_beside q).1
  | halt => exact .inr rfl
  | wake => exact .inl rfl

theorem State.Works.of_change (h : s.Works) (c : Change s t) : t.Works := by
  cases c with
  | edit e => exact State.Works.of_edit h e
  | @ends u m hm he v n =>
    have hu : u.Works := he.keeps (fun e hs => State.Works.of_edit hs e) h
    exact State.tryQueue_induct (P := State.Works) hu (fun r hq hs => hs)
      (fun {v q rest} hq hs hnone => State.Works.of_mode hs (State.admitOrder_beside { v with queue := rest } q).1)
      fun hq hs => hs

theorem State.Restart.modeLaw (h : s.Restart t) : t.ModeLaw := by
  have hreset : s.beginLoad.Railless := ⟨.inl rfl, ⟨rfl, rfl, rfl, rfl, rfl, rfl, rfl, rfl⟩, rfl⟩
  cases h with
  | load => exact hreset.modeLaw fun _ => ⟨rfl, rfl, rfl, rfl, rfl, rfl, rfl, rfl⟩
  | loaded _ code =>
    rcases LayoutFinding.mode_cases (judgeLayout (readZones code).layout) with hm | hm
    · obtain ⟨hsegs, hlanes⟩ := loadOutcome_blocking code hm
      have hbare : (s.endLoad (loadOutcome code)).Railless :=
        ⟨.inr hm, ⟨hsegs, rfl, rfl, rfl, rfl, rfl, hlanes, rfl⟩, rfl⟩
      exact hbare.modeLaw (.of_not (by rw [show (s.endLoad (loadOutcome code)).mode = _ from hm]; decide))
    · refine State.Works.modeLaw (.inl hm) fun hhalt => ?_
      exact absurd (hm.symm.trans hhalt) (by decide)
  | warm => exact State.Works.modeLaw (.inl rfl) fun hhalt => absurd hhalt (by simp [State.warmReset])

/-- A step of a part without a rail that is not a restart (R160). -/
theorem State.Railless.step (h : s.Railless) (hstart : s.StartingLaw) (hstep : step s = .next t) :
    t.ModeLaw := by
  have hcommand : ∀ c (u : State), u.Railless → u.StartingLaw → exec c u = .next t → t.ModeLaw := by
    intro c u hu hlaw hexec
    cases hs : Instr.isStart c with
    | true =>
      rcases exec_start hs hexec with hrestart | rfl
      · exact hrestart.modeLaw
      · exact hu.modeLaw hlaw
    | false =>
      rcases hu.mode with hm | hm
      · obtain ⟨ht, hlaw'⟩ := hu.exec_starting hm hlaw hs hexec
        exact ht.modeLaw hlaw'
      · obtain ⟨ht, hm'⟩ := hu.exec_blocking hm hs hexec
        exact ht.modeLaw (.of_not (by rw [hm']; decide))
  unfold Machine.step at hstep
  split at hstep
  · rw [State.ownStep_of_nothing_due h.dueSteps] at hstep
    injection hstep with hstep
    obtain ⟨n, hn⟩ := h.clockCycle
    rw [hn] at hstep
    subst hstep
    exact State.Railless.modeLaw (h.of_rail rfl (.inl rfl)) hstart
  · rename_i c rest _
    exact hcommand c { s with pending := rest } (State.Railless.of_rail h rfl (.inl rfl)) hstart hstep

end railless

/-- Settles O55: without a rail no block works; with one, the part is RUNNING or HALTED until it restarts, and in HALTED
mode no change starts a timer or asks for the rest of a crossing. -/
theorem stepKeepsTheModeLaws : Obligations.StepKeepsTheModeLaws := by
  intro s t hs hstep
  by_cases hwork : s.Works
  · rcases step_changes_or_restart hstep with h | ⟨p, n, h⟩
    · obtain ⟨hw, hh⟩ := h.keeps (P := fun v => v.Works ∧ v.HaltedLaw)
        (fun c hs => ⟨State.Works.of_change hs.1 c, hs.2.of_change c⟩) ⟨hwork, hs.haltedLaw⟩
      exact State.Works.modeLaw hw hh
    · exact h.modeLaw
  · refine (hs.railless ?_).step hs.1 hstep
    rw [not_or] at hwork
    cases hm : s.mode
    · exact .inl rfl
    · exact absurd hm hwork.1
    · exact absurd hm hwork.2
    · exact .inr rfl

end Sys2Proof.Machine
end


section
/-!
PROOFS. The code of the image words (R185): the syndrome and the overall parity are linear in the code word, and the
positions of the forty bits differ.
-/

open Sys2Proof Sys2Proof.Machine

namespace Sys2Proof.Machine

/-! ### Exclusive sums over the bits of a code word -/

/-- The exclusive or of v over the bits below n of a code word that are one. -/
def bitSum (v : Nat → Nat) (c : CodeWord) : Nat → Nat
  | 0 => 0
  | n + 1 => bitSum v c n ^^^ (if c.getLsbD n then v n else 0)

theorem bitSum_xor (v : Nat → Nat) (c d : CodeWord) : ∀ n, bitSum v (c ^^^ d) n = bitSum v c n ^^^ bitSum v d n
  | 0 => (Nat.xor_self 0).symm
  | n + 1 => by
    have hbit : (if (c ^^^ d).getLsbD n then v n else 0)
        = (if c.getLsbD n then v n else 0) ^^^ (if d.getLsbD n then v n else 0) := by
      rw [BitVec.getLsbD_xor]
      cases c.getLsbD n <;> cases d.getLsbD n <;> simp
    rw [bitSum, bitSum, bitSum, bitSum_xor v c d n, hbit]
    ac_rfl

/-- A code word with one bit that is one. -/
theorem bitSum_twoPow (v : Nat → Nat) {i : Nat} (hi : i < 40) :
    ∀ n, bitSum v (BitVec.twoPow 40 i) n = if i < n then v i else 0
  | 0 => rfl
  | n + 1 => by
    rw [bitSum, bitSum_twoPow v hi n, BitVec.getLsbD_twoPow]
    rcases Nat.lt_trichotomy i n with h | rfl | h
    · simp [h, Nat.lt_succ_of_lt h, h.ne]
    · simp [hi]
    · simp [Nat.not_lt.2 h.le, h.ne', Nat.not_lt.2 (Nat.succ_le_of_lt h)]

theorem ones_foldl (v : Nat → Nat) (c : CodeWord) :
    ∀ n, ((List.range n).filter fun b => c.getLsbD b).foldl (fun x b => x ^^^ v b) 0 = bitSum v c n
  | 0 => rfl
  | n + 1 => by
    rw [List.range_succ, List.filter_append, List.foldl_append, ones_foldl v c n, bitSum]
    cases h : c.getLsbD n <;> simp [h]

theorem ones_parity (c : CodeWord) :
    ∀ n, ((List.range n).filter fun b => c.getLsbD b).length % 2 = bitSum (fun _ => 1) c n
  | 0 => rfl
  | n + 1 => by
    rw [List.range_succ, List.filter_append, List.length_append, bitSum, ← ones_parity c n]
    cases h : c.getLsbD n
    · simp [h]
    · rw [List.filter_singleton, h, cond_true, if_pos rfl, List.length_singleton]
      rcases Nat.mod_two_eq_zero_or_one ((List.range n).filter fun b => c.getLsbD b).length with h0 | h0 <;>
        rw [Nat.add_mod, h0] <;> rfl

theorem syndrome_eq (c : CodeWord) : syndrome c = bitSum codePosition c 40 := ones_foldl codePosition c 40

theorem oddParity_eq (c : CodeWord) : oddParity c = decide (bitSum (fun _ => 1) c 40 = 1) := by
  rw [← ones_parity c 40]
  rfl

/-- One bit in error adds its position to the syndrome (R185). -/
theorem syndrome_flip (c : CodeWord) {i : Nat} (hi : i < 40) :
    syndrome (c ^^^ BitVec.twoPow 40 i) = syndrome c ^^^ codePosition i := by
  rw [syndrome_eq, syndrome_eq, bitSum_xor, bitSum_twoPow _ hi, if_pos hi]

/-- One bit in error turns the overall parity over (R185). -/
theorem oddParity_flip (c : CodeWord) {i : Nat} (hi : i < 40) :
    oddParity (c ^^^ BitVec.twoPow 40 i) = !oddParity c := by
  have hpar := ones_parity c 40
  rw [oddParity_eq, oddParity_eq, bitSum_xor, bitSum_twoPow _ hi, if_pos hi, ← hpar]
  rcases Nat.mod_two_eq_zero_or_one ((List.range 40).filter fun b => c.getLsbD b).length with h0 | h0 <;> rw [h0] <;> rfl

/-! ### The positions of the bits (R185) -/

theorem codePosition_le : ∀ i < 40, codePosition i ≤ 39 := by decide

theorem codePosition_inj : ∀ i < 40, ∀ j < 40, codePosition i = codePosition j → i = j := by decide

theorem codePosition_eq_zero : ∀ i < 40, codePosition i = 0 → i = 38 := by decide

theorem codePosition_data : ∀ i < 32, codePosition i ∈ dataPositions ∧ dataPositions.idxOf (codePosition i) = i := by
  decide

theorem codePosition_check : ∀ i < 40, 32 ≤ i → codePosition i ∉ dataPositions := by decide

theorem imageWord_flip (c : CodeWord) (i : Nat) :
    imageWord (c ^^^ BitVec.twoPow 40 i) = imageWord c ^^^ BitVec.setWidth 32 (BitVec.twoPow 40 i) :=
  BitVec.setWidth_xor

theorem setWidth_twoPow {i : Nat} (hi : i < 32) : BitVec.setWidth 32 (BitVec.twoPow 40 i) = BitVec.twoPow 32 i := by
  ext j hj
  simp only [BitVec.getElem_setWidth, BitVec.getLsbD_twoPow, BitVec.getElem_twoPow]
  have : i < 40 := by omega
  simp [this, eq_comm]

theorem setWidth_twoPow_check {i : Nat} (hi : 32 ≤ i) : BitVec.setWidth 32 (BitVec.twoPow 40 i) = 0#32 := by
  ext j hj
  have : i ≠ j := by omega
  simp [BitVec.getLsbD_twoPow, this]

/-- A check bit in error leaves the image word as it is. -/
theorem imageWord_flip_check (c : CodeWord) {i : Nat} (hi : 32 ≤ i) : imageWord (c ^^^ BitVec.twoPow 40 i) = imageWord c := by
  rw [imageWord_flip, setWidth_twoPow_check hi, BitVec.xor_zero]

/-- The syndrome of one bit in error corrects the image word (R185). -/
theorem correctedWord_flip (c : CodeWord) {i : Nat} (hi : i < 40) :
    correctedWord (c ^^^ BitVec.twoPow 40 i) (codePosition i) = imageWord c := by
  unfold correctedWord
  by_cases hdata : i < 32
  · obtain ⟨hmem, hidx⟩ := codePosition_data i hdata
    rw [if_pos hmem, hidx, imageWord_flip, setWidth_twoPow hdata, BitVec.xor_assoc, BitVec.xor_self, BitVec.xor_zero]
  · rw [if_neg (codePosition_check i hi (Nat.not_lt.1 hdata)), imageWord_flip_check c (Nat.not_lt.1 hdata)]

theorem judgeCode_clean {c : CodeWord} {w : Word} (h : judgeCode c = .clean w) :
    oddParity c = false ∧ syndrome c = 0 ∧ imageWord c = w := by
  unfold judgeCode at h
  split at h
  · split at h
    · cases h
    · split at h <;> cases h
  · rename_i hodd
    split at h
    · rename_i hsyn
      exact ⟨by simpa using hodd, hsyn, by injection h⟩
    · cases h

/-- Settles O50: one error makes the parity odd and the syndrome the position of its bit; two leave the parity even and
make the syndrome the exclusive or of two positions, which differ. -/
theorem codeCorrectsOneDetectsTwo : Obligations.CodeCorrectsOneDetectsTwo := by
  intro c w hclean
  obtain ⟨hodd, hsyn, rfl⟩ := judgeCode_clean hclean
  refine ⟨fun i hi => ?_, fun i j hi hj hne => ?_⟩
  · have hsyn' : syndrome (c ^^^ BitVec.twoPow 40 i) = codePosition i := by rw [syndrome_flip c hi, hsyn, Nat.zero_xor]
    unfold judgeCode
    rw [oddParity_flip c hi, hodd, hsyn', if_pos (by decide)]
    split
    · rename_i h0
      rw [codePosition_eq_zero i hi h0, imageWord_flip_check c (by decide)]
    · rw [if_pos (codePosition_le i hi), correctedWord_flip c hi]
  · have hsyn' : syndrome (c ^^^ BitVec.twoPow 40 i ^^^ BitVec.twoPow 40 j) = codePosition i ^^^ codePosition j := by
      rw [syndrome_flip _ hj, syndrome_flip c hi, hsyn, Nat.zero_xor]
    have hdiff : codePosition i ^^^ codePosition j ≠ 0 := fun h0 =>
      hne (codePosition_inj i hi j hj (Nat.xor_eq_zero_iff.1 h0))
    unfold judgeCode
    rw [oddParity_flip _ hj, oddParity_flip c hi, hodd, hsyn', if_neg (by decide), if_neg hdiff]

end Sys2Proof.Machine
end


section
/-!
PROOFS. The laws right after power-on: there is no move, no order, no segment and no record of a lane.
-/

open Sys2Proof Sys2Proof.Machine

namespace Sys2Proof.Machine

/-- At power-on no lane has a list, a record or a timer that runs. -/
theorem reset_lane_fields (l : LaneIx) : State.reset.lanes[l].crossing = none ∧ State.reset.lanes[l].releaseTimer = .stopped
    ∧ ∀ b : BerthIx, State.reset.lanes[l].lists[b] = [] := by
  rw [State.reset_lane]
  exact ⟨rfl, rfl, fun b => by simp [Lane.fresh]⟩

theorem reset_waiting : State.reset.waiting = [] := by decide

theorem reset_laneLaw : State.reset.LaneLaw := by
  refine ⟨⟨by rw [reset_waiting]; exact List.nodup_nil, fun k => ?_⟩, fun l b k hk => ?_, fun l => ?_, fun l c hc => ?_,
    fun m hm => absurd hm List.not_mem_nil, fun g hg => absurd hg List.not_mem_nil, ?_⟩
  · rw [reset_waiting]
    exact ⟨fun h => absurd h List.not_mem_nil, fun ⟨m, hm, _⟩ => absurd hm List.not_mem_nil⟩
  · rw [(reset_lane_fields l).2.2 b] at hk
    exact absurd hk List.not_mem_nil
  · obtain ⟨hnone, hstopped, -⟩ := reset_lane_fields l
    refine ⟨fun _ => hstopped, fun c hc => ?_⟩
    rw [hnone] at hc
    exact absurd hc (by simp)
  · rw [(reset_lane_fields l).1] at hc
    exact absurd hc (by simp)
  · exact ⟨fun m hm => absurd hm List.not_mem_nil, fun q hq => absurd hq List.not_mem_nil,
      fun m hm => absurd hm List.not_mem_nil⟩

theorem reset_arbiterLaw : State.reset.ArbiterLaw :=
  ⟨fun m hm => absurd hm List.not_mem_nil, fun m hm => absurd hm List.not_mem_nil, fun c hc => absurd hc (by simp [State.reset, Arbiter.idle]),
    fun p hp => absurd hp (by simp [State.reset, Arbiter.idle]), fun h => absurd h (by decide), fun h => absurd h (by decide)⟩

theorem reset_runLaw : State.reset.RunLaw :=
  ⟨⟨List.nodup_nil, fun g hg => absurd hg List.not_mem_nil⟩, List.nodup_nil, fun m hm => absurd hm List.not_mem_nil,
    fun q hq => absurd hq List.not_mem_nil, fun g hg => absurd hg List.not_mem_nil⟩

/-- Settles O51: the tables are empty, so that each law speaks of nothing. -/
theorem lawsHoldAtReset : Obligations.LawsHoldAtReset := by
  have hload : State.reset.Restart State.reset := State.Restart.load (s := State.reset)
  refine ⟨rfl, ?_, ⟨List.nodup_nil, fun m hm => absurd hm List.not_mem_nil, by decide⟩, hload.modeLaw, reset_runLaw,
    reset_runLaw.1, State.PlaceLaw.of_unoccupied fun g hg => absurd hg List.not_mem_nil, reset_laneLaw, reset_arbiterLaw,
    reset_runLaw.goLaw⟩
  exact ⟨⟨Nat.zero_le _, Nat.zero_le _⟩, List.nodup_nil, List.nodup_nil, fun h => absurd rfl h, Nat.zero_le _,
    List.nodup_nil, fun m hm => absurd hm List.not_mem_nil⟩

end Sys2Proof.Machine
end


section
/-!
PROOFS. The begin of a pass (R41, R42), and the requests of the Lane Controllers: the offer check and the request for the
rest of a resumed crossing (R70, R71, R78).
-/

open Sys2Proof Sys2Proof.Machine

namespace Sys2Proof.Machine

/-! ### Priority order (R42) -/

theorem Move.before_asymm {a b : Move} (h : a.before b = true) : b.before a = false := by
  rw [Move.before_iff] at h
  rw [← Bool.not_eq_true, Move.before_iff]
  omega

/-- Not to come before is transitive. -/
theorem Move.not_before_trans {a b c : Move} (hab : b.before a = false) (hbc : c.before b = false) : c.before a = false := by
  rw [← Bool.not_eq_true, Move.before_iff] at *
  omega

theorem insertByPriority_sorted (m : Move) :
    ∀ l : List Move, l.Pairwise (fun a b => b.before a = false) →
      (insertByPriority m l).Pairwise (fun a b => b.before a = false)
  | [], _ => List.pairwise_singleton _ _
  | x :: rest, h => by
    obtain ⟨hx, hrest⟩ := List.pairwise_cons.1 h
    unfold insertByPriority
    split
    · rename_i hbefore
      refine List.pairwise_cons.2 ⟨fun y hy => ?_, insertByPriority_sorted m rest hrest⟩
      rcases List.mem_cons.1 ((insertByPriority_perm m rest).subset hy) with rfl | hy
      · exact Move.before_asymm hbefore
      · exact hx y hy
    · rename_i hbefore
      rw [Bool.not_eq_true] at hbefore
      refine List.pairwise_cons.2 ⟨fun y hy => ?_, h⟩
      rcases List.mem_cons.1 hy with rfl | hy
      · exact hbefore
      · exact Move.not_before_trans hbefore (hx y hy)

/-- The list of a pass is in priority order (R42). -/
theorem byPriority_sorted : ∀ l : List Move, (byPriority l).Pairwise (fun a b => b.before a = false)
  | [] => List.Pairwise.nil
  | m :: rest => insertByPriority_sorted m _ (byPriority_sorted rest)

/-- Settles O43: the turns are a permutation of the eligible moves, each inserted where the order has its place. -/
theorem extensionPassListsByPriority : Obligations.ExtensionPassListsByPriority := by
  intro s
  refine ⟨fun hmode hpass hsome => ?_, fun hmode hpass => ?_, fun hmode => ?_⟩
  · refine ⟨byPriority (s.moves.filter (·.eligible)), byPriority_perm _, byPriority_sorted _, ?_⟩
    have hany : s.moves.any (·.eligible) = true := List.any_eq_true.2 hsome
    have hbegin : s.startPass = s.beginPass := by
      rw [State.startPass, hmode, hpass]
      exact if_pos hany
    show Host.Outcome.next s.startPass = _
    rw [hbegin]
    rfl
  · have hfurther : s.startPass = { s with arbiter := { s.arbiter with further := true } } := by
      unfold State.startPass
      split
      · split
        · rfl
        · exact absurd ‹_› hpass
      all_goals exact absurd (hmode.symm.trans ‹_›) (by decide)
    exact congrArg Host.Outcome.next hfurther
  · show Host.Outcome.next s.startPass = _
    rw [State.startPass, hmode]

/-! ### The requests of the lanes (R70, R71, R78) -/

section requests
variable {s : State} {l : LaneIx} {k : SlotIx} {m : Move}

theorem State.startTimer_running (hmode : s.mode = .running) (n : Nat) : s.startTimer n = .running n := by
  rw [State.startTimer, hmode]
  rfl

/-- The offer check names the head move of the berth that is offered. -/
theorem State.offerGrant_eq (hmode : s.mode = .running) (hstate : s.lanes[l].state = .offering)
    (hhead : s.lanes[l].head? = some k) (hm : s.move? k = some m) : s.offerGrant l =
      if s.grantableTo m (s.exitBeyond m) then some (m, s.exitBeyond m) else none := by
  rw [State.offerGrant, if_pos ⟨hmode, hstate⟩, hhead]
  dsimp only
  rw [hm]

/-- The waiting request of a resumed crossing (R78). -/
theorem State.awaitsRest_eq (hmode : s.mode = .running)
    (hlane : s.lanes[l].state = .crossing ∨ (s.lanes[l].state = .faulted ∧ s.lanes[l].cause = some .crossingLimit))
    (hrec : s.lanes[l].crossing = some ⟨k, true⟩) (hm : s.move? k = some m) :
    s.awaitsRest l = if m.state = .crossing ∧ m.h = m.f ∧ m.f < s.exitEntered m then some (m, s.exitEntered m) else none := by
  rw [State.awaitsRest, if_pos ⟨hmode, hlane⟩, hrec]
  dsimp only
  rw [hm]

theorem State.makeAsk_eq (s : State) (l : LaneIx) :
    s.takeOwn (.rest l) = .next ({ s with crossingAsks := s.crossingAsks.set l false }.resumeCrossing l) := rfl

end requests

/-- Settles O46: each request is granted whole under the test of `grantableTo`, and dropped otherwise. -/
theorem offerCheckGrantsTheWholeCrossing : Obligations.OfferCheckGrantsTheWholeCrossing := by
  refine ⟨fun s l k m hmode hstate hhead hm e he => ?_, fun s l k m hmode hlane hrec hm hstate hhf e he hlt => ?_,
    fun s l hnone => ?_⟩
  · obtain ⟨rfl, -⟩ := State.move?_some hm
    have hgrant := State.offerGrant_eq hmode hstate hhead hm
    rw [← he] at hgrant
    refine ⟨fun hfree => ?_, fun hnot => ?_⟩ <;> show Host.Outcome.next (s.offerCheck l) = _
    · rw [if_pos ((s.grantableTo_iff m e).2 hfree)] at hgrant
      rw [State.offerCheck, hgrant]
      dsimp only
      rw [State.grantCrossing, State.startTimer_running hmode, State.startTimer_running hmode]
      rfl
    · rw [if_neg fun h => hnot ((s.grantableTo_iff m e).1 h)] at hgrant
      rw [State.offerCheck, hgrant]
  · obtain ⟨rfl, -⟩ := State.move?_some hm
    rw [State.makeAsk_eq]
    have hawait : ({ s with crossingAsks := s.crossingAsks.set l false } : State).awaitsRest l = some (m, e) := by
      rw [State.awaitsRest_eq (s := { s with crossingAsks := s.crossingAsks.set l false }) hmode hlane hrec hm,
        if_pos ⟨hstate, hhf, he ▸ hlt⟩, he]
      rfl
    refine ⟨fun hfree => ?_, fun hnot => ?_⟩
    · have hyes : ({ s with crossingAsks := s.crossingAsks.set l false } : State).grantableTo m e = true :=
        (s.grantableTo_iff m e).2 hfree
      rw [State.resumeCrossing, hawait]
      dsimp only
      rw [if_pos hyes, State.startTimer_running (s := { s with crossingAsks := s.crossingAsks.set l false }) hmode]
      rfl
    · have hno : ¬ ({ s with crossingAsks := s.crossingAsks.set l false } : State).grantableTo m e = true :=
        fun h => hnot ((s.grantableTo_iff m e).1 h)
      rw [State.resumeCrossing, hawait]
      dsimp only
      rw [if_neg hno]
  · rw [State.makeAsk_eq, State.resumeCrossing]
    have hawait : ({ s with crossingAsks := s.crossingAsks.set l false } : State).awaitsRest l = none := hnone
    rw [hawait]

end Sys2Proof.Machine
end


section
/-!
PROOFS. How a report is judged once its checks are passed, and LEFT by a bench that is not managed (R98, R107, R108).
-/

open Sys2Proof Sys2Proof.Machine

namespace Sys2Proof.Machine

/-! ### The judgement of a report (R98, R99) -/

section judge
variable {judge : Nat → Nat → State → Judgement} {s u : State} {addr : WordAddr} {tag : Word} {j : ReportIx}

theorem checkedReport_of_configured {named : Bool} {r : ReportRecord} (hb : named = true → r.bench ≠ 0)
    (hc : s.configured r.segment = true) : checkedReport judge named r s = judge r.bench r.segment s := by
  unfold checkedReport
  rw [if_neg (by cases named <;> simp_all), if_pos hc]

/-- An accepted report has been heard of (R36, R98). -/
theorem hearing_of_accepted {b g : Nat} (h : judge b g s = (u, .accepted)) :
    hearing judge b g s = (u.heard b, .accepted) := by
  unfold hearing
  dsimp only
  rw [h, if_pos rfl]

theorem hearing_of_other {b g : Nat} {x : Acceptance} (h : judge b g s = (u, x)) (hx : x ≠ .accepted) :
    hearing judge b g s = (u, x) := by
  unfold hearing
  dsimp only
  rw [h, if_neg hx]

/-- The bench is not managed: nothing has been heard of a move. -/
theorem State.heard_of_none {b : Nat} (h : s.moveOfBench b = none) : s.heard b = s := by
  rw [State.heard, h]

theorem State.heard_of_move {b : Nat} {m : Move} (h : s.moveOfBench b = some m) :
    s.heard b = s.updateMove m.slot fun x => { x with silence := x.silence.restart s.silenceFull } := by
  rw [State.heard, h]

theorem State.configured_of_seg {g : Nat} {r : Segment} (h : s.seg? g = some r) : s.configured g = true := by
  rw [State.configured, h]
  rfl

end judge

/-- Settles O31: the vacate request, and the rejection that changes nothing. -/
theorem leftVacatesOrIsRejected : Obligations.LeftVacatesOrIsRejected := by
  rintro addr tag s j g b h rfl rfl hb hconf
  have hcarry : carryReport (some .left) (s.reportOf j) (s.atReport addr tag j)
      = hearing leftReport (s.reportOf j).bench (s.reportOf j).segment (s.atReport addr tag j) :=
    checkedReport_of_configured (fun _ => hb) hconf
  refine ⟨fun hnone u hu => ?_, fun m hm hg hf => ?_⟩
  · have hjudge : leftReport (s.reportOf j).bench (s.reportOf j).segment (s.atReport addr tag j)
        = ((s.atReport addr tag j).vacate (s.reportOf j).segment (s.reportOf j).bench, .unmanaged) := by
      unfold leftReport
      rw [State.atReport_moveOfBench_look, hnone]
    have hrow : s.reportRow (some .left) carryLeft addr tag = s.announce u := by
      refine (State.reportRow_of_take h (hcarry.trans (hearing_of_other hjudge (by decide)))).trans ?_
      rw [hu]
      unfold State.vacate
      simp only [State.updateSegs, List.mem_singleton]
      rfl
    obtain ⟨⟨t, ht, hframe, hasks, -⟩, hquiet⟩ := State.announce_segs (s := s) (u := u) (by rw [hu]; rfl)
    show (∃ t, Host.Outcome.next (s.reportRow (some .left) carryLeft addr tag) = .next t ∧ _)
      ∧ (_ → Host.Outcome.next (s.reportRow (some .left) carryLeft addr tag) = _)
    rw [hrow]
    exact ⟨⟨t, ht, hframe, hasks⟩, hquiet⟩
  · have hjudge : leftReport (s.reportOf j).bench (s.reportOf j).segment (s.atReport addr tag j)
        = (s.atReport addr tag j, .rejected .emptyBench) := by
      unfold leftReport
      rw [State.atReport_moveOfBench_look, hm]
      dsimp only
      rw [if_pos hg, if_neg hf]
    exact congrArg Host.Outcome.next
      (State.reportRow_rejected h (hcarry.trans (hearing_of_other hjudge (by decide))))

/-! ### EMPTY of a segment with no managed bench on it (R114, R116) -/

section empty
variable {s : State} {r : Segment} {g : Nat}

/-- What EMPTY makes of a segment's record where no live move's bench is on it (R114, R116, R14). -/
def Segment.emptied (r x : Segment) : Segment :=
  if r.surveyed = false then { x with surveyed := true, occupant := none }
  else match r.occupant with
    | some .unknown => { x with occupant := none }
    | some (.bench _) => { x with occupant := none, fence := some .vanished }
    | none => x

/-- The notice of a bench that has vanished (R116). -/
def Segment.vanishNotice (r : Segment) : BitVec 16 :=
  if r.surveyed = true ∧ r.occupant ≠ none ∧ r.occupant ≠ some .unknown then Notice.mask .vanished else 0

theorem State.updateSegs_updateSegs (s : State) (ids : List Nat) (u w : Segment → Segment) (hu : ∀ x, (u x).id = x.id) :
    (s.updateSegs ids u).updateSegs ids w = s.updateSegs ids fun x => w (u x) := by
  unfold State.updateSegs
  simp only [List.map_map]
  congr 1
  refine List.map_congr_left fun x _ => ?_
  by_cases hx : x.id ∈ ids
  · simp [hx, hu]
  · simp [hx]

theorem State.updateSegs_self (s : State) (ids : List Nat) : s.updateSegs ids (fun x => x) = s := by
  unfold State.updateSegs
  simp

theorem State.no_notice (v : State) : ({ v with notices := v.notices ||| (0 : BitVec 16) } : State) = v := by
  rw [show v.notices ||| (0 : BitVec 16) = v.notices from BitVec.or_zero]

theorem emptyReport_unmanaged (hr : s.seg? g = some r) (hnone : s.moveOfOccupant r.occupant = none) (b : Nat) :
    emptyReport b g s = ({ s.updateSegs [g] r.emptied with notices := s.notices ||| r.vanishNotice }, .accepted) := by
  have hquiet : r.vanishNotice = 0 → ({ s.updateSegs [g] r.emptied with notices := s.notices ||| r.vanishNotice } : State)
      = s.updateSegs [g] r.emptied := fun h => by rw [h]; exact (s.updateSegs [g] r.emptied).no_notice
  unfold emptyReport
  rw [hr]
  dsimp only
  rw [hnone]
  dsimp only
  cases hs : r.surveyed with
  | false =>
    have hf : r.emptied = fun x => { x with surveyed := true, occupant := none } := by
      funext x
      exact if_pos hs
    rw [hquiet (if_neg (by simp [hs])), hf, Bool.not_false, if_pos rfl]
    refine congrArg (·, Acceptance.accepted) ?_
    exact s.updateSegs_updateSegs [g] (fun r => { r with surveyed := true }) (fun r => { r with occupant := none })
      fun _ => rfl
  | true =>
    have hf : r.emptied = fun x => match r.occupant with
        | some .unknown => { x with occupant := none }
        | some (.bench _) => { x with occupant := none, fence := some .vanished }
        | none => x := by
      funext x
      exact if_neg (by simp [hs])
    rw [Bool.not_true, if_neg Bool.false_ne_true]
    cases ho : r.occupant with
    | none =>
      rw [hquiet (if_neg (by simp [ho])), hf, ho]
      exact congrArg (·, Acceptance.accepted) (s.updateSegs_self [g]).symm
    | some o =>
      cases o with
      | unknown =>
        rw [hquiet (if_neg (by simp [ho])), hf, ho]
        rfl
      | bench c =>
        have hn : r.vanishNotice = Notice.mask .vanished := if_pos (by simp [hs, ho])
        rw [hn, hf, ho]
        refine congrArg (·, Acceptance.accepted) ?_
        unfold State.vanishUnmanaged State.clear State.setFence
        rw [s.updateSegs_updateSegs [g] (fun r => { r with occupant := none })
          (fun r => { r with fence := some .vanished }) fun _ => rfl]
        rfl

end empty

end Sys2Proof.Machine
end


section
/-!
PROOFS. The advance of a lane (R67, R68, R80), and the ways a lane is given back: the lapse of an offer and of an entry
deadline (R72, R74), and the move that stalls or stops (R35, R69, R77, R120, R121).
-/

open Sys2Proof Sys2Proof.Machine

namespace Sys2Proof.Machine

/-! ### The advance of a lane as one update (R67, R68, R80) -/

/-- A notice latched where a condition holds. -/
def State.noteIf (s : State) (b : Bool) (n : Notice) : State :=
  { s with notices := if b then s.notices ||| n.mask else s.notices }

/-- The lane after the judgement of its round (R80). -/
def Lane.judged (ln : Lane) : Lane := { ln with standoff := ln.standoff || (ln.offered && !ln.crossed && !ln.standoff) }

/-- The lane with its round marks and run counter cleared (R67, R80). -/
def Lane.roundCleared (ln : Lane) : Lane := { ln with offered := false, crossed := false, runCounter := 0 }

/-- The lane with berth j offered in a fresh window (R70). -/
def State.offering (s : State) (l : LaneIx) (j : BerthIx) (ln : Lane) : Lane :=
  { ln with state := .offering, berth := j, offered := true, offerTimer := s.startTimer (s.offerFull l) }

/-- The lane after the visits of the rest of a round in normal order (R67). -/
def Lane.visitedOut (ln : Lane) : Lane := { ln with runCounter := 0, berth := ln.lastVisited }

/-- The lane after an advance, by its order and by the berths that wait (R67, R68, R80). -/
def State.advanced (s : State) (l : LaneIx) (ln : Lane) : Lane :=
  if s.timing.lanes[l].strictOrder then
    match ln.nextBerth 0 with
    | some j => if j ≤ ln.berth then s.offering l j ln.judged.roundCleared else s.offering l j ln
    | none => { ln.judged with state := .quiet }
  else match ln.nextBerth (ln.berth.val + 1) with
    | some j => s.offering l j { ln with runCounter := 0 }
    | none => match ln.nextBerth 0 with
      | some j => s.offering l j ln.visitedOut.judged.roundCleared
      | none => { ln.visitedOut.judged with state := .quiet }

section advance
variable (s : State) (l : LaneIx)

@[simp] theorem State.noteIf_false (n : Notice) : s.noteIf false n = s := rfl

theorem State.updateLane_updateLane (u w : Lane → Lane) :
    (s.updateLane l u).updateLane l w = s.updateLane l fun ln => w (u ln) := by
  unfold State.updateLane
  simp

theorem State.updateLane_congr {u w : Lane → Lane} (h : u s.lanes[l] = w s.lanes[l]) : s.updateLane l u = s.updateLane l w := by
  unfold State.updateLane
  rw [h]

theorem State.updateLane_id {u : Lane → Lane} (h : u s.lanes[l] = s.lanes[l]) : s.updateLane l u = s := by
  unfold State.updateLane
  rw [h]
  simp

theorem State.enterOffering_eq (j : BerthIx) : s.enterOffering l j = s.updateLane l (s.offering l j) := rfl

theorem State.judgeRound_eq : s.judgeRound l = (s.updateLane l Lane.judged).noteIf
    (s.lanes[l].offered && !s.lanes[l].crossed && !s.lanes[l].standoff) .laneStandoff := by
  unfold State.judgeRound
  split
  · rename_i h
    rw [h]
    unfold State.noteIf
    rw [if_pos rfl, s.updateLane_congr l (u := Lane.judged) (w := fun ln => { ln with standoff := true })]
    · rfl
    · rw [Lane.judged, h, Bool.or_true]
  · rename_i h
    rw [Bool.not_eq_true] at h
    rw [s.updateLane_id l (u := Lane.judged) (by rw [Lane.judged, h, Bool.or_false]), h]
    rfl

theorem State.startRound_of_some {j : BerthIx} (h : s.lanes[l].nextBerth 0 = some j) :
    s.startRound l = s.updateLane l fun ln => s.offering l j ln.roundCleared := by
  rw [State.startRound, h]
  exact s.updateLane_updateLane l _ _

theorem State.updateLane_nextBerth (u : Lane → Lane) (h : (u s.lanes[l]).lists = s.lanes[l].lists)
    (hlayout : (u s.lanes[l]).layout = s.lanes[l].layout) (n : Nat) :
    (s.updateLane l u).lanes[l].nextBerth n = s.lanes[l].nextBerth n := by
  rw [State.updateLane_get_same]
  exact Lane.nextBerth_congr h hlayout n

/-- An advance in strict order (R68, R80). -/
theorem State.advanceStrict_eq (hstrict : s.timing.lanes[l].strictOrder = true) :
    s.advanceStrict l = (s.updateLane l (s.advanced l)).noteIf (s.lanes[l].standsOff true) .laneStandoff := by
  unfold State.advanceStrict Lane.standsOff Lane.endsRound
  rw [if_pos rfl]
  cases hn : s.lanes[l].nextBerth 0 with
  | some j =>
    dsimp only
    by_cases hj : j ≤ s.lanes[l].berth
    · have hlane : s.advanced l s.lanes[l] = s.offering l j s.lanes[l].judged.roundCleared := by
        rw [State.advanced, if_pos hstrict, hn]
        exact if_pos hj
      rw [if_pos hj, State.judgeRound_eq, decide_eq_true hj, Bool.true_and, Bool.true_and,
        s.updateLane_congr l (w := fun ln => s.offering l j ln.judged.roundCleared) hlane,
        ← s.updateLane_updateLane l Lane.judged fun ln => s.offering l j ln.roundCleared,
        ← (s.updateLane l Lane.judged).updateLane_updateLane l Lane.roundCleared (s.offering l j)]
      rfl
    · have hlane : s.advanced l s.lanes[l] = s.offering l j s.lanes[l] := by
        rw [State.advanced, if_pos hstrict, hn]
        exact if_neg hj
      rw [if_neg hj, decide_eq_false hj, s.updateLane_congr l (w := s.offering l j) hlane]
      rfl
  | none =>
    have hlane : s.advanced l s.lanes[l] = { s.lanes[l].judged with state := .quiet } := by
      rw [State.advanced, if_pos hstrict, hn]
    dsimp only
    rw [State.judgeRound_eq, Bool.true_and,
      s.updateLane_congr l (w := fun ln => { ln.judged with state := .quiet }) hlane,
      ← s.updateLane_updateLane l Lane.judged fun ln => { ln with state := .quiet }]
    rfl

/-- An advance in normal order (R67, R80). -/
theorem State.advanceNormal_eq (hnormal : s.timing.lanes[l].strictOrder = false) :
    s.advanceNormal l = (s.updateLane l (s.advanced l)).noteIf (s.lanes[l].standsOff false) .laneStandoff := by
  have hstrict : ¬ s.timing.lanes[l].strictOrder = true := by rw [hnormal]; decide
  unfold State.advanceNormal Lane.standsOff Lane.endsRound
  rw [if_neg (by decide)]
  cases hn : s.lanes[l].nextBerth (s.lanes[l].berth.val + 1) with
  | some j =>
    have hlane : s.advanced l s.lanes[l] = s.offering l j { s.lanes[l] with runCounter := 0 } := by
      rw [State.advanced, if_neg hstrict, hn]
    dsimp only
    rw [s.updateLane_congr l (w := fun ln => s.offering l j { ln with runCounter := 0 }) hlane,
      ← s.updateLane_updateLane l (fun ln => { ln with runCounter := 0 }) (s.offering l j)]
    rfl
  | none =>
    dsimp only
    have hjudge : (s.updateLane l Lane.visitedOut).judgeRound l
        = (s.updateLane l fun ln => ln.visitedOut.judged).noteIf
          (s.lanes[l].offered && !s.lanes[l].crossed && !s.lanes[l].standoff) .laneStandoff := by
      rw [State.judgeRound_eq, State.updateLane_updateLane, State.updateLane_get_same]
      rfl
    have hnext : ((s.updateLane l fun ln => ln.visitedOut.judged).noteIf
        (s.lanes[l].offered && !s.lanes[l].crossed && !s.lanes[l].standoff) .laneStandoff).lanes[l].nextBerth 0
          = s.lanes[l].nextBerth 0 := s.updateLane_nextBerth l (fun ln => ln.visitedOut.judged) rfl rfl 0
    show (match ((s.updateLane l Lane.visitedOut).judgeRound l).lanes[l].nextBerth 0 with
      | some _ => ((s.updateLane l Lane.visitedOut).judgeRound l).startRound l
      | none => ((s.updateLane l Lane.visitedOut).judgeRound l).enterQuiet l) = _
    rw [hjudge, hnext, Bool.true_and]
    cases hz : s.lanes[l].nextBerth 0 with
    | some j =>
      have hlane : s.advanced l s.lanes[l] = s.offering l j s.lanes[l].visitedOut.judged.roundCleared := by
        rw [State.advanced, if_neg hstrict, hn, hz]
      dsimp only
      rw [State.startRound_of_some (j := j) _ _ (hnext.trans hz),
        s.updateLane_congr l (w := fun ln => s.offering l j ln.visitedOut.judged.roundCleared) hlane,
        ← s.updateLane_updateLane l (fun ln => ln.visitedOut.judged) fun ln => s.offering l j ln.roundCleared]
      rfl
    | none =>
      have hlane : s.advanced l s.lanes[l] = { s.lanes[l].visitedOut.judged with state := .quiet } := by
        rw [State.advanced, if_neg hstrict, hn, hz]
      dsimp only
      rw [s.updateLane_congr l (w := fun ln => { ln.visitedOut.judged with state := .quiet }) hlane,
        ← s.updateLane_updateLane l (fun ln => ln.visitedOut.judged) fun ln => { ln with state := .quiet }]
      rfl

/-- An advance updates its lane, and latches the stand-off it enters (R67, R68, R80). -/
theorem State.advanceLane_eq : s.advanceLane l = (s.updateLane l (s.advanced l)).noteIf
    (s.lanes[l].standsOff s.timing.lanes[l].strictOrder) .laneStandoff := by
  unfold State.advanceLane
  split
  · rename_i hstrict
    rw [s.advanceStrict_eq l hstrict, hstrict]
  · rename_i hstrict
    rw [Bool.not_eq_true] at hstrict
    rw [s.advanceNormal_eq l hstrict, hstrict]

theorem State.advanceLane_lane : (s.advanceLane l).lanes[l] = s.advanced l s.lanes[l] := by
  rw [State.advanceLane_eq]
  exact s.updateLane_get_same l _

/-! ### What an advance gives (R67, R68, R80) -/

theorem Lane.lastVisited_of_le {ln : Lane} {n : BerthIx} (hcount : ln.berthCount = n.val + 1) (hle : ln.berth ≤ n) :
    ln.lastVisited = n := by
  unfold Lane.lastVisited Lane.lastBerth
  rw [hcount]
  split
  · rw [if_neg (Nat.succ_ne_zero _), Nat.add_sub_cancel]
    exact Fin.ofNat_val_eq_self n
  · have hle' : ln.berth.val ≤ n.val := hle
    exact Fin.ext (by omega)

/-- The lane of t is what the advance of ln makes of it. -/
theorem State.Advances.of_lane {ln : Lane} {t : State} (h : t.lanes[l] = s.advanced l ln) : s.Advances l ln t := by
  have hjudged : (ln.judged).standoff = (ln.standoff || (ln.offered && !ln.crossed && !ln.standoff)) := rfl
  unfold State.Advances Lane.standsOff Lane.endsRound Lane.offersNext
  rw [h, State.advanced]
  cases hstrict : s.timing.lanes[l].strictOrder with
  | true =>
    simp only [if_true]
    cases hn : ln.nextBerth 0 with
    | some j =>
      dsimp only
      by_cases hj : j ≤ ln.berth
      · rw [if_pos hj, decide_eq_true hj]
        simp [State.offering, Lane.roundCleared, Lane.judged]
      · rw [if_neg hj, decide_eq_false hj]
        simp [State.offering]
    | none => simp [Lane.judged]
  | false =>
    simp only [Bool.false_eq_true, if_false]
    cases hn : ln.nextBerth (ln.berth.val + 1) with
    | some j => simp [State.offering]
    | none =>
      cases hz : ln.nextBerth 0 with
      | some j => simp [State.offering, Lane.roundCleared, Lane.judged, Lane.visitedOut]
      | none =>
        simp only [Lane.judged, Lane.visitedOut, Option.or_none, Bool.true_and]
        exact ⟨trivial, trivial, fun _ => trivial, trivial, trivial, trivial, fun h => absurd h (by decide),
          fun _ n hcount hle => Lane.lastVisited_of_le hcount hle⟩

end advance

end Sys2Proof.Machine
end


section
/-!
PROOFS. How a lane is given back: by the move whose grant is withdrawn or that leaves its list, in a stall, in an entry to
STOPPING and at its end (R35, R69, R77, R120, R121).
-/

open Sys2Proof Sys2Proof.Machine

namespace Sys2Proof.Machine

section quits
variable {s v t u : State} {l : LaneIx} {k : SlotIx} {m : Move}

/-- The entry of the slot after its own change. -/
theorem State.updateMove_move (hm : s.move? k = some m) {w : Move → Move} (hw : ∀ x, (w x).slot = x.slot) :
    (s.updateMove k w).move? k = some (w m) := by
  rw [State.move?_updateMove _ _ _ _ hw, hm, Option.map_some, if_pos rfl]

theorem State.offerStart_congr (htiming : v.timing = s.timing) (hmode : v.mode = s.mode) (l : LaneIx) :
    v.startTimer (v.offerFull l) = s.startTimer (s.offerFull l) := by
  rw [State.startTimer, State.startTimer, State.offerFull, State.offerFull, htiming, hmode]

/-- What an advance gives depends on the timing and the mode alone. -/
theorem State.Advances.of_same {ln : Lane} (h : v.Advances l ln t) (htiming : v.timing = s.timing) (hmode : v.mode = s.mode) :
    s.Advances l ln t := by
  unfold State.Advances at h ⊢
  rw [State.offerStart_congr htiming hmode, htiming] at h
  exact h

theorem State.GivesUp.of_same {ln : Lane} (h : v.GivesUp l ln t) (htiming : v.timing = s.timing) (hmode : v.mode = s.mode) :
    s.GivesUp l ln t := by
  obtain ⟨hadv, hnote⟩ := h
  rw [htiming] at hnote
  exact ⟨hadv.of_same htiming hmode, hnote⟩

/-- What a lane is made of, and the notices latched with it, hold in every state with that lane and those notices. -/
theorem State.GivesUp.mono {ln : Lane} (h : s.GivesUp l ln t) (hlane : u.lanes[l] = t.lanes[l])
    (hlatched : ∀ n, t.latched n = true → u.latched n = true) : s.GivesUp l ln u := by
  obtain ⟨hadv, hnote⟩ := h
  refine ⟨?_, fun h => hlatched _ (hnote h)⟩
  unfold State.Advances at hadv ⊢
  rw [hlane]
  exact hadv

theorem State.notify_latched (s : State) (n : Notice) : (s.notify n).latched n = true := by
  show (s.notices ||| n.mask).getLsbD _ = true
  rw [BitVec.getLsbD_or, Notice.mask, BitVec.getLsbD_twoPow]
  cases n <;> simp [Notice.bit]

theorem State.noteIf_latched {b : Bool} {n : Notice} (h : b = true) : (s.noteIf b n).latched n = true := by
  subst h
  show (s.notify n).latched n = true
  exact s.notify_latched n

/-- An advance of the lane gives it up. -/
theorem State.advanceLane_givesUp (s : State) (l : LaneIx) : s.GivesUp l s.lanes[l] (s.advanceLane l) := by
  refine ⟨State.Advances.of_lane s l (s.advanceLane_lane l), fun h => ?_⟩
  rw [State.advanceLane_eq]
  exact State.noteIf_latched h

theorem State.QuitsLane.of_same {m' : Move} (h : v.QuitsLane m' t) (hlanes : v.lanes = s.lanes)
    (htiming : v.timing = s.timing) (hmode : v.mode = s.mode) (hslot : m'.slot = m.slot) (hlane : m'.lane = m.lane) :
    s.QuitsLane m t := by
  unfold State.QuitsLane at h ⊢
  rw [hlanes, hslot, hlane] at h
  refine ⟨h.1, fun l hl => ?_⟩
  obtain ⟨hentered, hother⟩ := h.2 l hl
  refine ⟨hentered, fun hne => ?_⟩
  obtain ⟨hmove, hothers, hgrant, hlist⟩ := hother hne
  refine ⟨hmove, hothers, fun hc => (hgrant hc).of_same htiming hmode, fun hc ln hln => ?_⟩
  obtain ⟨hend, hstay⟩ := hlist hc ln hln
  exact ⟨fun hcond => (hend hcond).of_same htiming hmode, hstay⟩

theorem State.QuitsLane.mono (h : s.QuitsLane m t) (hlanes : u.lanes = t.lanes)
    (hmove : ∀ m', t.move? m.slot = some m' → ∃ m'', u.move? m.slot = some m'' ∧ m''.lane = m'.lane)
    (hlatched : ∀ n, t.latched n = true → u.latched n = true) : s.QuitsLane m u := by
  have hlane : ∀ x : LaneIx, u.lanes[x] = t.lanes[x] := fun x => by rw [hlanes]
  have hkeep : ∀ {x}, (∃ m', t.move? m.slot = some m' ∧ m'.lane = x) → ∃ m', u.move? m.slot = some m' ∧ m'.lane = x := by
    rintro x ⟨m', hm', rfl⟩
    exact hmove m' hm'
  refine ⟨fun hl => hlanes.trans (h.1 hl), fun l hl => ?_⟩
  obtain ⟨hentered, hother⟩ := h.2 l hl
  refine ⟨fun he => ⟨hlanes.trans (hentered he).1, hkeep (hentered he).2⟩, fun hne => ?_⟩
  obtain ⟨hmove, hothers, hgrant, hlist⟩ := hother hne
  refine ⟨hkeep hmove, fun x hx => (hlane x).trans (hothers x hx), fun hc => (hgrant hc).mono (hlane l) hlatched,
    fun hc ln hln => ?_⟩
  obtain ⟨hend, hstay⟩ := hlist hc ln hln
  exact ⟨fun hcond => (hend hcond).mono (hlane l) hlatched, fun hcond => (hlane l).trans (hstay hcond)⟩

/-- The withdrawal of a grant not entered gives up the lane without its record (R77). -/
theorem State.withdrawGrant_givesUp (s : State) (l : LaneIx) :
    s.GivesUp l { s.lanes[l] with offerTimer := .stopped, crossing := none } (s.withdrawGrant l) := by
  have h := (s.updateLane l fun ln => { ln with offerTimer := .stopped, crossing := none }).advanceLane_givesUp l
  rw [State.updateLane_get_same] at h
  exact h.of_same rfl rfl

/-- A berth list that a move leaves: the offer to a list that is now empty ends, and otherwise only the lists change
(R69). -/
theorem State.leaveList_lane (s : State) (l : LaneIx) (k : SlotIx) {ln : Lane}
    (hln : ln = { s.lanes[l] with lists := s.lanes[l].lists.map fun q => q.filter fun x => x ≠ k }) :
    ((ln.state = .offering ∧ s.lanes[l].head? = some k ∧ ln.head? = none) →
        s.GivesUp l { ln with offerTimer := .stopped } (s.leaveList l k))
      ∧ (¬(ln.state = .offering ∧ s.lanes[l].head? = some k ∧ ln.head? = none) → (s.leaveList l k).lanes[l] = ln) := by
  have hget : (s.updateLane l fun ln => { ln with lists := ln.lists.map fun q => q.filter (· ≠ k) }).lanes[l] = ln := by
    rw [State.updateLane_get_same, hln]
  have hstate : ln.state = s.lanes[l].state := by rw [hln]
  unfold State.leaveList
  dsimp only
  rw [hget, hstate]
  refine ⟨fun hcond => ?_, fun hcond => ?_⟩
  · rw [if_pos hcond]
    have h := ((s.updateLane l fun ln => { ln with lists := ln.lists.map fun q => q.filter (· ≠ k) }).updateLane l
      fun ln => { ln with offerTimer := .stopped }).advanceLane_givesUp l
    rw [State.updateLane_get_same, hget] at h
    exact h.of_same rfl rfl
  · rw [if_neg hcond]
    exact hget

/-- The lane business of a move that stalls or stops (R35, R77, R120, R121). -/
theorem State.leaveLane_quits (hm : s.move? k = some m) : s.QuitsLane m (s.leaveLane k) := by
  obtain ⟨hslot, -⟩ := State.move?_some hm
  subst hslot
  unfold State.leaveLane
  rw [hm, Option.bind_some]
  cases hl : m.lane with
  | none => exact ⟨fun _ => rfl, fun l h => by rw [hl] at h; cases h⟩
  | some l =>
    refine ⟨fun h => (by rw [hl] at h; cases h), fun l' hl' => ?_⟩
    rw [hl] at hl'
    injection hl' with hl'
    subst hl'
    dsimp only
    refine ⟨fun hentered => ?_, fun hentered => ?_⟩
    · rw [if_pos hentered]
      exact ⟨rfl, m, hm, hl⟩
    · rw [if_neg (by rw [hentered]; decide)]
      have hleft : (s.updateMove m.slot fun x => { x with lane := none }).move? m.slot = some { m with lane := none } :=
        State.updateMove_move hm fun _ => rfl
      have hmove : ∀ w : State, w.moves = (s.updateMove m.slot fun x => { x with lane := none }).moves →
          ∃ m', w.move? m.slot = some m' ∧ m'.lane = none := fun w hw =>
        ⟨{ m with lane := none }, by rw [State.move?, hw]; exact hleft, rfl⟩
      split
      · rename_i hc
        have hone := (s.updateMove m.slot fun x => { x with lane := none }).withdrawGrant_oneLane l
        refine ⟨hmove _ hone.moves, hone.others, fun _ => ?_, fun hno => absurd (hc.symm.trans hno) (by decide)⟩
        exact ((s.updateMove m.slot fun x => { x with lane := none }).withdrawGrant_givesUp l).of_same rfl rfl
      · rename_i hc
        have hone := (s.updateMove m.slot fun x => { x with lane := none }).leaveList_oneLane l m.slot
        refine ⟨hmove _ hone.moves, hone.others, fun hyes => absurd hyes hc, fun _ ln hln => ?_⟩
        obtain ⟨hend, hstay⟩ := (s.updateMove m.slot fun x => { x with lane := none }).leaveList_lane l m.slot hln
        exact ⟨fun hcond => (hend hcond).of_same rfl rfl, hstay⟩

end quits

/-! ### A move that gives up what it holds ahead and leaves its lane (R35, R52, R120) -/

/-- The move in slot k is restored to its front, changed by w, and leaves its lane. -/
def State.quit (s : State) (k : SlotIx) (w : Move → Move) : State := ((s.restore k).updateMove k w).leaveLane k

section quit
variable {s : State} {k : SlotIx} {m : Move} {w : Move → Move}

/-- Its change at an entry to STOPPING (R35). -/
def State.stopped (s : State) (r : EndReason) (x : Move) : Move :=
  { x with
    state := .stopping, endReason := some r, yield := .clear, extending := false, backoff := .stopped
    silence := s.startTimer s.silenceFull }

/-- Its change at a stall (R120). -/
def State.stalled (s : State) (x : Move) : Move :=
  { x with
    state := .stalled, yield := .clear, extending := false, silence := .stopped, backoff := s.startTimer s.backoffFull }

theorem State.enterStopping_eq (hm : s.move? k = some m) (hs : m.state ≠ .stopping) (r : EndReason) :
    s.enterStopping k r = s.quit k (s.stopped r) := by
  rw [State.enterStopping, hm]
  exact if_neg hs

theorem State.stallMove_eq (s : State) (k : SlotIx) : s.stallMove k = (s.quit k s.stalled).notify .stall := rfl

/-- Who holds a segment after a release (R8). -/
theorem State.release_holder (s : State) (k : SlotIx) (ids : List Nat) (g : Nat) :
    (s.release k ids).holder g = if g ∈ ids ∧ s.holder g = some k then none else s.holder g := by
  unfold State.holder
  rw [State.release_eq, State.seg?_updateSegs _ _ _ _ (Segment.released_id k)]
  cases s.seg? g with
  | none => simp
  | some r =>
    simp only [Option.map_some, Option.bind_some]
    by_cases hg : g ∈ ids
    · rw [if_pos hg, Segment.released]
      by_cases hr : r.holder = some k
      · rw [if_pos hr, if_pos ⟨hg, hr⟩]
      · rw [if_neg hr, if_neg fun h => hr h.2]
    · rw [if_neg hg, if_neg fun h => hg h.1]

/-- A restore leaves the move no hold beyond its front (R52). -/
theorem State.restore_holder (hm : s.move? k = some m) (g : Nat) :
    (s.restore k).holder g = if g ∈ m.span (m.f + 1) m.h ∧ s.holder g = some k then none else s.holder g := by
  rw [State.restore_of_move hm, State.updateMove_holder_look]
  exact s.release_holder k _ g

theorem State.leaveLane_segs (s : State) (k : SlotIx) : (s.leaveLane k).segs = s.segs := (s.leaveLane_moves k).1

theorem State.quit_segs (s : State) (k : SlotIx) (w : Move → Move) : (s.quit k w).segs = (s.restore k).segs :=
  State.leaveLane_segs _ _

theorem State.quit_holder (hm : s.move? k = some m) {g : Nat} (hg : g ∈ m.span (m.f + 1) m.h) :
    (s.quit k w).holder g ≠ some k := by
  have hsame : (s.quit k w).holder g = (s.restore k).holder g := by
    unfold State.holder State.seg?
    rw [s.quit_segs k w]
  rw [hsame, State.restore_holder hm]
  split
  · simp
  · rename_i h
    exact fun e => h ⟨hg, e⟩

/-- What a survey, a fence and a mark leave, a restore leaves too (R8). -/
abbrev Segment.rail (g : Segment) : Bool × Option FenceCause × Option Occupant := (g.surveyed, g.fence, g.occupant)

theorem State.restore_rail (s : State) (k : SlotIx) : (s.restore k).segs.map Segment.rail = s.segs.map Segment.rail := by
  cases hm : s.move? k with
  | none => rw [State.restore_of_none hm]
  | some m =>
    rw [State.restore_of_move hm]
    show (s.segs.map _).map _ = _
    rw [List.map_map]
    refine List.map_congr_left fun g _ => ?_
    show (if g.id ∈ m.span (m.f + 1) m.h then g.released k else g).rail = g.rail
    split
    · unfold Segment.released
      split <;> rfl
    · rfl

theorem State.quit_rail (s : State) (k : SlotIx) (w : Move → Move) :
    (s.quit k w).segs.map Segment.rail = s.segs.map Segment.rail := by
  rw [State.quit_segs, State.restore_rail]

theorem State.restore_same (s : State) (k : SlotIx) : (s.restore k).lanes = s.lanes ∧ (s.restore k).timing = s.timing
    ∧ (s.restore k).mode = s.mode ∧ (s.restore k).notices = s.notices := by
  unfold State.restore
  split <;> exact ⟨rfl, rfl, rfl, rfl⟩

/-- The move itself: restored and changed, the lane reference alone depending on its lane. -/
theorem State.quit_move (hm : s.move? k = some m) (hw : ∀ x, (w x).slot = x.slot) :
    ∃ x, (s.quit k w).move? k = some { w m.restored with lane := x } := by
  refine State.leaveLane_move _ _ (w m.restored) ?_
  exact State.updateMove_move (s.restore_move k m hm) hw

/-- And its lane (R35, R77). -/
theorem State.quit_lane (hm : s.move? k = some m) (hw : ∀ x, (w x).slot = x.slot ∧ (w x).lane = x.lane) :
    s.QuitsLane m (s.quit k w) := by
  have hmove : ((s.restore k).updateMove k w).move? k = some (w m.restored) :=
    State.updateMove_move (s.restore_move k m hm) fun x => (hw x).1
  obtain ⟨hlanes, htiming, hmode, -⟩ := s.restore_same k
  have hslot : m.restored.slot = m.slot ∧ m.restored.lane = m.lane := by
    unfold Move.restored
    split <;> exact ⟨rfl, rfl⟩
  exact (State.leaveLane_quits hmove).of_same hlanes htiming hmode ((hw _).1.trans hslot.1) ((hw _).2.trans hslot.2)

end quit

end Sys2Proof.Machine
end


section
/-!
PROOFS. The stops and the stalls (R35, R102, R109, R110, R117, R120 to R124, R126 to R128): the one entry to STOPPING and
the one stall, under the report, the order or the expiry that brings them; and the lapses of the offer timer (R72, R74).
-/

open Sys2Proof Sys2Proof.Machine

namespace Sys2Proof.Machine

/-! ### What a taken report leaves (R96 to R98) -/

theorem Kept.sameFrame {s t : State} (h : Kept s t) : s.SameFrame t :=
  ⟨h.windows, h.latch, h.readData, h.timing, h.health, h.guardCapture, h.clockCount, h.pending, h.config, h.layouts⟩

theorem State.announce_keeps_triggered {before u : State} (h : u.Triggered) : (before.announce u).Triggered := by
  by_cases ha : announced before.segs u.segs = []
  · rwa [State.announce_of_none ha]
  · exact State.announce_triggered ha

/-- State t is what the take of a report in slot j leaves, where its judgement left state u and acceptance x. -/
structure State.Reported (s : State) (addr : WordAddr) (tag : Word) (j : ReportIx) (x : Acceptance) (u t : State) : Prop where
  reports : t.reports = s.reports.set j (s.takenReport j tag x)
  mem : t.mem = memWrite s.mem (effAddr .field addr) allLanes tag
  lanes : t.lanes = u.lanes
  segs : t.segs = u.segs
  moves : t.moves = u.moves
  queue : t.queue = u.queue
  tokens : t.tokens = u.tokens
  orders : t.orders = u.orders
  gridlock : t.gridlock = u.gridlock
  enable : t.enable = s.enable
  mode : t.mode = s.mode
  frame : s.SameFrame t
  notices : t.notices = (u.noteRejection x).notices
  latched : ∀ n, u.latched n = true → t.latched n = true
  asks : State.AsksAgain s u t
  triggered : u.Triggered → t.Triggered
  opened : announced s.segs u.segs ≠ [] → t.Triggered

theorem State.noteRejection_frame (v : State) (x : Acceptance) :
    v.noteRejection x = { v with notices := (v.noteRejection x).notices } := by
  cases x <;> rfl

theorem State.noteRejection_latched {v : State} (x : Acceptance) {n : Notice} (h : v.latched n = true) :
    (v.noteRejection x).latched n = true := (v.noteRejection_steady x).notices n h

section report
variable {s u : State} {kind : Option ReportKind} {addr : WordAddr} {tag : Word} {j : ReportIx} {x : Acceptance}

theorem State.reportRow_reported (h : s.TakesReport kind addr tag j)
    (hu : carryReport kind (s.reportOf j) (s.atReport addr tag j) = (u, x)) :
    s.Reported addr tag j x u (s.reportRow kind (carryReport kind) addr tag) := by
  have hkept : Kept (s.atReport addr tag j) u := by
    have := carryReport_kept kind (s.reportOf j) (s.atReport addr tag j)
    rwa [hu] at this
  rw [State.reportRow_of_take h hu]
  generalize hv : ({ u with reports := s.reports.set j (s.takenReport j tag x) } : State).noteRejection x = v
  have hframe : v = { u with reports := s.reports.set j (s.takenReport j tag x), notices := v.notices } := by
    rw [← hv]
    exact State.noteRejection_frame _ x
  have hnotices : v.notices = (u.noteRejection x).notices := by
    rw [← hv]
    cases x <;> rfl
  have hlatched : ∀ n, u.latched n = true → v.latched n = true := fun n hn => by
    rw [← hv]
    exact State.noteRejection_latched (v := { u with reports := s.reports.set j (s.takenReport j tag x) }) x hn
  obtain ⟨y, a, ht⟩ := s.announce_eq v
  have hasks := s.announce_asks v
  have htrig : v.Triggered → (s.announce v).Triggered := State.announce_keeps_triggered
  have hopen : announced s.segs v.segs ≠ [] → (s.announce v).Triggered := State.announce_triggered
  have hmem : u.mem = memWrite s.mem (effAddr .field addr) allLanes tag := hkept.mem
  have hsame : s.SameFrame u := ⟨hkept.windows, hkept.latch, hkept.readData, hkept.timing, hkept.health,
    hkept.guardCapture, hkept.clockCount, hkept.pending, hkept.config, hkept.layouts⟩
  clear hv
  generalize v.notices = n at *
  subst hframe
  exact
    { reports := by rw [ht]
      mem := by rw [ht]; exact hmem
      lanes := by rw [ht]
      segs := by rw [ht]
      moves := by rw [ht]
      queue := by rw [ht]
      tokens := by rw [ht]
      orders := by rw [ht]
      gridlock := by rw [ht]
      enable := by rw [ht]; exact hkept.enable
      mode := by rw [ht]; exact hkept.mode
      frame := by rw [ht]; exact hsame
      notices := by rw [ht]; exact hnotices
      latched := fun n hn => by rw [ht]; exact hlatched n hn
      asks := hasks
      triggered := htrig
      opened := hopen }

theorem State.Reported.move {t : State} (h : s.Reported addr tag j x u t) (k : SlotIx) : t.move? k = u.move? k := by
  rw [State.move?, h.moves]
  rfl

theorem State.Reported.holder {t : State} (h : s.Reported addr tag j x u t) (g : Nat) : t.holder g = u.holder g := by
  rw [State.holder, State.seg?, h.segs]
  rfl

theorem State.Reported.rejected {t : State} {r : RejectReason} (h : s.Reported addr tag j (.rejected r) u t) :
    t.latched .reportRejected = true := by
  rw [State.latched, h.notices]
  exact u.notify_latched .reportRejected

theorem State.Reported.quits {t : State} {m : Move} (h : s.Reported addr tag j x u t) (hq : s.QuitsLane m u) :
    s.QuitsLane m t :=
  hq.mono h.lanes (fun m' hm' => ⟨m', by rw [h.move]; exact hm', rfl⟩) h.latched

end report

/-! ### The entry to STOPPING (R35) -/

section stops
variable {s : State} {k : SlotIx} {m : Move} {r : EndReason}

theorem Move.restored_kept (m : Move) : m.restored.t = m.t ∧ m.restored.f = m.f ∧ m.restored.h = m.f
    ∧ m.restored.route = m.route ∧ m.restored.retries = m.retries ∧ m.restored.token = m.token
    ∧ m.restored.shed = m.shed ∧ m.restored.gridlocked = m.gridlocked := by
  unfold Move.restored
  split
  · rename_i h
    exact ⟨rfl, rfl, h, rfl, rfl, rfl, rfl, rfl⟩
  · exact ⟨rfl, rfl, rfl, rfl, rfl, rfl, rfl, rfl⟩

/-- What the stopped move is like. -/
theorem State.enterStopping_stops (hm : s.move? k = some m) (r : EndReason) :
    ∃ m', (s.enterStopping k r).move? k = some m' ∧ s.Stops r m m' ∧ (m.state = .stopping → m' = m) := by
  by_cases hs : m.state = .stopping
  · rw [State.enterStopping_again s k r m hm hs]
    exact ⟨m, hm, ⟨fun h => absurd hs h, fun _ => rfl⟩, fun _ => rfl⟩
  · rw [State.enterStopping_eq hm hs]
    obtain ⟨x, hx⟩ := State.quit_move (w := s.stopped r) hm fun _ => rfl
    obtain ⟨ht, hf, hh, hroute, hretries, htoken, -, -⟩ := m.restored_kept
    exact ⟨_, hx, ⟨fun _ => ⟨rfl, rfl, ht, hf, hh, rfl, rfl, rfl, hroute, hretries, htoken⟩, fun h => absurd h hs⟩,
      fun h => absurd h hs⟩

theorem State.enterStopping_quits (hm : s.move? k = some m) (hs : m.state ≠ .stopping) (r : EndReason) :
    s.QuitsLane m (s.enterStopping k r) := by
  rw [State.enterStopping_eq hm hs]
  exact State.quit_lane hm fun _ => ⟨rfl, rfl⟩

theorem State.enterStopping_holder (hm : s.move? k = some m) (hs : m.state ≠ .stopping) {g : Nat}
    (hg : g ∈ m.span (m.f + 1) m.h) : (s.enterStopping k r).holder g ≠ some k := by
  rw [State.enterStopping_eq hm hs]
  exact State.quit_holder hm hg

theorem State.enterStopping_rail (s : State) (k : SlotIx) (r : EndReason) :
    (s.enterStopping k r).segs.map Segment.rail = s.segs.map Segment.rail := by
  cases hm : s.move? k with
  | none => rw [State.enterStopping, hm]
  | some m =>
    by_cases hs : m.state = .stopping
    · rw [State.enterStopping_again s k r m hm hs]
    · rw [State.enterStopping_eq hm hs, State.quit_rail]

/-- The move of the bench that a report names, and of the occupant that it finds. -/
theorem State.move?_of_moveOfBench (hslot : s.SlotLaw) {b : Nat} (h : s.moveOfBench b = some m) : s.move? m.slot = some m :=
  State.move?_of_mem hslot.moves (State.moveOfBench_some h).2.1

end stops

/-- Settles O35: whichever check finds the report out of step, the judgement is `outOfStep`. -/
theorem outOfStepStopsTheMove : Obligations.OutOfStepStopsTheMove := by
  intro addr tag s j m g c x hslot hcase hg hb hconf hm
  subst hg
  have hmove : s.move? m.slot = some m := State.move?_of_moveOfBench hslot hm
  generalize ha : s.atReport addr tag j = a
  have hma : a.moveOfBench (s.reportOf j).bench = some m := by rw [← ha]; exact hm
  have hhold : a.holder (s.reportOf j).segment = s.holder (s.reportOf j).segment := by rw [← ha]; rfl
  have hjudged : ∀ {judge : Nat → Nat → State → Judgement} {named : Bool},
      judge (s.reportOf j).bench (s.reportOf j).segment a = a.outOfStep m x →
      checkedReport (hearing judge) named (s.reportOf j) a = (a.enterStopping m.slot .sequence, .rejected x) := by
    intro judge named hout
    rw [checkedReport_of_configured (fun _ => hb) (by rw [← ha]; exact hconf)]
    exact hearing_of_other hout (by simp)
  have hstands : ∀ {g}, g ≠ m.seg m.t → g ≠ m.seg m.f → m.standsOn g = false := fun h1 h2 => by simp [Move.standsOn, h1, h2]
  obtain ⟨t, ht, hrep⟩ : ∃ t, exec c s = .next t
      ∧ s.Reported addr tag j (.rejected x) (a.enterStopping m.slot .sequence) t := by
    rcases hcase with ⟨rfl, htake, hne, rfl⟩ | ⟨rfl, htake, hne, hne', rfl⟩ | ⟨rfl, htake, hne, hne', rfl⟩
      | ⟨rfl, htake, hheld, hne, rfl⟩ | ⟨rfl, htake, hheld, heq, hne, rfl⟩
    · refine ⟨_, rfl, State.reportRow_reported htake (ha ▸ hjudged ?_)⟩
      unfold leftReport
      rw [hma]
      exact if_neg hne
    · refine ⟨_, rfl, State.reportRow_reported htake (ha ▸ hjudged ?_)⟩
      unfold stalledReport
      rw [hma]
      exact if_neg (by rw [hstands hne hne']; decide)
    · refine ⟨_, rfl, State.reportRow_reported htake (ha ▸ hjudged ?_)⟩
      unfold haltedReport
      rw [hma]
      exact if_neg (by rw [hstands hne hne']; decide)
    · refine ⟨_, rfl, State.reportRow_reported htake (ha ▸ hjudged (judge := arrivedReport) (named := false) ?_)⟩
      unfold arrivedReport
      rw [hma]
      dsimp only
      rw [if_pos (hhold.trans hheld), if_neg hne]
    · refine ⟨_, rfl, State.reportRow_reported htake (ha ▸ hjudged (judge := arrivedReport) (named := false) ?_)⟩
      unfold arrivedReport
      rw [hma]
      dsimp only
      rw [if_pos (hhold.trans hheld), if_pos heq, if_neg hne]
  have hmove' : a.move? m.slot = some m := by rw [← ha]; exact hmove
  obtain ⟨m', hm', hstops, hsame⟩ := State.enterStopping_stops hmove' .sequence
  have hsteady := a.enterStopping_steady m.slot .sequence
  refine ⟨t, ht, hrep.reports, hrep.rejected, ⟨m', by rw [hrep.move]; exact hm', ?_, hsame⟩, fun hs => ?_, fun hs => ?_, ?_⟩
  · rw [← ha] at hstops
    exact hstops
  · rw [hrep.lanes, State.enterStopping_again a m.slot _ m hmove' hs, ← ha]
    rfl
  · refine hrep.quits ((State.enterStopping_quits hmove' hs _).of_same ?_ ?_ ?_ rfl rfl) <;> rw [← ha] <;> rfl
  · refine ⟨hrep.queue.trans (hsteady.queue.trans ?_), hrep.tokens.trans (hsteady.tokens.trans ?_),
      hrep.orders.trans (hsteady.orders.trans ?_), hrep.enable, hrep.mode, ?_⟩
    · rw [← ha]; rfl
    · rw [← ha]; rfl
    · rw [← ha]; rfl
    · rw [hrep.segs]
      refine (a.enterStopping_rail m.slot .sequence).trans ?_
      rw [← ha]
      rfl

end Sys2Proof.Machine
end


section
/-!
PROOFS. STALLED, EMPTY and CANCEL (R109, R110, R114 to R117, R120 to R122, R126 to R128), and the expiries of the back-off
and of the offer timer (R72, R74, R123, R124).
-/

open Sys2Proof Sys2Proof.Machine

namespace Sys2Proof.Machine

/-! ### What has been heard of a move (R36, R98) -/

section heard
variable {s : State} {k : SlotIx} {m : Move}

theorem State.moveOfBench_updateMove (s : State) (k : SlotIx) {w : Move → Move} (hw : ∀ x, (w x).bench = x.bench) (b : Nat) :
    (s.updateMove k w).moveOfBench b = (s.moveOfBench b).map fun x => if x.slot = k then w x else x := by
  unfold State.moveOfBench
  split
  · rfl
  · rw [State.updateMove_moves, List.find?_map]
    congr 1
    refine List.find?_congr fun x _ => ?_
    show ((if x.slot = k then w x else x).bench == b) = (x.bench == b)
    split
    · rw [hw]
    · rfl

theorem State.updateMove_updateMove (s : State) (k : SlotIx) {u w : Move → Move} (hu : ∀ x, (u x).slot = x.slot) :
    (s.updateMove k u).updateMove k w = s.updateMove k fun x => w (u x) := by
  unfold State.updateMove
  simp only [List.map_map]
  congr 1
  refine List.map_congr_left fun x _ => ?_
  show (if (if x.slot = k then u x else x).slot = k then w (if x.slot = k then u x else x)
    else if x.slot = k then u x else x) = if x.slot = k then w (u x) else x
  by_cases hx : x.slot = k
  · rw [if_pos hx, if_pos hx, if_pos ((hu x).trans hx)]
  · rw [if_neg hx, if_neg hx, if_neg hx]

/-- The change of another slot's move. -/
theorem State.updateMove_move_other (hm : s.move? k = some m) {i : SlotIx} (hne : k ≠ i) {w : Move → Move}
    (hw : ∀ x, (w x).slot = x.slot) : (s.updateMove i w).move? k = some m := by
  rw [State.move?_updateMove _ _ _ _ hw, hm, Option.map_some, if_neg hne]

theorem State.heard_frame (s : State) (b : Nat) : ∃ ms, s.heard b = { s with moves := ms } := by
  unfold State.heard
  split
  · exact ⟨_, rfl⟩
  · exact ⟨s.moves, rfl⟩

/-- A report heard of restarts at most a running silence. -/
theorem State.heard_move (hm : s.move? k = some m) (b : Nat) :
    (s.heard b).move? k = some m ∨ (s.heard b).move? k = some { m with silence := m.silence.restart s.silenceFull } := by
  unfold State.heard
  split
  · rename_i y _
    by_cases hy : k = y.slot
    · subst hy
      exact .inr (State.updateMove_move hm fun _ => rfl)
    · exact .inl (State.updateMove_move_other hm hy fun _ => rfl)
  · exact .inl hm

end heard

/-! ### STALLED (R109, R110, R120 to R122) -/

section stalled
variable {s : State} {addr : WordAddr} {tag : Word} {j : ReportIx} {m : Move}

theorem Move.standsOn_iff (m : Move) (g : Nat) : m.standsOn g = true ↔ g = m.seg m.t ∨ g = m.seg m.f := by
  simp [Move.standsOn]

theorem State.takeStall_holds (s : State) (hstalled : m.state ≠ .stalled) (hstopping : m.state ≠ .stopping) :
    s.takeStall m = s.stallMove m.slot := by
  unfold State.takeStall
  split
  · rfl
  · rfl
  · rfl
  · rfl
  · exact absurd ‹_› hstalled
  · exact absurd ‹_› hstopping

/-- An accepted STALLED of a managed bench: the stall, and what has been heard. -/
theorem carryStalled_managed (hb : (s.reportOf j).bench ≠ 0) (hconf : s.configured (s.reportOf j).segment = true)
    (hm : s.moveOfBench (s.reportOf j).bench = some m)
    (hg : (s.reportOf j).segment = m.seg m.t ∨ (s.reportOf j).segment = m.seg m.f) :
    carryReport (some .stalled) (s.reportOf j) (s.atReport addr tag j)
      = (((s.atReport addr tag j).takeStall m).heard (s.reportOf j).bench, .accepted) := by
  have hcarry : carryReport (some .stalled) (s.reportOf j) (s.atReport addr tag j)
      = hearing stalledReport (s.reportOf j).bench (s.reportOf j).segment (s.atReport addr tag j) :=
    checkedReport_of_configured (fun _ => hb) hconf
  rw [hcarry]
  refine hearing_of_accepted ?_
  unfold stalledReport
  rw [State.atReport_moveOfBench_look, hm]
  exact if_pos ((m.standsOn_iff _).2 hg)

end stalled

/-- A report accepted, whose judgement changes no segment and no notice: the state in full. -/
theorem State.reportRow_accepted {s u : State} {kind : Option ReportKind} {addr : WordAddr} {tag : Word} {j : ReportIx}
    (h : s.TakesReport kind addr tag j) (hu : carryReport kind (s.reportOf j) (s.atReport addr tag j) = (u, .accepted))
    (hsegs : u.segs = s.segs) :
    s.reportRow kind (carryReport kind) addr tag = { u with reports := s.reports.set j (s.takenReport j tag .accepted) } := by
  rw [State.reportRow_of_take h hu]
  exact State.announce_of_same_segs (before := s) (s := { u with reports := s.reports.set j (s.takenReport j tag .accepted) })
    hsegs

/-- Settles O33: the stall of a move that is held, the restart of a back-off, the restart of a silence, and nothing. -/
theorem stalledHoldsTheMoveOrRestartsItsBackoff : Obligations.StalledHoldsTheMoveOrRestartsItsBackoff := by
  refine ⟨fun addr tag s j m g hslot h hgs hb hconf hm hg hstalled hstopping => ?_,
    fun addr tag s j m g hslot h hgs hb hconf hm hg hstate => ?_,
    fun addr tag s j m g hslot h hgs hb hconf hm hg hstate => ?_, fun addr tag s j h hb hconf hnone => ?_⟩
  · subst hgs
    have hcarry := carryStalled_managed (addr := addr) (tag := tag) hb hconf hm hg
    obtain ⟨t, hexec, hrep⟩ : ∃ t, exec (.stalled addr tag) s = .next t ∧ s.Reported addr tag j .accepted
        (((s.atReport addr tag j).takeStall m).heard (s.reportOf j).bench) t :=
      ⟨_, rfl, State.reportRow_reported h hcarry⟩
    generalize ha : s.atReport addr tag j = a at *
    have hmove : a.move? m.slot = some m := by rw [← ha]; exact State.move?_of_moveOfBench hslot hm
    obtain ⟨ms, hheard⟩ := (a.takeStall m).heard_frame (s.reportOf j).bench
    have hstall : a.takeStall m = (a.quit m.slot a.stalled).notify .stall := by
      rw [State.takeStall_holds a hstalled hstopping, State.stallMove_eq]
    have hsteady : Steady a (a.takeStall m) := by
      rw [State.takeStall_holds a hstalled hstopping]
      exact a.stallMove_steady m.slot
    obtain ⟨x, hx⟩ := State.quit_move (w := a.stalled) hmove fun _ => rfl
    obtain ⟨ht, hf, hh, hroute, hretries, htoken, hshed, hgrid⟩ := m.restored_kept
    have hbackoff : a.startTimer a.backoffFull = s.startTimer s.backoffFull := by rw [← ha]; rfl
    have hx' : (a.takeStall m).move? m.slot = some { a.stalled m.restored with lane := x } := by
      rw [hstall]
      exact hx
    have hfields : ∃ y, ((a.takeStall m).heard (s.reportOf j).bench).move? m.slot = some y
        ∧ y = { a.stalled m.restored with lane := x } := by
      rcases State.heard_move hx' (s.reportOf j).bench with e | e
      · exact ⟨_, e, rfl⟩
      · exact ⟨_, e, rfl⟩
    obtain ⟨y, hy, hyeq⟩ := hfields
    refine ⟨t, hexec, hrep.reports, ⟨y, by rw [hrep.move]; exact hy, ?_⟩, fun g hg => ?_, hrep.quits ?_, ?_, ?_⟩
    · rw [hyeq]
      exact ⟨rfl, ht, hf, hh, rfl, hbackoff, rfl, hshed, hgrid, htoken, hretries, hroute⟩
    · rw [hrep.holder, hheard, hstall]
      exact State.quit_holder (s := a) (w := a.stalled) hmove hg
    · have hquit : a.QuitsLane m (a.quit m.slot a.stalled) := State.quit_lane hmove fun _ => ⟨rfl, rfl⟩
      have hs : s.QuitsLane m (a.quit m.slot a.stalled) := hquit.of_same (by rw [← ha]; rfl) (by rw [← ha]; rfl)
        (by rw [← ha]; rfl) rfl rfl
      refine hs.mono (by rw [hheard, hstall]; rfl) (fun m' hm' => ⟨y, hy, ?_⟩) fun n hn => ?_
      · rw [hx] at hm'
        injection hm' with hm'
        rw [hyeq, ← hm']
      · rw [hheard, hstall]
        exact ((a.quit m.slot a.stalled).notify_steady .stall).notices n hn
    · refine hrep.latched _ ?_
      rw [hheard, hstall]
      exact (a.quit m.slot a.stalled).notify_latched .stall
    · refine ⟨hrep.queue.trans ?_, hrep.tokens.trans ?_, hrep.orders.trans ?_, hrep.enable, hrep.mode, hrep.frame, hrep.mem, ?_⟩
      · rw [hheard]
        exact hsteady.queue.trans (by rw [← ha]; rfl)
      · rw [hheard]
        exact hsteady.tokens.trans (by rw [← ha]; rfl)
      · rw [hheard]
        exact hsteady.orders.trans (by rw [← ha]; rfl)
      · rw [hrep.segs, hheard, hstall]
        refine (a.quit_rail m.slot a.stalled).trans ?_
        rw [← ha]
        rfl
  · subst hgs
    have hcarry := carryStalled_managed (addr := addr) (tag := tag) hb hconf hm hg
    have htake : (s.atReport addr tag j).takeStall m = (s.atReport addr tag j).stallAgain m.slot := by
      rw [State.takeStall, hstate]
    have hbench : ((s.atReport addr tag j).stallAgain m.slot).moveOfBench (s.reportOf j).bench
        = some { m with backoff := s.startTimer s.backoffFull } := by
      refine ((s.atReport addr tag j).moveOfBench_updateMove m.slot (w := fun x =>
        { x with backoff := s.startTimer s.backoffFull }) (fun _ => rfl) _).trans ?_
      rw [State.atReport_moveOfBench_look, hm, Option.map_some, if_pos rfl]
    rw [htake, State.heard_of_move hbench] at hcarry
    refine congrArg Host.Outcome.next ((State.reportRow_accepted h hcarry rfl).trans ?_)
    have htwo := (s.atReport addr tag j).updateMove_updateMove m.slot
      (u := fun x => { x with backoff := s.startTimer s.backoffFull })
      (w := fun x => { x with silence := x.silence.restart s.silenceFull }) fun _ => rfl
    exact congrArg (fun v : State => { s.tookReport addr tag j .accepted with
      moves := v.moves, notices := s.notices ||| Notice.mask .stall }) htwo
  · subst hgs
    have hcarry := carryStalled_managed (addr := addr) (tag := tag) hb hconf hm hg
    have htake : (s.atReport addr tag j).takeStall m = s.atReport addr tag j := by
      rw [State.takeStall, hstate]
    have hbench : (s.atReport addr tag j).moveOfBench (s.reportOf j).bench = some m := hm
    rw [htake, State.heard_of_move hbench] at hcarry
    exact congrArg Host.Outcome.next (State.reportRow_accepted h hcarry rfl)
  · have hcarry : carryReport (some .stalled) (s.reportOf j) (s.atReport addr tag j)
        = (s.atReport addr tag j, .unmanaged) := by
      refine (checkedReport_of_configured (judge := hearing stalledReport) (named := true) (s := s.atReport addr tag j)
        (fun _ => hb) hconf).trans (hearing_of_other (x := .unmanaged) ?_ (by decide))
      unfold stalledReport
      rw [State.atReport_moveOfBench_look, hnone]
    exact congrArg Host.Outcome.next (State.reportRow_taken h (by simp) hcarry)

/-! ### EMPTY (R114 to R117) -/

theorem State.seg?_id {s : State} {g : Nat} {r : Segment} (h : s.seg? g = some r) : r.id = g := (State.seg?_some h).1

theorem carryEmpty_eq {s : State} {addr : WordAddr} {tag : Word} {j : ReportIx} {r : Segment}
    (hr : s.seg? (s.reportOf j).segment = some r) :
    carryReport (some .empty) (s.reportOf j) (s.atReport addr tag j)
      = emptyReport (s.reportOf j).bench (s.reportOf j).segment (s.atReport addr tag j) :=
  checkedReport_of_configured (judge := emptyReport) (named := false) (s := s.atReport addr tag j)
    (fun h => absurd h (by decide)) (State.configured_of_seg hr)

/-- Settles O37: under a managed bench the survey, the fence and the stop; without one the first row of Table 5.8 that
fits. -/
theorem emptyByTheSegmentCondition : Obligations.EmptyByTheSegmentCondition := by
  refine ⟨fun addr tag s j r m hslot h hr hocc => ?_, fun addr tag s j r h hr hnone u hu => ?_⟩
  · have hid := State.seg?_id hr
    obtain ⟨b, hmb⟩ : ∃ b, s.moveOfBench b = some m := by
      unfold State.moveOfOccupant at hocc
      split at hocc
      · exact ⟨_, hocc⟩
      · cases hocc
      · cases hocc
    have hmove : s.move? m.slot = some m := State.move?_of_moveOfBench hslot hmb
    generalize hv : (((s.atReport addr tag j).survey (s.reportOf j).segment).setFence [(s.reportOf j).segment]
      .vanished).notify .vanished = v
    have hcarry : carryReport (some .empty) (s.reportOf j) (s.atReport addr tag j)
        = (v.enterStopping m.slot .vanished, .accepted) := by
      rw [carryEmpty_eq hr]
      unfold emptyReport
      rw [State.atReport_seg_look, hr]
      dsimp only
      rw [State.atReport_moveOfOccupant_look, hocc, ← hv]
      rfl
    obtain ⟨t, hexec, hrep⟩ : ∃ t, exec (.empty addr tag) s = .next t ∧ s.Reported addr tag j .accepted
        (v.enterStopping m.slot .vanished) t := ⟨_, rfl, State.reportRow_reported h hcarry⟩
    have hmove' : v.move? m.slot = some m := by rw [← hv]; exact hmove
    have hlanes : v.lanes = s.lanes := by rw [← hv]; rfl
    have hsteady := v.enterStopping_steady m.slot .vanished
    have hnote : v.latched .vanished = true := by
      rw [← hv]
      exact State.notify_latched _ .vanished
    have hrail : v.segs.map Segment.rail = s.segs.map fun x =>
        if x.id = r.id then (true, some FenceCause.vanished, x.occupant) else x.rail := by
      have htwo := (s.atReport addr tag j).updateSegs_updateSegs [(s.reportOf j).segment]
        (fun x => { x with surveyed := true }) (fun x => { x with fence := some .vanished }) fun _ => rfl
      have hsegs : v.segs = s.segs.map fun x =>
          if x.id ∈ [(s.reportOf j).segment] then { x with surveyed := true, fence := some .vanished } else x := by
        rw [← hv]
        exact congrArg State.segs htwo
      rw [hsegs, List.map_map]
      refine List.map_congr_left fun x _ => ?_
      show (if x.id ∈ [(s.reportOf j).segment] then _ else x).rail = _
      rw [hid]
      by_cases hx : x.id = (s.reportOf j).segment
      · rw [if_pos hx, if_pos (by simp [hx])]
      · rw [if_neg hx, if_neg (by simp [hx])]
    obtain ⟨m', hm', hstops, hsame⟩ := State.enterStopping_stops hmove' .vanished
    refine ⟨t, hexec, hrep.reports, hrep.latched _ (hsteady.notices _ hnote), ?_, ⟨m', by rw [hrep.move]; exact hm', ?_, hsame⟩,
      fun hs g hg => ?_, fun hs => ?_, fun hs => ?_, ?_⟩
    · rw [hrep.segs]
      exact (v.enterStopping_rail m.slot .vanished).trans hrail
    · rw [← hv] at hstops
      exact hstops
    · rw [hrep.holder]
      exact State.enterStopping_holder hmove' hs hg
    · rw [hrep.lanes, State.enterStopping_again v m.slot _ m hmove' hs, hlanes]
    · exact hrep.quits ((State.enterStopping_quits hmove' hs _).of_same hlanes (by rw [← hv]; rfl) (by rw [← hv]; rfl) rfl rfl)
    · refine ⟨hrep.queue.trans (hsteady.queue.trans ?_), hrep.tokens.trans (hsteady.tokens.trans ?_),
        hrep.orders.trans (hsteady.orders.trans ?_), hrep.enable, hrep.mode, hrep.frame, hrep.mem⟩ <;> rw [← hv] <;> rfl
  · have hid := State.seg?_id hr
    have hcarry : carryReport (some .empty) (s.reportOf j) (s.atReport addr tag j)
        = ({ (s.atReport addr tag j).updateSegs [(s.reportOf j).segment] r.emptied with
            notices := s.notices ||| r.vanishNotice }, .accepted) :=
      (carryEmpty_eq hr).trans (emptyReport_unmanaged (s := s.atReport addr tag j) (by rw [State.atReport_seg_look, hr])
        (by rw [State.atReport_moveOfOccupant_look, hnone]) _)
    have hrow : s.reportRow (some .empty) carryEmpty addr tag = s.announce u := by
      refine (State.reportRow_of_take h hcarry).trans ?_
      rw [hu, hid]
      unfold State.updateSegs
      simp only [List.mem_singleton]
      rfl
    obtain ⟨⟨t, ht, hframe, hasks, -⟩, hquiet⟩ := State.announce_segs (s := s) (u := u) (by rw [hu]; rfl)
    show (∃ t, Host.Outcome.next (s.reportRow (some .empty) carryEmpty addr tag) = .next t ∧ _)
      ∧ (_ → Host.Outcome.next (s.reportRow (some .empty) carryEmpty addr tag) = _)
    rw [hrow]
    exact ⟨⟨t, ht, hframe, hasks⟩, hquiet⟩

end Sys2Proof.Machine
end


section
/-!
PROOFS. CANCEL (R126 to R128), and the expiries of the back-off and of the offer timer (R72, R74, R123, R124).
-/

open Sys2Proof Sys2Proof.Machine

namespace Sys2Proof.Machine

/-! ### CANCEL (R126 to R128) -/

theorem cancelOrder_of_target {k i : SlotIx} {o : OrderRecord} (hi : i.val = o.target) (s : State) :
    cancelOrder k o s = match s.link i with
      | .queueEntry _ => ((s.unqueue i).setVerdict i (.cancelled 0)).applied k
      | .tableEntry _ => (s.enterStopping i .cancel).applied k
      | .absent => s.refuse k .notLive := by
  obtain ⟨n, hn⟩ := i
  dsimp only at hi
  subst hi
  unfold cancelOrder
  exact dif_pos hn

theorem orders_set_get (a : Vector OrderSlot 32) (k x : SlotIx) (o : OrderSlot) :
    (a.set k o)[x] = if x = k then o else a[x] := by
  split
  · rename_i h
    subst h
    exact orders_set_get_same a x o
  · rename_i h
    have hne : (k : Nat) ≠ x := fun e => h (Fin.ext e.symm)
    simp [Fin.getElem_fin, Vector.getElem_set_ne _ _ hne]

/-- Settles O24: by the link of the target slot. -/
theorem cancelByTheTargetState : Obligations.CancelByTheTargetState := by
  intro addr tag s k h
  refine ⟨fun hrange => ?_, fun i hi => ⟨fun hlive => ?_, fun q hm hq => ?_, fun m hm hs => ?_, fun m hm hs => ?_⟩⟩
  · exact congrArg Host.Outcome.next (State.orderRow_refused h (dif_neg (Nat.not_lt.2 hrange)))
  · refine congrArg Host.Outcome.next (State.orderRow_refused h ((cancelOrder_of_target hi _).trans ?_))
    rw [State.tookOrder_link_look, State.link_of_not_live hlive]
  · have hne : i ≠ k := by
      rintro rfl
      have hlive := h.2.1
      rw [State.live, hq, Option.isSome_some, Bool.or_true] at hlive
      cases hlive
    have hval : (i : Nat) ≠ k := fun e => hne (Fin.ext e)
    have hcarry : cancelOrder k (s.orderOf k) (s.tookOrder addr tag k .free)
        = { s.tookOrder addr tag k .applied with
            queue := s.queue.filter fun x => x.slot ≠ i
            orders := (s.tookOrder addr tag k .applied).orders.set i { s.orders[i] with verdict := .cancelled 0 } } := by
      rw [cancelOrder_of_target hi, State.tookOrder_link_look, State.link_of_queued hm hq]
      dsimp only
      unfold State.applied State.setVerdict State.updateOrder State.unqueue State.tookOrder
      dsimp only
      congr 1
      rw [orders_set_get, if_neg hne, orders_set_get, if_neg (Ne.symm hne), orders_set_get_same,
        Vector.set_comm _ _ hval, Vector.set_set]
      rfl
    show Host.Outcome.next (s.orderRow _ cancelOrder addr tag) = _
    rw [State.orderRow_of_take h, hcarry]
    exact congrArg Host.Outcome.next (State.announce_of_same_segs rfl)
  · refine congrArg Host.Outcome.next (State.orderRow_applied h ((cancelOrder_of_target hi _).trans ?_))
    rw [State.tookOrder_link_look, State.link_of_move hm]
    exact congrArg (State.applied · k) (State.enterStopping_again _ i _ m hm hs)
  · generalize ha : s.tookOrder addr tag k .free = a
    have hmove : a.move? i = some m := by rw [← ha, State.tookOrder_move_look, hm]
    have hlanes : a.lanes = s.lanes := by rw [← ha]; rfl
    have hrail : a.segs = s.segs := by rw [← ha]; rfl
    have hsteady := a.enterStopping_steady i .cancel
    have hcarry : cancelOrder k (s.orderOf k) a = (a.enterStopping i .cancel).applied k := by
      rw [cancelOrder_of_target hi, State.link_of_move hmove]
    have horders : (a.enterStopping i .cancel).orders = s.orders.set k (s.takenSlot k tag .free) :=
      hsteady.orders.trans (by rw [← ha]; rfl)
    have hexec : exec (.cancel addr tag) s = .next (s.announce ((a.enterStopping i .cancel).applied k)) := by
      rw [← hcarry, ← ha]
      exact congrArg Host.Outcome.next (State.orderRow_of_take h _)
    obtain ⟨x, b, ht⟩ := s.announce_eq ((a.enterStopping i .cancel).applied k)
    rw [State.applied_of_took (s := s) horders] at ht hexec
    obtain ⟨m', hm', hstops, -⟩ := State.enterStopping_stops hmove .cancel
    obtain ⟨hstate, hreason, htt, hf, hh, hback, hyield, hsilence, hroute, hretries, -⟩ := hstops.1 hs
    have hfull : a.startTimer a.silenceFull = s.startTimer s.silenceFull := by rw [← ha]; rfl
    have hsame : s.SameFrame (a.enterStopping i .cancel) := by
      have hframe := hsteady.toKept.sameFrame
      rw [← ha] at hframe ⊢
      exact hframe
    have hquit := State.enterStopping_quits hmove hs .cancel
    have hquits : s.QuitsLane m (a.enterStopping i .cancel) :=
      hquit.of_same hlanes (by rw [← ha]; rfl) (by rw [← ha]; rfl) rfl rfl
    have hholder : ∀ g ∈ m.span (m.f + 1) m.h, (a.enterStopping i .cancel).holder g ≠ some i := fun g hg =>
      State.enterStopping_holder hmove hs hg
    have hmap := (a.enterStopping_rail i .cancel).trans (congrArg (List.map Segment.rail) hrail)
    have hqueue : (a.enterStopping i .cancel).queue = s.queue := hsteady.queue.trans (by rw [← ha]; rfl)
    have htokens : (a.enterStopping i .cancel).tokens = s.tokens := hsteady.tokens.trans (by rw [← ha]; rfl)
    have hmode : (a.enterStopping i .cancel).mode = s.mode := hsteady.mode.trans (by rw [← ha]; rfl)
    have hreports : (a.enterStopping i .cancel).reports = s.reports := hsteady.reports.trans (by rw [← ha]; rfl)
    have henable : (a.enterStopping i .cancel).enable = s.enable := hsteady.enable.trans (by rw [← ha]; rfl)
    rw [ht] at hexec
    generalize a.enterStopping i .cancel = v at *
    exact ⟨_, hexec, rfl, ⟨m', hm', hstate, hreason, htt, hf, hh, hback, hyield, hsilence.trans hfull, hretries, hroute⟩,
      hholder, hquits.mono rfl (fun y hy => ⟨y, hy, rfl⟩) (fun _ hn => hn), hqueue, htokens, hmode, hreports, henable, hsame,
      hmap⟩

/-! ### The back-off (R123, R124) -/

section backoff
variable {s : State} {k : SlotIx} {m : Move}

/-- What an expiry leaves, announced: the same but for what is asked for and the arbiter. -/
theorem State.announced_fields (before v : State) : (before.announce v).lanes = v.lanes ∧ (before.announce v).segs = v.segs
    ∧ (before.announce v).moves = v.moves ∧ (before.announce v).notices = v.notices ∧ (before.announce v).orders = v.orders
    ∧ (before.announce v).queue = v.queue ∧ (before.announce v).mem = v.mem
    ∧ (before.announce v).reports = v.reports ∧ (before.announce v).enable = v.enable
    ∧ (before.announce v).mode = v.mode := by
  obtain ⟨x, a, h⟩ := before.announce_eq v
  rw [h]
  exact ⟨rfl, rfl, rfl, rfl, rfl, rfl, rfl, rfl, rfl, rfl⟩

/-- What the request for the rest of a crossing leaves of a move: its state, its retries, its back-off and its front. -/
abbrev Move.waiting (m : Move) : Nat × Nat × Nat × Timer × MoveState × Option LaneIx :=
  (m.t, m.f, m.retries, m.backoff, m.state, m.lane)

theorem State.resumeCrossing_move (hm : s.move? k = some m) (l : LaneIx) :
    ∃ y, (s.resumeCrossing l).move? k = some y ∧ y.waiting = m.waiting := by
  unfold State.resumeCrossing
  split
  · rename_i x e _
    split
    · by_cases hx : k = x.slot
      · subst hx
        exact ⟨_, State.updateMove_move (s := s.hold x.slot (x.span (x.h + 1) e)) hm fun _ => rfl, rfl⟩
      · exact ⟨m, State.updateMove_move_other (s := s.hold x.slot (x.span (x.h + 1) e)) hm hx fun _ => rfl, rfl⟩
    · exact ⟨m, hm, rfl⟩
  · exact ⟨m, hm, rfl⟩

theorem State.resumeCrossing_lanes (s : State) (l : LaneIx) : (s.resumeCrossing l).lanes = s.lanes := by
  unfold State.resumeCrossing
  split
  · split <;> rfl
  · rfl

theorem State.backoffExpiry_eq (hm : s.move? k = some m) (hs : m.state = .stalled) (hr : m.backoff.isRunning = true) :
    s.backoffExpiry k = if m.retries = 0 then s.enterStopping k .stallLimit else s.retryMove k := by
  rw [State.backoffExpiry, hm]
  dsimp only
  rw [if_pos (by simp [hs, hr])]

end backoff

/-- Settles O39: by the retries left and by whether the move is on an entered crossing. -/
theorem backoffExpiryRetriesOrStops : Obligations.BackoffExpiryRetriesOrStops := by
  intro s k m hslot hm hs hrunning
  have hexec : exec (.backoffExpiry k) s = .next (s.announce (s.backoffExpiry k)) := rfl
  have hframe : s.SameFrame (s.announce (s.backoffExpiry k)) :=
    ((State.announce_steady _ _).after (s.backoffExpiry_steady k)).toKept.sameFrame
  have horders : (s.announce (s.backoffExpiry k)).orders = s.orders :=
    ((State.announce_steady _ _).after (s.backoffExpiry_steady k)).orders
  have hmem : (s.announce (s.backoffExpiry k)).mem = s.mem :=
    ((State.announce_steady _ _).after (s.backoffExpiry_steady k)).mem
  have heq := State.backoffExpiry_eq hm hs hrunning
  obtain ⟨hlanes, -, hmoves, hnotices, -⟩ := s.announced_fields (s.backoffExpiry k)
  refine ⟨fun hzero => ?_, fun hleft hnone => ?_, fun hleft hsome => ?_⟩
  · rw [if_pos hzero] at heq
    have hne : m.state ≠ .stopping := by rw [hs]; decide
    obtain ⟨m', hm', hstops, -⟩ := State.enterStopping_stops hm .stallLimit
    obtain ⟨hstate, hreason, ht, hf, hh, hback, -, hsilence, -⟩ := hstops.1 hne
    rw [← heq] at hm'
    have hquit := State.enterStopping_quits hm hne .stallLimit
    rw [← heq] at hquit
    have hmove : (s.announce (s.backoffExpiry k)).move? k = some m' := by rw [State.move?, hmoves]; exact hm'
    refine ⟨_, hexec, ⟨m', hmove, hstate, hreason, hback, hsilence, ht, hf, hh⟩,
      hquit.mono hlanes (fun y hy => ⟨y, ?_, rfl⟩) (fun n hn => ?_), hmem, horders, hframe⟩
    · rw [State.move?, hmoves]
      exact hy
    · rw [State.latched, hnotices]
      exact hn
  · rw [if_neg hleft] at heq
    have hretry : s.retryMove k = ({ s with moves := s.moves.map fun (x : Move) =>
        if x.slot = k then { x with retries := x.retries - 1, backoff := .stopped, state := s.indexState x }
        else x } : State).trigger := by
      rw [State.retryMove, hnone]
      have htwo := s.updateMove_updateMove k (u := fun m => { m with retries := m.retries - 1, backoff := .stopped })
        (w := fun x => { x with state := s.indexState x }) fun _ => rfl
      exact congrArg State.trigger htwo
    rw [hexec, heq, hretry]
    exact congrArg Host.Outcome.next (State.announce_of_same_segs (State.trigger_segs _))
  · rw [if_neg hleft] at heq
    obtain ⟨l, hl⟩ := Option.ne_none_iff_exists'.1 hsome
    generalize hv : (s.updateMove k fun m => { m with retries := m.retries - 1, backoff := .stopped }).updateMove k
      (fun m => { m with state := .crossing }) = v at *
    have hretry : s.retryMove k = (v.resumeCrossing l).trigger := by
      rw [State.retryMove, hl, ← hv]
    have hmv : v.move? k = some { m with retries := m.retries - 1, backoff := .stopped, state := .crossing } := by
      rw [← hv]
      have hone := State.updateMove_move hm
        (w := fun m => { m with retries := m.retries - 1, backoff := .stopped }) fun _ => rfl
      exact State.updateMove_move hone (w := fun m => { m with state := .crossing }) fun _ => rfl
    obtain ⟨y, hy, hwait⟩ := State.resumeCrossing_move hmv l
    simp only [Prod.mk.injEq] at hwait
    obtain ⟨ht, hf, hretries, hback, hstate, hlane⟩ := hwait
    refine ⟨_, hexec, ⟨y, ?_, hretries, hback, hstate, ht, hf, hlane⟩, ?_, ?_, hmem, horders, hframe⟩
    · rw [State.move?, hmoves, heq, hretry]
      rwa [State.trigger_moves]
    · refine State.announce_keeps_triggered ?_
      rw [heq, hretry]
      exact State.trigger_triggered _
    · rw [hlanes, heq, hretry, State.trigger_lanes, State.resumeCrossing_lanes, ← hv]
      rfl

end Sys2Proof.Machine
end


section
/-!
PROOFS. The lapses of the offer timer (R72, R74) and the berths that wait (R67).
-/

open Sys2Proof Sys2Proof.Machine

namespace Sys2Proof.Machine

/-! ### The next berth that waits (R67) -/

theorem berths_eq : ([0, 1, 2, 3, 4, 5, 6, 7] : List BerthIx) = List.finRange 8 := by decide

theorem Lane.waits_iff {ln : Lane} {start : Nat} (j : BerthIx) :
    (decide (start ≤ j.val) && decide (j.val < ln.berthCount) && !ln.lists[j].isEmpty) = true
      ↔ start ≤ j.val ∧ j.val < ln.berthCount ∧ ln.lists[j] ≠ [] := by
  simp [and_assoc]

theorem Lane.nextBerth_some {ln : Lane} {start : Nat} {j : BerthIx} (h : ln.nextBerth start = some j) :
    start ≤ j.val ∧ j.val < ln.berthCount ∧ ln.lists[j] ≠ [] ∧ ∀ i : BerthIx, start ≤ i.val → i < j → ln.lists[i] = [] := by
  unfold Lane.nextBerth at h
  rw [berths_eq, List.find?_eq_some_iff_getElem] at h
  obtain ⟨hj, n, hn, rfl, hbefore⟩ := h
  obtain ⟨hstart, hcount, hne⟩ := (Lane.waits_iff _).1 hj
  refine ⟨hstart, hcount, hne, fun i hi hlt => ?_⟩
  rw [List.getElem_finRange] at hlt hcount
  have hin : i.val < n := hlt
  have hget : (List.finRange 8)[i.val]'(hin.trans hn) = i := by
    rw [List.getElem_finRange]
    rfl
  have hno := hbefore i.val hin
  rw [hget] at hno
  by_contra hwaits
  rw [(Lane.waits_iff (ln := ln) (start := start) i).2 ⟨hi, lt_trans hlt hcount, hwaits⟩] at hno
  cases hno

theorem Lane.nextBerth_none {ln : Lane} {start : Nat} (h : ln.nextBerth start = none) :
    ∀ i : BerthIx, start ≤ i.val → i.val < ln.berthCount → ln.lists[i] = [] := by
  intro i hi hcount
  unfold Lane.nextBerth at h
  rw [berths_eq, List.find?_eq_none] at h
  by_contra hwaits
  exact h i (List.mem_finRange i) ((Lane.waits_iff i).2 ⟨hi, hcount, hwaits⟩)

/-! ### The offer lapses (R72) -/

section lapse
variable {s : State} {l : LaneIx} {k : SlotIx} {m : Move}

/-- An advance in full: its lane, and the stand-off latched. -/
theorem State.advanceLane_full (s : State) (l : LaneIx) : s.advanceLane l = { s with
    lanes := s.lanes.set l (s.advanceLane l).lanes[l]
    notices := if s.lanes[l].standsOff s.timing.lanes[l].strictOrder then s.notices ||| Notice.mask .laneStandoff
      else s.notices } := by
  rw [s.advanceLane_lane l, State.advanceLane_eq]
  rfl

theorem State.updateLane_advanceLane (s : State) (l : LaneIx) (w : Lane → Lane) : (s.updateLane l w).advanceLane l = { s with
    lanes := s.lanes.set l ((s.updateLane l w).advanceLane l).lanes[l]
    notices := if (w s.lanes[l]).standsOff s.timing.lanes[l].strictOrder then s.notices ||| Notice.mask .laneStandoff
      else s.notices } := by
  have h := (s.updateLane l w).advanceLane_full l
  rw [State.updateLane_get_same] at h
  have hset : (s.updateLane l w).lanes.set l ((s.updateLane l w).advanceLane l).lanes[l]
      = s.lanes.set l ((s.updateLane l w).advanceLane l).lanes[l] := Vector.set_set ..
  exact h.trans (congrArg (fun x : Vector Lane 4 => ({ s with
    lanes := x
    notices := if (w s.lanes[l]).standsOff s.timing.lanes[l].strictOrder then s.notices ||| Notice.mask .laneStandoff
      else s.notices } : State)) hset)

theorem rotateHead_eq (q : List SlotIx) : rotateHead q = match q with
    | [] => []
    | head :: rest => rest ++ [head] := by
  cases q <;> rfl

end lapse

/-- A grant not entered is taken back: the record of its lane goes, and its move waits again (R74). -/
theorem State.revokeGrant_eq {s : State} {l : LaneIx} {k : SlotIx} (h : s.lanes[l].crossing = some ⟨k, false⟩) :
    s.revokeGrant l = ((s.restore k).updateMove k fun m => { m with state := .laneWait }).updateLane l fun ln =>
      { ln with
        crossing := none
        offerTimer := .stopped
        lists := ln.lists.set ln.berth (ln.lists[ln.berth] ++ [k]) } := by
  rw [State.revokeGrant, h]

/-- Settles O40: both lapses change their lane and then advance it. -/
theorem offerTimerLapses : Obligations.OfferTimerLapses := by
  refine ⟨fun s l hstate hrun => ?_, fun ln start => ⟨fun j => Lane.nextBerth_some, Lane.nextBerth_none⟩,
    fun s l k m hstate hrec hrun hm hfh => ?_⟩
  · generalize hw : (fun ln : Lane => { ln with
      offerTimer := .stopped, lists := ln.lists.set ln.berth (rotateHead ln.lists[ln.berth]) }) = w
    have hlapse : s.offerLapse l = (s.updateLane l w).advanceLane l := by
      rw [State.offerLapse, if_pos ⟨hstate, hrun⟩, ← hw]
    have hfull := s.updateLane_advanceLane l w
    have hgives := (s.updateLane l w).advanceLane_givesUp l
    rw [State.updateLane_get_same] at hgives
    have hexec : exec (.offerLapse l) s = .next ((s.updateLane l w).advanceLane l) := by
      rw [← hlapse]
      refine congrArg Host.Outcome.next (State.announce_of_same_segs ?_)
      rw [hlapse, hfull]
    refine ⟨_, hexec, w s.lanes[l], ?_, (hgives.of_same (s := s) rfl rfl).1, hfull⟩
    rw [← hw]
    exact congrArg (fun q => { s.lanes[l] with
      offerTimer := .stopped, lists := s.lanes[l].lists.set s.lanes[l].berth q }) (rotateHead_eq _)
  · generalize hw : (fun ln : Lane => { ln with
      crossing := none, offerTimer := .stopped, lists := ln.lists.set ln.berth (ln.lists[ln.berth] ++ [k]) }) = w
    generalize hv : (s.restore k).updateMove k (fun m => { m with state := .laneWait }) = v
    have hawaits : s.lanes[l].awaitsEntry = true := by
      rw [Lane.awaitsEntry, hrec]
      rfl
    have hlapse : s.entryDeadlineLapse l = (v.updateLane l w).advanceLane l := by
      rw [State.entryDeadlineLapse, if_pos ⟨hstate, hrun, hawaits⟩, State.revokeGrant_eq hrec, ← hv, ← hw]
    obtain ⟨hlanes, htiming, hmode, hnotices⟩ := s.restore_same k
    have hvl : v.lanes = s.lanes := by rw [← hv]; exact hlanes
    have hvt : v.timing = s.timing := by rw [← hv]; exact htiming
    have hvm : v.mode = s.mode := by rw [← hv]; exact hmode
    have hvn : v.notices = s.notices := by rw [← hv]; exact hnotices
    have hmove : v.move? k = some { m.restored with state := .laneWait } := by
      rw [← hv]
      exact State.updateMove_move (s.restore_move k m hm) (w := fun m => { m with state := .laneWait }) fun _ => rfl
    have hheld : ∀ g ∈ m.span (m.f + 1) m.h, v.holder g ≠ some k := by
      intro g hg
      rw [← hv, State.updateMove_holder_look, State.restore_holder hm]
      split
      · simp
      · rename_i hno
        exact fun e => hno ⟨hg, e⟩
    have hfull := v.updateLane_advanceLane l w
    have hgives := (v.updateLane l w).advanceLane_givesUp l
    rw [State.updateLane_get_same, hvl] at hgives
    have hsteady := (State.announce_steady s _).after (s.entryDeadlineLapse_steady l)
    obtain ⟨tlanes, tsegs, tmoves, tnotices, -⟩ := s.announced_fields (s.entryDeadlineLapse l)
    replace tlanes := tlanes.trans ((congrArg State.lanes hlapse).trans (congrArg State.lanes hfull))
    replace tsegs := tsegs.trans ((congrArg State.segs hlapse).trans (congrArg State.segs hfull))
    replace tmoves := tmoves.trans ((congrArg State.moves hlapse).trans (congrArg State.moves hfull))
    replace tnotices := tnotices.trans ((congrArg State.notices hlapse).trans (congrArg State.notices hfull))
    have hset : ∀ x : LaneIx, (s.announce (s.entryDeadlineLapse l)).lanes[x]
        = if x = l then ((v.updateLane l w).advanceLane l).lanes[l] else s.lanes[x] := by
      intro x
      rw [tlanes, lanes_set_get, hvl]
    have hrest : m.restored.t = m.t ∧ m.restored.f = m.f ∧ m.restored.h = m.f ∧ m.restored.silence = .stopped
        ∧ m.restored.lane = m.lane := by
      unfold Move.restored
      rw [if_neg (by omega)]
      exact ⟨rfl, rfl, rfl, rfl, rfl⟩
    obtain ⟨ht, hf, hh, hsil, hlane⟩ := hrest
    refine ⟨_, rfl, ⟨{ m.restored with state := .laneWait }, ?_, rfl, ht, hf, hh, hsil, hlane⟩,
      ⟨w s.lanes[l], by rw [← hw], ?_, ?_⟩, fun x hx => (hset x).trans (if_neg hx), fun g hg => ?_, hsteady.orders,
      hsteady.queue, hsteady.mem, hsteady.reports, hsteady.enable, hsteady.mode, hsteady.toKept.sameFrame⟩
    · show (s.announce (s.entryDeadlineLapse l)).move? k = _
      rw [State.move?, tmoves]
      exact hmove
    · exact ((hgives.of_same (s := s) hvt hvm).mono ((hset l).trans (if_pos rfl)) (fun n hn => by
        show (s.announce (s.entryDeadlineLapse l)).latched n = true
        rw [State.latched, tnotices]
        rw [State.latched, congrArg State.notices hfull] at hn
        exact hn)).1
    · show (s.announce (s.entryDeadlineLapse l)).notices = _
      rw [tnotices, hvl, hvt, hvn]
    · show (s.announce (s.entryDeadlineLapse l)).holder g ≠ some k
      rw [State.holder, State.seg?, tsegs]
      exact hheld g hg

end Sys2Proof.Machine
end


section
/-!
PROOFS. ARRIVED onto the next segment (R100, R101, R73, R48).
-/

open Sys2Proof Sys2Proof.Machine

namespace Sys2Proof.Machine

section advance
variable {s v : State} {m : Move} {g : Nat} {k : SlotIx}

/-- The front of a move goes one further (R101). -/
def State.fronted (s : State) (x : Move) : Move :=
  { x with
    f := x.f + 1
    shed := false
    silence := if x.f + 1 < x.h then x.silence.restart s.silenceFull else .stopped }

/-- The lanes after an advance: the crossing entered at its first cell (R73). -/
def State.frontLanes (s : State) (m : Move) (g : Nat) : Vector Lane 4 :=
  match m.lane with
  | some l => if s.isCell g && !s.isCell (m.seg m.f) then (s.enterCrossing l m.slot).lanes else s.lanes
  | none => s.lanes

theorem State.enterCrossing_eq (hlanes : v.lanes = s.lanes) (hmode : v.mode = s.mode) (htiming : v.timing = s.timing)
    (l : LaneIx) (k : SlotIx) : v.enterCrossing l k = { v with lanes := (s.enterCrossing l k).lanes } := by
  have hfull : v.startTimer (v.crossingFull l) = s.startTimer (s.crossingFull l) := by
    rw [State.startTimer, State.startTimer, State.crossingFull, State.crossingFull, htiming, hmode]
  unfold State.enterCrossing State.updateLane
  rw [hfull, hlanes]
  split
  · rfl
  · rw [← hlanes]

theorem State.advance_eq (s : State) (m : Move) (g : Nat) : s.advance m g
    = ({ (s.mark g m.bench).updateMove m.slot s.fronted with lanes := s.frontLanes m g } : State).settleProgress m.slot := by
  unfold State.advance State.frontLanes
  cases m.lane with
  | none => rfl
  | some l =>
    dsimp only
    by_cases hcond : (s.isCell g && !s.isCell (m.seg m.f)) = true
    · rw [if_pos hcond, if_pos hcond]
      exact congrArg (State.settleProgress · m.slot)
        (State.enterCrossing_eq (s := s) (v := (s.mark g m.bench).updateMove m.slot s.fronted) rfl rfl rfl l m.slot)
    · rw [if_neg hcond, if_neg hcond]
      rfl

/-- A move in MOVING or BLOCKED takes its state by R48, and is a trigger. -/
theorem State.settleProgress_eq {y : Move} (hy : v.move? k = some y) :
    v.settleProgress k = if y.eligible then (v.settleByIndices k).trigger else v := by
  rw [State.settleProgress, hy]

theorem State.settleProgress_frame (v : State) (k : SlotIx) :
    ∃ ms a, v.settleProgress k = { v with moves := ms, arbiter := a } := by
  unfold State.settleProgress
  split
  · split
    · obtain ⟨a, ha⟩ := (v.settleByIndices k).trigger_eq
      exact ⟨_, a, ha⟩
    · exact ⟨v.moves, v.arbiter, rfl⟩
  · exact ⟨v.moves, v.arbiter, rfl⟩

theorem State.settleProgress_move {y : Move} (hy : v.move? k = some y) : (v.settleProgress k).move? k
    = some (if y.eligible then { y with state := v.indexState y } else y) := by
  rw [State.settleProgress_eq hy]
  split
  · rw [State.trigger_move_look]
    exact State.updateMove_move hy fun _ => rfl
  · exact hy

theorem State.settleProgress_triggered {y : Move} (hy : v.move? k = some y) (he : y.eligible = true) :
    (v.settleProgress k).Triggered := by
  rw [State.settleProgress_eq hy, if_pos he]
  exact State.trigger_triggered _

/-- The state of R48 depends on the route, the indices and the cells alone. -/
theorem State.indexState_congr {x y : Move} (hcell : v.isCell = s.isCell) (hroute : x.route = y.route) (ht : x.t = y.t)
    (hf : x.f = y.f) (hh : x.h = y.h) : v.indexState x = s.indexState y := by
  unfold State.indexState State.tableState
  rw [hcell, Move.seg_congr hroute, hroute, ht, hf, hh]

theorem Timer.restart_restart (n : Nat) (x : Timer) : (x.restart n).restart n = x.restart n := by cases x <;> rfl

end advance

theorem State.isCell_of_config {s t : State} (h : t.segs.map Segment.config = s.segs.map Segment.config) :
    t.isCell = s.isCell := State.isCell_config h

/-- Settles O29: the mark, the front, the crossing entered, and the state of R48. -/
theorem arrivedAdvancesTheFront : Obligations.ArrivedAdvancesTheFront := by
  intro addr tag s j m g hslot h hgs hconf hm hheld htf hg
  subst hgs
  obtain ⟨hbench, -, -⟩ := State.moveOfBench_some hm
  have hmove : s.move? m.slot = some m := State.move?_of_moveOfBench hslot hm
  generalize hgseg : (s.reportOf j).segment = g at *
  generalize ha : s.atReport addr tag j = a
  have hlook : a.lanes = s.lanes ∧ a.mode = s.mode ∧ a.timing = s.timing ∧ a.segs = s.segs := by
    rw [← ha]
    exact ⟨rfl, rfl, rfl, rfl⟩
  obtain ⟨hal, ham, hat, has⟩ := hlook
  have hjudge : arrivedReport (s.reportOf j).bench g a = (a.advance m g, .accepted) := by
    unfold arrivedReport
    rw [show a.moveOfBench (s.reportOf j).bench = some m by rw [← ha]; exact hm]
    dsimp only
    rw [if_pos (show a.holder g = some m.slot by rw [← ha]; exact hheld), if_pos htf, if_pos hg]
  have hcarry : carryReport (some .arrived) (s.reportOf j) a
      = ((a.advance m g).heard (s.reportOf j).bench, .accepted) := by
    refine (checkedReport_of_configured (judge := hearing arrivedReport) (named := false) (s := a)
      (fun h => absurd h (by decide)) (by rw [hgseg, ← ha]; exact hconf)).trans ?_
    rw [hgseg]
    exact hearing_of_accepted hjudge
  obtain ⟨t, hexec, hrep⟩ : ∃ t, exec (.arrived addr tag) s = .next t ∧ s.Reported addr tag j .accepted
      ((a.advance m g).heard (s.reportOf j).bench) t :=
    ⟨_, rfl, State.reportRow_reported h (ha ▸ hcarry)⟩
  have hsteady := a.advance_steady m g
  obtain ⟨ms, hheard⟩ := (a.advance m g).heard_frame (s.reportOf j).bench
  generalize hv : ({ (a.mark g m.bench).updateMove m.slot a.fronted with lanes := a.frontLanes m g } : State) = v
  have hadv : a.advance m g = v.settleProgress m.slot := by rw [State.advance_eq, hv]
  have hmv : v.move? m.slot = some (a.fronted m) := by
    rw [← hv]
    exact State.updateMove_move (s := a.mark g m.bench) (by rw [← ha]; exact hmove) fun _ => rfl
  obtain ⟨ms', arb, hframe⟩ := v.settleProgress_frame m.slot
  have hmark : a.markOf g m.bench = s.markOf g m.bench := by rw [← ha]; exact State.atReport_markOf_look ..
  have hvsegs : v.segs = s.segs.map fun r =>
      if r.id = g then { r with occupant := some (s.markOf g (s.reportOf j).bench) } else r := by
    rw [← hv, ← hbench, ← hmark, ← has]
    show a.segs.map _ = _
    simp only [List.mem_singleton]
  have hcell : v.isCell = s.isCell := by
    refine State.isCell_of_config ?_
    rw [hvsegs]
    exact map_config_of_map fun r => by split <;> rfl
  have hlast := State.settleProgress_move hmv
  rw [← hadv] at hlast
  have helig : (a.fronted m).eligible = m.eligible := rfl
  have hindex : v.indexState (a.fronted m) = s.indexState { m with f := m.f + 1 } :=
    State.indexState_congr hcell rfl rfl rfl rfl
  have hfull : a.silenceFull = s.silenceFull := by rw [← ha]; rfl
  have hrestart : (a.advance m g).silenceFull = s.silenceFull := by
    rw [State.silenceFull, hsteady.timing, hat]
    rfl
  have hlanes : t.lanes = a.frontLanes m g := by
    rw [hrep.lanes, hheard, hadv, hframe, ← hv]
  refine ⟨t, hexec, hrep.reports, ?_, ?_, fun he => hrep.triggered ?_, fun hno => ?_, fun l hl hc hnc hst hrec => ?_, ?_⟩
  · rw [hrep.segs, hheard, hadv, hframe, hvsegs]
  · generalize hy : (if (a.fronted m).eligible = true then { a.fronted m with state := v.indexState (a.fronted m) }
      else a.fronted m) = y at hlast
    have hfields : y.f = m.f + 1 ∧ y.t = m.t ∧ y.h = m.h ∧ y.stack = m.stack ∧ y.shed = false ∧ y.route = m.route
        ∧ y.backoff = m.backoff
        ∧ y.silence = (if m.f + 1 < m.h then m.silence.restart s.silenceFull else .stopped)
        ∧ y.state = (if m.eligible then s.indexState { m with f := m.f + 1 } else m.state) := by
      rw [← hy, helig, hindex, ← hfull]
      split <;> exact ⟨rfl, rfl, rfl, rfl, rfl, rfl, rfl, rfl, rfl⟩
    obtain ⟨hf, ht, hh, hstack, hshed, hroute, hback, hsil, hstate⟩ := hfields
    rcases State.heard_move hlast (s.reportOf j).bench with e | e
    · exact ⟨y, by rw [hrep.move]; exact e, hf, ht, hh, hstack, hshed, hroute, hback, hsil, hstate⟩
    · refine ⟨_, (hrep.move _).trans e, hf, ht, hh, hstack, hshed, hroute, hback, ?_, hstate⟩
      dsimp only
      rw [hsil, hrestart]
      split
      · exact Timer.restart_restart _ _
      · rfl
  · rw [hheard]
    intro hrun
    exact (hadv ▸ State.settleProgress_triggered hmv (helig.trans he)) hrun
  · rw [hlanes, State.frontLanes, show a.isCell = s.isCell from State.isCell_of_config (by rw [has])]
    cases m.lane with
    | none => exact hal
    | some l =>
      dsimp only
      rw [if_neg ?_, hal]
      rcases hno with hno | hno <;> simp [hno]
  · rw [hlanes, State.frontLanes, show a.isCell = s.isCell from State.isCell_of_config (by rw [has]), hl]
    dsimp only
    rw [if_pos (by simp [hc, hnc]), State.enterCrossing]
    have hln : a.lanes[l] = s.lanes[l] := by rw [hal]
    have hcross : s.lanes[l].crosses m.slot = true := by
      rw [Lane.crosses, hrec]
      exact decide_eq_true rfl
    have hout : s.lanes[l].entered m.slot = false := by
      rw [Lane.entered, hrec]
      exact Bool.and_false _
    rw [hln, if_pos ⟨hst, hcross, hout⟩]
    rw [← ha]
    rfl
  · refine ⟨hrep.queue.trans ?_, hrep.tokens.trans ?_, hrep.orders.trans ?_, hrep.notices.trans ?_, hrep.enable, hrep.mode,
      hrep.frame, hrep.mem⟩
    · rw [hheard]
      exact hsteady.queue.trans (by rw [← ha]; rfl)
    · rw [hheard]
      exact hsteady.tokens.trans (by rw [← ha]; rfl)
    · rw [hheard]
      exact hsteady.orders.trans (by rw [← ha]; rfl)
    · show ((a.advance m g).heard _).notices = _
      rw [hheard, hadv, hframe, ← hv, ← ha]
      rfl

end Sys2Proof.Machine
end


section
/-!
PROOFS. An intrusion on a lane, by the lane's state (R81 to R84), and a stop beside it (R103 to R105).
-/

open Sys2Proof Sys2Proof.Machine

namespace Sys2Proof.Machine

/-! ### What a restore and a stop leave of the rail and of the other moves (R8, R35, R52) -/

/-- A record of the Segment Table without its holder. -/
def Segment.unheld (g : Segment) : Segment := { g with holder := none }

section stop
variable {s : State} {k i : SlotIx} {m : Move} {g : Nat} {w : Move → Move} {r : EndReason}

theorem State.release_unheld (s : State) (k : SlotIx) (ids : List Nat) :
    (s.release k ids).segs.map Segment.unheld = s.segs.map Segment.unheld := by
  show (s.segs.map _).map _ = _
  rw [List.map_map]
  refine List.map_congr_left fun g _ => ?_
  show (if g.id ∈ ids then if g.holder = some k then { g with holder := none } else g else g).unheld = g.unheld
  split
  · split <;> rfl
  · rfl

theorem State.restore_unheld (s : State) (k : SlotIx) :
    (s.restore k).segs.map Segment.unheld = s.segs.map Segment.unheld := by
  cases hm : s.move? k with
  | none => rw [State.restore_of_none hm]
  | some m =>
    rw [State.restore_of_move hm]
    exact s.release_unheld k _

theorem State.enterStopping_unheld (s : State) (k : SlotIx) (r : EndReason) :
    (s.enterStopping k r).segs.map Segment.unheld = s.segs.map Segment.unheld := by
  cases hm : s.move? k with
  | none => rw [State.enterStopping, hm]
  | some m =>
    by_cases hs : m.state = .stopping
    · rw [State.enterStopping_again s k r m hm hs]
    · rw [State.enterStopping_eq hm hs, State.quit_segs]
      exact s.restore_unheld k

theorem State.revokeGrant_unheld (s : State) (l : LaneIx) :
    (s.revokeGrant l).segs.map Segment.unheld = s.segs.map Segment.unheld := by
  unfold State.revokeGrant
  split
  · exact s.restore_unheld _
  · rfl
  · rfl

/-- A restore and a stop take holds away and give none. -/
theorem State.restore_holder_only (h : (s.restore k).holder g = some i) : s.holder g = some i := by
  cases hm : s.move? k with
  | none => rwa [State.restore_of_none hm] at h
  | some m =>
    rw [State.restore_holder hm] at h
    split at h
    · cases h
    · exact h

theorem State.enterStopping_holder_only (h : (s.enterStopping k r).holder g = some i) : s.holder g = some i := by
  cases hm : s.move? k with
  | none => rwa [State.enterStopping, hm] at h
  | some m =>
    by_cases hs : m.state = .stopping
    · rwa [State.enterStopping_again s k r m hm hs] at h
    · rw [State.enterStopping_eq hm hs, State.holder, State.seg?, State.quit_segs] at h
      exact State.restore_holder_only h

theorem Move.restored_slot (m : Move) : m.restored.slot = m.slot := by
  unfold Move.restored
  split <;> rfl

theorem State.restore_move_other (hm : s.move? i = some m) (hne : i ≠ k) : (s.restore k).move? i = some m := by
  unfold State.restore
  split
  · exact State.updateMove_move_other (s := s.release k _) hm hne Move.restored_slot
  · exact hm

theorem State.leaveLane_move_other (hm : s.move? i = some m) (hne : i ≠ k) : (s.leaveLane k).move? i = some m := by
  rcases (s.leaveLane_moves k).2 with e | e
  · rw [State.move?, e]
    exact hm
  · rw [State.move?, e]
    exact State.updateMove_move_other hm hne fun _ => rfl

theorem State.enterStopping_move_other (hm : s.move? i = some m) (hne : i ≠ k) :
    (s.enterStopping k r).move? i = some m := by
  cases hk : s.move? k with
  | none => rwa [State.enterStopping, hk]
  | some x =>
    by_cases hs : x.state = .stopping
    · rwa [State.enterStopping_again s k r x hk hs]
    · rw [State.enterStopping_eq hk hs]
      exact State.leaveLane_move_other (State.updateMove_move_other (State.restore_move_other hm hne) hne fun _ => rfl) hne

end stop

/-! ### The intrusion by the state of the lane (R81 to R84) -/

section intrusion
variable {s t u : State} {l : LaneIx} {k : SlotIx} {m : Move}

theorem Lane.crosses_iff {ln : Lane} : ln.crosses k = true ↔ ∃ c, ln.crossing = some c ∧ c.slot = k := by
  unfold Lane.crosses
  cases ln.crossing with
  | none => simp
  | some c => simp

theorem Lane.enteredSlot_of_none {ln : Lane} (h : ln.crossing = none) : ln.enteredSlot = none := by
  rw [Lane.enteredSlot, h]

theorem Lane.enteredSlot_of_entered {ln : Lane} (h : ln.crossing = some ⟨k, true⟩) : ln.enteredSlot = some k := by
  rw [Lane.enteredSlot, h]

theorem Lane.enteredSlot_of_granted {ln : Lane} (h : ln.crossing = some ⟨k, false⟩) : ln.enteredSlot = none := by
  rw [Lane.enteredSlot, h]

/-- The crossing move of a lane (R65, R71). -/
theorem State.LaneLaw.crosser (hlane : s.LaneLaw) (hslots : s.SlotLaw) {c : CrossingRecord} (hc : s.lanes[l].crossing = some c) :
    ∃ m, s.move? c.slot = some m ∧ m.slot = c.slot ∧ m.lane = some l ∧ s.OnCrossing l c.entered m := by
  obtain ⟨-, -, -, hcrosser, -, -, -⟩ := hlane
  obtain ⟨m, hm, hms, hml, hon⟩ := hcrosser l c hc
  exact ⟨m, by rw [← hms]; exact State.move?_of_mem hslots.moves hm, hms, hml, hon⟩

/-- A lane with no grant, or with one not entered, that is not FAULTED settles (R81, R82). -/
theorem State.intrudeLane_settles (hrec : s.RecordLaw) (he : s.lanes[l].enteredSlot = none)
    (hf : s.lanes[l].state ≠ .faulted) : s.intrudeLane l = ((s.revokeGrant l).settleLane l).notify .intrusion := by
  have hnone : s.lanes[l].state ≠ .crossing → s.revokeGrant l = s := fun hc => by
    cases hx : s.lanes[l].crossing with
    | none => exact State.revokeGrant_none hx
    | some c =>
      rcases (hrec l).2 c hx with ⟨hst | ⟨hst, -⟩, -⟩
      · exact absurd hst hc
      · exact absurd hst hf
  unfold State.intrudeLane
  cases hst : s.lanes[l].state with
  | quiet => rw [hnone (by rw [hst]; decide)]
  | offering => rw [hnone (by rw [hst]; decide)]
  | settling => rw [hnone (by rw [hst]; decide)]
  | crossing => dsimp only; rw [he]
  | faulted => exact absurd hst hf

/-- An entered crossing puts its lane in fault, and its move stops (R83). -/
theorem State.intrudeLane_entered (hrec : s.RecordLaw) (hc : s.lanes[l].crossing = some ⟨k, true⟩) :
    s.intrudeLane l = (s.intrudeEntered l k).notify .intrusion := by
  unfold State.intrudeLane
  rw [Lane.enteredSlot_of_entered hc]
  rcases (hrec l).2 _ hc with ⟨hst | ⟨hst, -⟩, -⟩ <;> rw [hst]

/-- A FAULTED lane with no record takes the cause (R84). -/
theorem State.intrudeLane_faulted (hst : s.lanes[l].state = .faulted) (he : s.lanes[l].enteredSlot = none) :
    s.intrudeLane l = (s.intrudeFaulted l).notify .intrusion := by
  unfold State.intrudeLane
  rw [hst]
  dsimp only
  rw [he]

/-- A lane put in fault with no grant to take back: the lane alone changes (R83, R84). -/
theorem State.putInFault_frame (h : s.revokeGrant l = s) (c : FaultCause) : ∃ ln n, s.putInFault l c = { s with
      lanes := s.lanes.set l ln, notices := n }
    ∧ ln.state = .faulted ∧ ln.cause = some c ∧ ln.crossing = s.lanes[l].crossing ∧ ln.crossingTimer = .stopped
    ∧ ln.releaseTimer = .stopped := by
  unfold State.putInFault State.faultLane
  rw [h]
  split
  · rename_i hst
    exact ⟨_, _, rfl, hst, rfl, rfl, rfl, rfl⟩
  · exact ⟨_, _, rfl, rfl, rfl, rfl, rfl, rfl⟩

theorem State.putInFault_latched (s : State) (l : LaneIx) (c : FaultCause) : (s.putInFault l c).latched .laneFault = true := by
  unfold State.putInFault State.faultLane
  split <;> exact State.notify_latched _ .laneFault

/-- What an entered crossing under an intrusion leaves: the lane in fault, every other lane as it was, and the crossing
move stopped. -/
theorem State.intrudeEntered_leaves (hslots : s.SlotLaw) (hlane : s.LaneLaw) (hc : s.lanes[l].crossing = some ⟨k, true⟩)
    (hm : s.move? k = some m) : ∃ ln n, s.intrudeEntered l k
        = ({ s with lanes := s.lanes.set l ln, notices := n } : State).enterStopping k .intrusion
      ∧ (s.intrudeEntered l k).lanes = s.lanes.set l ln ∧ ln.state = .faulted ∧ ln.cause = some .intrusion
      ∧ ln.crossing = some ⟨k, true⟩ ∧ ln.crossingTimer = .stopped ∧ ln.releaseTimer = .stopped
      ∧ (s.intrudeEntered l k).latched .laneFault = true := by
  have hrevoke : s.revokeGrant l = s := State.revokeGrant_entered hc
  obtain ⟨ln, n, hfault, hst, hcause, hcross, hct, hrt⟩ := State.putInFault_frame hrevoke .intrusion
  obtain ⟨m', hm', -, hml, -⟩ := hlane.crosser hslots hc
  have hsame : m' = m := Option.some.inj (hm'.symm.trans hm)
  subst hsame
  have hmove : ({ s with lanes := s.lanes.set l ln, notices := n } : State).move? k = some m' := hm
  have hslot := (State.move?_some hm).1
  refine ⟨ln, n, by rw [State.intrudeEntered, hfault], ?_, hst, hcause, hcross.trans hc, hct, hrt, ?_⟩
  · rw [State.intrudeEntered, hfault]
    by_cases hs : m'.state = .stopping
    · rw [State.enterStopping_again _ k _ m' hmove hs]
    · obtain ⟨-, hquit⟩ := State.enterStopping_quits hmove hs .intrusion
      refine ((hquit l hml).1 ?_).1
      show ((s.lanes.set l ln)[l]).entered m'.slot = true
      rw [lanes_set_get, if_pos rfl, Lane.entered, hcross, hc, hslot]
      simp
  · exact ((s.putInFault l .intrusion).enterStopping_steady k .intrusion).notices _ (s.putInFault_latched l .intrusion)

/-- A grant taken back: the lane, the move, which waits again, and the holds ahead of it (R82). -/
theorem State.revokeGrant_lanes (hc : s.lanes[l].crossing = some ⟨k, false⟩) :
    (s.revokeGrant l).lanes = s.lanes.set l { s.lanes[l] with
      crossing := none
      offerTimer := .stopped
      lists := s.lanes[l].lists.set s.lanes[l].berth (s.lanes[l].lists[s.lanes[l].berth] ++ [k]) } := by
  have hlanes : ((s.restore k).updateMove k fun m => { m with state := .laneWait }).lanes = s.lanes := (s.restore_same k).1
  rw [State.revokeGrant_eq hc, State.updateLane, hlanes]

theorem State.revokeGrant_move (hc : s.lanes[l].crossing = some ⟨k, false⟩) (hm : s.move? k = some m) :
    (s.revokeGrant l).move? k = some { m.restored with state := .laneWait } := by
  rw [State.revokeGrant_eq hc]
  exact State.updateMove_move (s.restore_move k m hm) (w := fun m => { m with state := .laneWait }) fun _ => rfl

theorem State.revokeGrant_move_other {i : SlotIx} (hm : s.move? i = some m) (hne : ∀ e, s.lanes[l].crossing ≠ some ⟨i, e⟩) :
    (s.revokeGrant l).move? i = some m := by
  unfold State.revokeGrant
  split
  · rename_i j hj
    have hij : i ≠ j := fun h => hne false (h ▸ hj)
    exact State.updateMove_move_other (State.restore_move_other hm hij) hij fun _ => rfl
  · exact hm
  · exact hm

theorem State.revokeGrant_holder (hc : s.lanes[l].crossing = some ⟨k, false⟩) (hm : s.move? k = some m) {g : Nat}
    (hg : g ∈ m.span (m.f + 1) m.h) : (s.revokeGrant l).holder g ≠ some k := by
  rw [State.revokeGrant_eq hc, State.updateLane_holder_look, State.updateMove_holder_look, State.restore_holder hm]
  split
  · simp
  · rename_i hno
    exact fun e => hno ⟨hg, e⟩

theorem State.settleStart_congr {v : State} (h : Steady s v) (l : LaneIx) :
    v.startTimer (v.settleFull l) = s.startTimer (s.settleFull l) := by
  rw [State.startTimer, State.startTimer, State.settleFull, State.settleFull, h.timing, h.mode]

/-- The lane after an intrusion that settles it. -/
theorem State.intrudeLane_settled (hrec : s.RecordLaw) (he : s.lanes[l].enteredSlot = none)
    (hf : s.lanes[l].state ≠ .faulted) : (s.intrudeLane l).lanes = (s.revokeGrant l).lanes.set l
      { (s.revokeGrant l).lanes[l] with
        state := .settling
        runCounter := 0
        offerTimer := .stopped
        settleTimer := s.startTimer (s.settleFull l) } := by
  rw [State.intrudeLane_settles hrec he hf, ← State.settleStart_congr (s.revokeGrant_steady l)]
  rfl

/-- The lane of a FAULTED lane under an intrusion, when it has no record (R84). -/
theorem State.intrudeFaulted_frame (s : State) (l : LaneIx) : ∃ n, s.intrudeFaulted l = { s with
      lanes := s.lanes.set l { s.lanes[l] with
        cause := some .intrusion, releaseTimer := .stopped, crossingTimer := .stopped }
      notices := n } := by
  unfold State.intrudeFaulted
  dsimp only
  split <;> exact ⟨_, rfl⟩

theorem State.intrudeFaulted_latched (h : s.lanes[l].cause ≠ some .intrusion) :
    (s.intrudeFaulted l).latched .laneFault = true := by
  unfold State.intrudeFaulted
  dsimp only
  rw [if_neg h]
  exact State.notify_latched _ .laneFault

theorem State.revokeGrant_lanes_other {x : LaneIx} (hx : x ≠ l) : (s.revokeGrant l).lanes[x] = s.lanes[x] := by
  cases hc : s.lanes[l].crossing with
  | none => rw [State.revokeGrant_none hc]
  | some c =>
    obtain ⟨k, e⟩ := c
    cases e with
    | false => rw [State.revokeGrant_lanes hc, lanes_set_get, if_neg hx]
    | true => rw [State.revokeGrant_entered hc]

/-- The three ways a lane takes an intrusion. -/
theorem Lane.enteredSlot_cases (ln : Lane) : (ln.enteredSlot = none ∧ ln.state ≠ .faulted)
    ∨ (ln.enteredSlot = none ∧ ln.state = .faulted) ∨ ∃ k, ln.crossing = some ⟨k, true⟩ := by
  cases hc : ln.crossing with
  | none =>
    by_cases hf : ln.state = .faulted
    · exact .inr (.inl ⟨Lane.enteredSlot_of_none hc, hf⟩)
    · exact .inl ⟨Lane.enteredSlot_of_none hc, hf⟩
  | some c =>
    obtain ⟨k, e⟩ := c
    cases e with
    | false =>
      by_cases hf : ln.state = .faulted
      · exact .inr (.inl ⟨Lane.enteredSlot_of_granted hc, hf⟩)
      · exact .inl ⟨Lane.enteredSlot_of_granted hc, hf⟩
    | true => exact .inr (.inr ⟨k, rfl⟩)

/-- What an intrusion with no own move beside it makes of the lane and of its crossing move (R81 to R84). -/
theorem State.intrudeLane_intruded (hslots : s.SlotLaw) (hlane : s.LaneLaw) (l : LaneIx) :
    s.LaneIntruded l none (s.intrudeLane l) := by
  have hrec : s.RecordLaw := hlane.2.2.1
  refine ⟨fun hst => ?_, fun k hc => ?_, fun k hc => ?_, fun hst hc => ?_, fun _ x hx => ?_⟩
  · have hf : s.lanes[l].state ≠ .faulted := by rcases hst with e | e | e <;> rw [e] <;> decide
    have hnone : s.lanes[l].crossing = none := by
      cases hx : s.lanes[l].crossing with
      | none => rfl
      | some c =>
        rcases (hrec l).2 c hx with ⟨e | ⟨e, -⟩, -⟩
        · rw [e] at hst
          simp at hst
        · exact absurd e hf
    rw [State.intrudeLane_settled hrec (Lane.enteredSlot_of_none hnone) hf, State.revokeGrant_none hnone, lanes_set_get,
      if_pos rfl]
    exact ⟨rfl, rfl, rfl, rfl, fun _ => rfl⟩
  · have hf : s.lanes[l].state ≠ .faulted := by
      rcases (hrec l).2 _ hc with ⟨e | ⟨-, e⟩, -⟩
      · rw [e]; decide
      · cases e
    obtain ⟨x, hx, -, -, hon⟩ := hlane.crosser hslots hc
    rw [State.intrudeLane_settled hrec (Lane.enteredSlot_of_granted hc) hf, State.revokeGrant_lanes hc, Vector.set_set,
      lanes_set_get, if_pos rfl, lanes_set_get, if_pos rfl]
    refine ⟨rfl, rfl, rfl, rfl, rfl, fun m hm _ => ?_⟩
    have hxm : x = m := Option.some.inj (hx.symm.trans hm)
    subst hxm
    obtain ⟨-, hbefore, -, -⟩ := hon
    obtain ⟨-, hfh, -⟩ := hbefore rfl
    rw [State.intrudeLane_settles hrec (Lane.enteredSlot_of_granted hc) hf]
    refine ⟨?_, fun g hg => s.revokeGrant_holder hc hm hg, _, s.revokeGrant_move hc hm, ?_⟩
    · simp
    · unfold Move.restored
      rw [if_neg (by omega)]
      exact ⟨rfl, rfl, rfl, rfl, rfl, rfl⟩
  · obtain ⟨m, hm, -, -, -⟩ := hlane.crosser hslots hc
    obtain ⟨ln, n, heq, hlanes, hst, hcause, hcross, hct, hrt, hlatched⟩ := State.intrudeEntered_leaves hslots hlane hc hm
    rw [State.intrudeLane_entered hrec hc]
    have hln : ((s.intrudeEntered l k).notify .intrusion).lanes[l] = ln := by
      refine (congrArg (·[l]) hlanes).trans ?_
      rw [lanes_set_get, if_pos rfl]
    rw [hln]
    refine ⟨hst, hcause, hcross, hct, hrt, ((s.intrudeEntered l k).notify_steady .intrusion).notices _ hlatched, fun m hm => ?_⟩
    obtain ⟨m', hm', hstops, -⟩ := State.enterStopping_stops (s := { s with lanes := s.lanes.set l ln, notices := n })
      (k := k) hm .intrusion
    rw [heq]
    exact ⟨m', hm', hstops⟩
  · rw [State.intrudeLane_faulted hst (Lane.enteredSlot_of_none hc)]
    obtain ⟨n, hframe⟩ := s.intrudeFaulted_frame l
    have hln : ((s.intrudeFaulted l).notify .intrusion).lanes[l]
        = { s.lanes[l] with cause := some .intrusion, releaseTimer := .stopped, crossingTimer := .stopped } := by
      refine (congrArg (fun v : State => v.lanes[l]) hframe).trans ?_
      exact (lanes_set_get ..).trans (if_pos rfl)
    rw [hln]
    exact ⟨hst, rfl, rfl, fun h => ((s.intrudeFaulted l).notify_steady .intrusion).notices _ (State.intrudeFaulted_latched h)⟩
  · rcases s.lanes[l].enteredSlot_cases with ⟨he, hf⟩ | ⟨he, hf⟩ | ⟨k, hc⟩
    · rw [State.intrudeLane_settled hrec he hf]
      exact ((lanes_set_get ..).trans (if_neg hx)).trans (State.revokeGrant_lanes_other hx)
    · obtain ⟨n, hframe⟩ := s.intrudeFaulted_frame l
      rw [State.intrudeLane_faulted hf he]
      refine (congrArg (fun v : State => v.lanes[x]) hframe).trans ?_
      exact (lanes_set_get ..).trans (if_neg hx)
    · obtain ⟨m, hm, -, -, -⟩ := hlane.crosser hslots hc
      obtain ⟨ln, n, -, hlanes, -⟩ := State.intrudeEntered_leaves hslots hlane hc hm
      rw [State.intrudeLane_entered hrec hc]
      refine (congrArg (·[x]) hlanes).trans ?_
      exact (lanes_set_get ..).trans (if_neg hx)

/-- After an intrusion a lane offers nothing, and a record that it keeps is of an entered crossing. -/
theorem State.intrudeLane_quiets (hslots : s.SlotLaw) (hlane : s.LaneLaw) (l : LaneIx) :
    (s.intrudeLane l).lanes[l].state ≠ .offering
      ∧ ∀ i, (s.intrudeLane l).lanes[l].crosses i = true → (s.intrudeLane l).lanes[l].entered i = true := by
  have hrec : s.RecordLaw := hlane.2.2.1
  have hnone : ∀ {ln : Lane}, ln.crossing = none → ∀ i, ln.crosses i = true → ln.entered i = true := fun h i hi => by
    rw [Lane.crosses, h] at hi
    cases hi
  obtain ⟨-, -, hentered, hfaulted, -⟩ := State.intrudeLane_intruded hslots hlane l
  rcases s.lanes[l].enteredSlot_cases with ⟨he, hf⟩ | ⟨he, hf⟩ | ⟨k, hc⟩
  · rw [State.intrudeLane_settled hrec he hf, lanes_set_get, if_pos rfl]
    refine ⟨by simp, hnone ?_⟩
    cases hc : s.lanes[l].crossing with
    | none => rw [State.revokeGrant_none hc, hc]
    | some c =>
      obtain ⟨k, e⟩ := c
      cases e with
      | false => rw [State.revokeGrant_lanes hc, lanes_set_get, if_pos rfl]
      | true => rw [Lane.enteredSlot_of_entered hc] at he; cases he
  · have hc : s.lanes[l].crossing = none := by
      cases hc : s.lanes[l].crossing with
      | none => rfl
      | some c =>
        obtain ⟨k, e⟩ := c
        rcases (hrec l).2 _ hc with ⟨h | ⟨-, rfl⟩, -⟩
        · rw [hf] at h; cases h
        · rw [Lane.enteredSlot_of_entered hc] at he; cases he
    obtain ⟨hst, -⟩ := hfaulted hf hc
    refine ⟨by rw [hst]; decide, hnone ?_⟩
    obtain ⟨n, hframe⟩ := s.intrudeFaulted_frame l
    rw [State.intrudeLane_faulted hf he]
    refine (congrArg (fun v : State => v.lanes[l].crossing) hframe).trans ?_
    refine (congrArg Lane.crossing ((lanes_set_get ..).trans (if_pos rfl))).trans hc
  · obtain ⟨hst, -, hcross, -⟩ := hentered k hc
    refine ⟨by rw [hst]; decide, fun i hi => ?_⟩
    rw [Lane.crosses, hcross] at hi
    rw [Lane.entered, hcross]
    simpa using hi

theorem State.intrudeLane_unheld (hrec : s.RecordLaw) (l : LaneIx) :
    (s.intrudeLane l).segs.map Segment.unheld = s.segs.map Segment.unheld := by
  rcases s.lanes[l].enteredSlot_cases with ⟨he, hf⟩ | ⟨he, hf⟩ | ⟨k, hc⟩
  · rw [State.intrudeLane_settles hrec he hf]
    exact s.revokeGrant_unheld l
  · obtain ⟨n, hframe⟩ := s.intrudeFaulted_frame l
    rw [State.intrudeLane_faulted hf he, hframe]
    rfl
  · obtain ⟨ln, n, hframe, -⟩ := State.putInFault_frame (State.revokeGrant_entered hc) .intrusion
    rw [State.intrudeLane_entered hrec hc, State.intrudeEntered, hframe]
    exact State.enterStopping_unheld _ k .intrusion

/-- What an intrusion makes of a move: nothing, but of the lane's crossing move, which waits again or stops (R82, R83). -/
theorem State.intrudeLane_move (hslots : s.SlotLaw) (hlane : s.LaneLaw) (l : LaneIx) {i : SlotIx} (hm : s.move? i = some m) :
    (s.intrudeLane l).move? i = some m
      ∨ m.state ≠ .stopping ∧ (s.intrudeLane l).move? i = some { m.restored with state := .laneWait }
      ∨ ∃ m', (s.intrudeLane l).move? i = some m' ∧ s.Stops .intrusion m m' ∧ m'.state = .stopping
        ∧ (m.state = .stopping → m' = m) := by
  have hrec : s.RecordLaw := hlane.2.2.1
  rcases s.lanes[l].enteredSlot_cases with ⟨he, hf⟩ | ⟨he, hf⟩ | ⟨k, hc⟩
  · have heq : (s.intrudeLane l).move? i = (s.revokeGrant l).move? i := by
      rw [State.intrudeLane_settles hrec he hf]
      rfl
    rw [heq]
    by_cases hi : s.lanes[l].crossing = some ⟨i, false⟩
    · refine .inr (.inl ⟨?_, State.revokeGrant_move hi hm⟩)
      obtain ⟨x, hx, -, -, -, hbefore, -⟩ := hlane.crosser hslots hi
      rw [← Option.some.inj (hx.symm.trans hm), (hbefore rfl).1]
      decide
    · refine .inl (State.revokeGrant_move_other hm fun e h => ?_)
      cases e with
      | false => exact hi h
      | true => rw [Lane.enteredSlot_of_entered h] at he; cases he
  · obtain ⟨n, hframe⟩ := s.intrudeFaulted_frame l
    rw [State.intrudeLane_faulted hf he, hframe]
    exact .inl hm
  · obtain ⟨ln, n, hframe, -⟩ := State.putInFault_frame (State.revokeGrant_entered hc) .intrusion
    rw [State.intrudeLane_entered hrec hc, State.intrudeEntered, hframe]
    by_cases hik : i = k
    · subst hik
      obtain ⟨m', hm', hstops, hsame⟩ := State.enterStopping_stops (s := { s with lanes := s.lanes.set l ln, notices := n })
        (k := i) hm .intrusion
      refine .inr (.inr ⟨m', hm', hstops, ?_, hsame⟩)
      by_cases hs : m.state = .stopping
      · rw [hsame hs, hs]
      · exact (hstops.1 hs).1
    · exact .inl (State.enterStopping_move_other (s := { s with lanes := s.lanes.set l ln, notices := n }) hm hik)


end intrusion

end Sys2Proof.Machine
end


section
/-!
PROOFS. An intrusion on a lane with the intruding bench's own move stopped beside it (R81 to R84, R105), and SEEN by the
condition of its segment (R112, R113).
-/

open Sys2Proof Sys2Proof.Machine

namespace Sys2Proof.Machine

section beside
variable {s t u v : State} {l : LaneIx} {m m' : Move} {r : EndReason} {own : Option SlotIx}

theorem State.startTimer_restart (s : State) (n : Nat) : (s.startTimer n).restart n = s.startTimer n := by
  unfold State.startTimer
  split <;> rfl

/-- A stopped move whose running silence a report restarts is stopped the same way (R36). -/
theorem State.Stops.restart (h : s.Stops r m m') :
    s.Stops r m { m' with silence := m'.silence.restart s.silenceFull } := by
  obtain ⟨hstop, hsame⟩ := h
  refine ⟨fun hs => ?_, fun hs => ?_⟩
  · obtain ⟨hstate, hreason, ht, hf, hh, hback, hyield, hsil, hroute, hretries, htoken⟩ := hstop hs
    refine ⟨hstate, hreason, ht, hf, hh, hback, hyield, ?_, hroute, hretries, htoken⟩
    rw [hsil]
    exact s.startTimer_restart _
  · rw [hsame hs]

theorem State.Stops.state (h : s.Stops r m m') : m'.state = .stopping := by
  obtain ⟨hstop, hsame⟩ := h
  by_cases hs : m.state = .stopping
  · rw [hsame hs]
    exact hs
  · exact (hstop hs).1

/-- What a lane is made of by an intrusion holds in every state with that lane, those moves and those holds; the own move
may have been heard of since. -/
theorem State.LaneIntruded.mono (h : s.LaneIntruded l own t) (hlanes : u.lanes = t.lanes)
    (hholder : ∀ x, u.holder x = t.holder x) (hlatched : ∀ n, t.latched n = true → u.latched n = true)
    (hmove : ∀ k y, t.move? k = some y → ∃ z, u.move? k = some z
      ∧ (z = y ∨ own = some k ∧ z = { y with silence := y.silence.restart s.silenceFull })) :
    s.LaneIntruded l own u := by
  obtain ⟨hsettle, hgranted, hentered, hfaulted, hothers⟩ := h
  have hlane : ∀ x : LaneIx, u.lanes[x] = t.lanes[x] := fun x => by rw [hlanes]
  refine ⟨fun hst => ?_, fun k hc => ?_, fun k hc => ?_, fun hst hc => ?_, fun ho x hx => (hlane x).trans (hothers ho x hx)⟩
  · rw [hlane]
    exact hsettle hst
  · obtain ⟨hstate, htimer, hrun, hset, hcross, hgrant⟩ := hgranted k hc
    rw [hlane]
    refine ⟨hstate, htimer, hrun, hset, hcross, fun m hm ho => ?_⟩
    obtain ⟨hlast, hheld, m', hm', hlike⟩ := hgrant m hm ho
    obtain ⟨z, hz, e | ⟨e, -⟩⟩ := hmove k m' hm'
    · exact ⟨hlast, fun x hx => by rw [hholder]; exact hheld x hx, z, hz, by rw [e]; exact hlike⟩
    · exact absurd e ho
  · obtain ⟨hstate, hcause, hcross, hct, hrt, hnote, hstops⟩ := hentered k hc
    rw [hlane]
    refine ⟨hstate, hcause, hcross, hct, hrt, hlatched _ hnote, fun m hm => ?_⟩
    obtain ⟨m', hm', hlike⟩ := hstops m hm
    obtain ⟨z, hz, e | ⟨-, e⟩⟩ := hmove k m' hm'
    · exact ⟨z, hz, by rw [e]; exact hlike⟩
    · exact ⟨z, hz, by rw [e]; exact hlike.restart⟩
  · obtain ⟨hstate, hcause, hrt, hnote⟩ := hfaulted hst hc
    rw [hlane]
    exact ⟨hstate, hcause, hrt, fun h => hlatched _ (hnote h)⟩

/-- On a lane that offers nothing and keeps no record but of an entered crossing, a stop changes at most the lists, from
which the move that stops is taken (R35). -/
theorem State.enterStopping_lists (hoffers : v.lanes[l].state ≠ .offering)
    (hcross : ∀ i, v.lanes[l].crosses i = true → v.lanes[l].entered i = true) (o : SlotIx) (r : EndReason) :
    ∃ q, (v.enterStopping o r).lanes[l] = { v.lanes[l] with lists := q }
      ∧ (q = v.lanes[l].lists ∨ q = v.lanes[l].lists.map fun x => x.filter fun i => i ≠ o) := by
  have hstay : ∀ {w : State}, w.lanes[l] = v.lanes[l] → ∃ q, w.lanes[l] = { v.lanes[l] with lists := q }
      ∧ (q = v.lanes[l].lists ∨ q = v.lanes[l].lists.map fun x => x.filter fun i => i ≠ o) := fun h => ⟨_, h, .inl rfl⟩
  cases hm : v.move? o with
  | none =>
    rw [State.enterStopping, hm]
    exact hstay rfl
  | some m =>
    by_cases hs : m.state = .stopping
    · rw [State.enterStopping_again v o r m hm hs]
      exact hstay rfl
    · obtain ⟨hnone, hlane⟩ := State.enterStopping_quits hm hs r
      have hslot := (State.move?_some hm).1
      subst hslot
      cases hl : m.lane with
      | none => exact hstay (congrArg (·[l]) (hnone hl))
      | some x =>
        obtain ⟨hentered, hother⟩ := hlane x hl
        by_cases he : v.lanes[x].entered m.slot = true
        · exact hstay (congrArg (·[l]) (hentered he).1)
        · obtain ⟨-, hothers, -, hlist⟩ := hother (Bool.not_eq_true _ ▸ he)
          by_cases hx : l = x
          · subst hx
            have hc : v.lanes[l].crosses m.slot = false := by
              cases hc : v.lanes[l].crosses m.slot with
              | false => rfl
              | true => exact absurd (hcross _ hc) he
            exact ⟨_, (hlist hc _ rfl).2 fun h => hoffers h.1, .inr rfl⟩
          · exact hstay (hothers l hx)

theorem getLast?_of_filter {q : List SlotIx} {k o : SlotIx} (h : q.getLast? = some k) (hne : k ≠ o) :
    (q.filter fun i => i ≠ o).getLast? = some k := by
  obtain ⟨p, rfl⟩ := List.getLast?_eq_some_iff.1 h
  simp [List.filter_append, hne]

/-- The stop of the own move beside an intrusion on lane l. -/
theorem State.LaneIntruded.stops (h : s.LaneIntruded l none v) (hoffers : v.lanes[l].state ≠ .offering)
    (hcross : ∀ i, v.lanes[l].crosses i = true → v.lanes[l].entered i = true) (o : SlotIx) :
    s.LaneIntruded l (some o) (v.enterStopping o .intrusion) := by
  obtain ⟨hsettle, hgranted, hentered, hfaulted, -⟩ := h
  obtain ⟨q, hq, hlists⟩ := v.enterStopping_lists hoffers hcross o .intrusion
  have hlatched := (v.enterStopping_steady o .intrusion).notices
  refine ⟨fun hst => ?_, fun k hc => ?_, fun k hc => ?_, fun hst hc => ?_, fun ho => by cases ho⟩
  · obtain ⟨hstate, htimer, hrun, hset, -⟩ := hsettle hst
    rw [hq]
    exact ⟨hstate, htimer, hrun, hset, fun ho => by cases ho⟩
  · obtain ⟨hstate, htimer, hrun, hset, hrec, hgrant⟩ := hgranted k hc
    rw [hq]
    refine ⟨hstate, htimer, hrun, hset, hrec, fun m hm ho => ?_⟩
    have hne : k ≠ o := fun e => ho (e ▸ rfl)
    obtain ⟨hlast, hheld, m', hm', hlike⟩ := hgrant m hm (by simp)
    refine ⟨?_, fun x hx hh => hheld x hx (State.enterStopping_holder_only hh), m',
      State.enterStopping_move_other hm' hne, hlike⟩
    show q[s.lanes[l].berth].getLast? = some k
    rcases hlists with rfl | rfl
    · exact hlast
    · rw [Fin.getElem_fin, Vector.getElem_map]
      exact getLast?_of_filter hlast hne
  · obtain ⟨hstate, hcause, hrec, hct, hrt, hnote, hstops⟩ := hentered k hc
    rw [hq]
    refine ⟨hstate, hcause, hrec, hct, hrt, hlatched _ hnote, fun m hm => ?_⟩
    obtain ⟨m', hm', hlike⟩ := hstops m hm
    by_cases hk : k = o
    · subst hk
      rw [State.enterStopping_again v k _ m' hm' hlike.state]
      exact ⟨m', hm', hlike⟩
    · exact ⟨m', State.enterStopping_move_other hm' hk, hlike⟩
  · obtain ⟨hstate, hcause, hrt, hnote⟩ := hfaulted hst hc
    rw [hq]
    exact ⟨hstate, hcause, hrt, fun h => hlatched _ (hnote h)⟩

end beside

/-! ### Marks (R11) -/

/-- What an occupancy mark looks at of a segment's record (R11). -/
def Segment.place (g : Segment) : Nat × List Nat × Option Occupant := (g.id, g.links, g.occupant)

section marks
variable {s t w : State} {g b : Nat}

theorem State.place_of_unheld (h : w.segs.map Segment.unheld = s.segs.map Segment.unheld) :
    w.segs.map Segment.place = s.segs.map Segment.place := by
  have h2 := congrArg (List.map Segment.place) h
  rwa [List.map_map, List.map_map] at h2

theorem State.seg?_place (s : State) (g : Nat) :
    (s.seg? g).map Segment.place = (s.segs.map Segment.place).find? fun p => p.1 = g := by
  rw [List.find?_map]
  rfl

theorem State.markOf_congr (h : t.segs.map Segment.place = s.segs.map Segment.place) (g b : Nat) :
    t.markOf g b = s.markOf g b := by
  have hbench : ∀ v : State, v.benchAt b = ((v.segs.map Segment.place).filter fun p => p.2.2 = some (.bench b)).map (·.1) := by
    intro v
    rw [List.filter_map, List.map_map]
    rfl
  have hlinked : ∀ (v : State) x, v.linked x g = ((v.seg? x).map Segment.place).any fun p => p.2.1.contains g := by
    intro v x
    unfold State.linked
    cases v.seg? x <;> rfl
  unfold State.markOf
  simp only [hbench, hlinked, State.seg?_place, h]

theorem State.occupant_congr (h : t.segs.map Segment.place = s.segs.map Segment.place) (g : Nat) :
    t.occupant g = s.occupant g := by
  have hocc : ∀ v : State, v.occupant g = ((v.seg? g).map Segment.place).bind fun p => p.2.2 := by
    intro v
    unfold State.occupant
    cases v.seg? g <;> rfl
  rw [hocc, hocc, State.seg?_place, State.seg?_place, h]

theorem State.mark_rail (h : w.segs.map Segment.unheld = s.segs.map Segment.unheld) (g b : Nat) :
    (w.mark g b).segs.map Segment.rail
      = s.segs.map fun r => (r.surveyed, r.fence, if r.id = g then some (w.markOf g b) else r.occupant) := by
  have h2 := congrArg (List.map fun r : Segment => (r.surveyed, r.fence, if r.id = g then some (w.markOf g b) else r.occupant)) h
  rw [List.map_map, List.map_map] at h2
  refine Eq.trans ?_ h2
  show (w.segs.map _).map _ = _
  rw [List.map_map]
  refine List.map_congr_left fun r _ => ?_
  show (if r.id ∈ [g] then { r with occupant := some (w.markOf g b) } else r).rail = _
  by_cases hr : r.id = g
  · rw [if_pos (by simp [hr])]
    exact congrArg (fun o => (r.surveyed, r.fence, o)) (if_pos hr).symm
  · rw [if_neg (by simp [hr])]
    exact congrArg (fun o => (r.surveyed, r.fence, o)) (if_neg hr).symm

end marks

/-! ### SEEN (R112, R113) -/

section seen
variable {s u : State} {addr : WordAddr} {tag : Word} {j : ReportIx} {r : Segment}

theorem carrySeen_eq (hr : s.seg? (s.reportOf j).segment = some r) :
    carryReport (some .seen) (s.reportOf j) (s.atReport addr tag j)
      = seenReport (s.reportOf j).bench (s.reportOf j).segment (s.atReport addr tag j) :=
  checkedReport_of_configured (judge := seenReport) (named := false) (s := s.atReport addr tag j)
    (fun h => absurd h (by decide)) (State.configured_of_seg hr)

/-- A report accepted, whose judgement opens no segment. -/
theorem State.reportRow_unopened {kind : Option ReportKind} {x : Acceptance} (h : s.TakesReport kind addr tag j)
    (hx : ∀ r, x ≠ .rejected r) (hu : carryReport kind (s.reportOf j) (s.atReport addr tag j) = (u, x))
    (hsegs : announced s.segs u.segs = []) :
    s.reportRow kind (carryReport kind) addr tag = { u with reports := s.reports.set j (s.takenReport j tag x) } := by
  rw [State.reportRow_of_take h hu]
  have hnote : ∀ v : State, v.noteRejection x = v := fun v => by
    cases x with
    | rejected r => exact absurd rfl (hx r)
    | accepted => rfl
    | unmanaged => rfl
    | free => rfl
  rw [hnote]
  exact State.announce_of_none hsegs

/-- A change of listed segments that leaves each of them occupied announces nothing (R9). -/
theorem announced_of_occupied {segs : List Segment} {ids : List Nat} {w : Segment → Segment}
    (h : ∀ x, (w x).occupant ≠ none) : announced segs (segs.map fun x => if x.id ∈ ids then w x else x) = [] :=
  announced_map_eq_nil fun x _ => by
    split
    · exact Segment.announcedBy_of_not_open (Segment.not_open_of_occupied (h x))
    · exact x.announcedBy_self

/-- An open segment that is no lane cell, on which something is found, is fenced and marked UNKNOWN. -/
theorem State.seenIntrusion_off_lane {g : Nat} (h : s.cellLane g = none) : s.seenIntrusion g
    = { s.updateSegs [g] (fun x => { x with fence := some .intrusion, occupant := some .unknown }) with
        notices := s.notices ||| Notice.mask .intrusion } := by
  have htwo := s.updateSegs_updateSegs [g] (fun x => { x with fence := some .intrusion })
    (fun x => { x with occupant := some .unknown }) fun _ => rfl
  unfold State.seenIntrusion
  rw [h]
  exact congrArg (fun v : State => v.notify .intrusion) htwo

end seen

/-- Settles O36: the first condition of Table 5.7 that fits. -/
theorem seenByTheSegmentCondition : Obligations.SeenByTheSegmentCondition := by
  intro addr tag s j r h hr
  have hid := State.seg?_id hr
  have hcarry := carrySeen_eq (addr := addr) (tag := tag) hr
  have hseg : (s.atReport addr tag j).seg? (s.reportOf j).segment = some r := hr
  unfold seenReport at hcarry
  rw [hseg] at hcarry
  dsimp only at hcarry
  refine ⟨fun hs => ?_, fun hs hocc => ?_, fun hs hocc hheld hcell => ?_, fun b hs hocc => ⟨fun hnone => ?_, fun m hm => ?_⟩,
    fun l hrun hlane hs hocc hheld hcell => ?_⟩
  · rw [hs, Bool.not_false, if_pos rfl] at hcarry
    refine congrArg Host.Outcome.next ((State.reportRow_unopened h (by simp) hcarry
      (announced_of_occupied fun x => by simp [Segment.seen])).trans ?_)
    rw [hid]
    simp only [State.updateSegs, List.mem_singleton]
    rfl
  · rw [hs, Bool.not_true, if_neg Bool.false_ne_true] at hcarry
    refine congrArg Host.Outcome.next (State.reportRow_taken h (by simp) (hcarry.trans ?_))
    rcases hocc with hocc | ⟨hocc, hheld⟩
    · rw [hocc]
    · rw [hocc]
      dsimp only
      rw [if_pos (Option.isSome_iff_ne_none.2 hheld)]
  · rw [hs, Bool.not_true, if_neg Bool.false_ne_true, hocc, hheld] at hcarry
    dsimp only at hcarry
    rw [if_neg (by simp), State.seenIntrusion_off_lane (by rw [State.atReport_cellLane_look, ← hid]; exact hcell)] at hcarry
    refine congrArg Host.Outcome.next ((State.reportRow_unopened h (by simp) hcarry
      (announced_of_occupied fun x => by simp)).trans ?_)
    rw [hid]
    simp only [State.updateSegs, List.mem_singleton]
    rfl
  · rw [hs, Bool.not_true, if_neg Bool.false_ne_true, hocc] at hcarry
    dsimp only at hcarry
    rw [State.heard_of_none (s := s.atReport addr tag j) hnone] at hcarry
    exact congrArg Host.Outcome.next (State.reportRow_taken h (by simp) hcarry)
  · rw [hs, Bool.not_true, if_neg Bool.false_ne_true, hocc] at hcarry
    dsimp only at hcarry
    rw [State.heard_of_move (s := s.atReport addr tag j) hm] at hcarry
    exact congrArg Host.Outcome.next (State.reportRow_accepted h hcarry rfl)
  · rw [hs, Bool.not_true, if_neg Bool.false_ne_true, hocc, hheld] at hcarry
    dsimp only at hcarry
    rw [if_neg (by simp)] at hcarry
    generalize ha : s.atReport addr tag j = a at hcarry
    have hcell' : a.cellLane (s.reportOf j).segment = some l := by
      rw [← ha, State.atReport_cellLane_look, ← hid]
      exact hcell
    have hseen : a.seenIntrusion (s.reportOf j).segment = ((a.intrudeLane l).mark (s.reportOf j).segment 0).notify .intrusion := by
      rw [State.seenIntrusion, hcell']
    rw [hseen] at hcarry
    obtain ⟨t, hexec, hrep⟩ : ∃ t, exec (.seen addr tag) s = .next t ∧ s.Reported addr tag j .accepted
        (((a.intrudeLane l).mark (s.reportOf j).segment 0).notify .intrusion) t :=
      ⟨_, rfl, State.reportRow_reported h (ha ▸ hcarry)⟩
    have hslots : a.SlotLaw := by rw [← ha]; exact hrun.2.1
    have hlane' : a.LaneLaw := by rw [← ha]; exact hlane
    have hintruded : s.LaneIntruded l none (a.intrudeLane l) := by
      have h2 := State.intrudeLane_intruded hslots hlane' l
      rw [← ha] at h2 ⊢
      exact h2
    have hunheld : (a.intrudeLane l).segs.map Segment.unheld = s.segs.map Segment.unheld := by
      refine (State.intrudeLane_unheld hlane'.2.2.1 l).trans ?_
      rw [← ha]
      rfl
    have hsteady := (a.intrudeLane_steady l).trans (((a.intrudeLane l).mark_steady (s.reportOf j).segment 0).trans
      (State.notify_steady _ .intrusion))
    refine ⟨t, hexec, hrep.reports, hintruded.mono hrep.lanes (fun x => ?_) (fun n hn => hrep.latched n ?_) (fun k y hy => ?_),
      hrep.latched _ (State.notify_latched _ .intrusion), ?_, hrep.queue.trans (hsteady.queue.trans ?_),
      hrep.tokens.trans (hsteady.tokens.trans ?_), hrep.orders.trans (hsteady.orders.trans ?_), hrep.enable, hrep.mode,
      hrep.frame, hrep.mem⟩
    · rw [hrep.holder]
      exact (a.intrudeLane l).mark_holder _ 0 x
    · exact (((a.intrudeLane l).mark_steady (s.reportOf j).segment 0).trans (State.notify_steady _ .intrusion)).notices n hn
    · exact ⟨y, by rw [hrep.move]; exact hy, .inl rfl⟩
    · rw [hrep.segs, hid]
      exact State.mark_rail hunheld _ 0
    · rw [← ha]; rfl
    · rw [← ha]; rfl
    · rw [← ha]; rfl

end Sys2Proof.Machine
end


section
/-!
PROOFS. The intruding arrival by the rail on which it is found (R11, R100, R103 to R106).
-/

open Sys2Proof Sys2Proof.Machine

namespace Sys2Proof.Machine

/-! ### What an intrusion leaves (R103 to R105) -/

section intrude
variable {s v w : State} {g b : Nat} {l : LaneIx} {k : SlotIx} {m : Move} {own : Option Move}

/-- The segment records the bench of the crossing move exactly when it records the bench of the move that holds it. -/
theorem State.carriesCrosser_eq (hrun : s.RunLaw) (hlane : s.LaneLaw) (hcell : s.cellLane g = some l) :
    s.carriesCrosser l g = s.underItsHolder g := by
  obtain ⟨-, hslots, hruns, -, -⟩ := id hrun
  obtain ⟨-, -, -, -, -, hcells, -, -, hocc⟩ := id hlane
  obtain ⟨r, hr⟩ : ∃ r, s.seg? g = some r := by
    cases hr : s.seg? g with
    | none => rw [State.cellLane, hr] at hcell; cases hcell
    | some r => exact ⟨r, rfl⟩
  obtain ⟨rfl, hrmem⟩ := State.seg?_some hr
  have hholder : s.holder r.id = r.holder := by rw [State.holder, hr]; rfl
  have hoccupant : s.occupant r.id = r.occupant := by rw [State.occupant, hr]; rfl
  rw [Bool.eq_iff_iff]
  unfold State.carriesCrosser State.underItsHolder
  constructor
  · intro h
    cases hc : s.lanes[l].crossing with
    | none => rw [hc] at h; cases h
    | some c =>
      obtain ⟨m, hm, hslot, -, -⟩ := hlane.crosser hslots hc
      rw [hc] at h
      dsimp only at h
      rw [hm] at h
      have hin : r.occupant = some (.bench m.bench) := hoccupant ▸ of_decide_eq_true h
      have hmem := (State.move?_some hm).2
      obtain ⟨p, hp, hpf, -, he⟩ := Move.mem_span.1 ((hocc m hmem r hrmem).1 hin)
      have hindex := (hruns m hmem).2.1
      have hheld : s.holder r.id = some c.slot := by
        rw [← he]
        exact State.RunLaw.holder_seg hrun hm hp (hpf.trans hindex.2.1)
      rw [hheld]
      dsimp only
      rw [hm, Option.any_some]
      exact h
  · intro h
    cases hh : s.holder r.id with
    | none => rw [hh] at h; cases h
    | some k =>
      rw [hh] at h
      obtain ⟨c, hc, rfl⟩ := Lane.crosses_iff.1 (hcells r hrmem k (hholder ▸ hh) l hcell)
      obtain ⟨m, hm, -⟩ := hlane.crosser hslots hc
      dsimp only at h
      rw [hm, Option.any_some] at h
      rw [hc]
      dsimp only
      rw [hm]
      exact h

/-- Of a steady change, the bench keeps its move's slot. -/
theorem Steady.moveOfBench (h : Steady s v) (hm : s.moveOfBench b = some m) :
    ∃ x, v.moveOfBench b = some x ∧ x.slot = m.slot := by
  have hfixed : ∀ u : State, b ≠ 0 → (u.moveOfBench b).map Move.fixed = (u.moves.map Move.fixed).find? fun p => p.2.2.1 == b := by
    intro u hb
    rw [State.moveOfBench, if_neg hb, List.find?_map]
    rfl
  obtain ⟨-, -, hb⟩ := State.moveOfBench_some hm
  have heq := (hfixed v hb).trans ((congrArg _ h.moves).trans (hfixed s hb).symm)
  rw [hm, Option.map_some, Option.map_eq_some_iff] at heq
  obtain ⟨x, hx, hxm⟩ := heq
  exact ⟨x, hx, congrArg (·.1) hxm⟩

/-- The stop of the own move beside an intrusion, whatever the intrusion has made of that move before (R103 to R105). -/
theorem State.stopIntruder_own (htiming : w.timing = s.timing) (hmode : w.mode = s.mode)
    (hm : w.move? k = some m ∨ m.state ≠ .stopping ∧ w.move? k = some { m.restored with state := .laneWait }
      ∨ ∃ m', w.move? k = some m' ∧ s.Stops .intrusion m m' ∧ m'.state = .stopping ∧ (m.state = .stopping → m' = m)) :
    ∃ m', (w.enterStopping k .intrusion).move? k = some m' ∧ s.Stops .intrusion m m' ∧ (m.state = .stopping → m' = m) := by
  have hsil : w.startTimer w.silenceFull = s.startTimer s.silenceFull := by
    rw [State.startTimer, State.startTimer, State.silenceFull, State.silenceFull, htiming, hmode]
  rcases hm with hm | ⟨hs, hm⟩ | ⟨m', hm, hstops, hstate, hsame⟩
  · obtain ⟨m', hm', hstops, hsame⟩ := State.enterStopping_stops hm .intrusion
    unfold State.Stops at hstops
    rw [hsil] at hstops
    exact ⟨m', hm', hstops, hsame⟩
  · obtain ⟨m', hm', ⟨hstop, -⟩, -⟩ := State.enterStopping_stops hm .intrusion
    obtain ⟨hstate, hreason, ht, hf, hh, hback, hyield, hsilence, hroute, hretries, htoken⟩ := hstop (by simp)
    obtain ⟨rt, rf, -, rroute, rretries, rtoken, -, -⟩ := m.restored_kept
    exact ⟨m', hm', ⟨fun _ => ⟨hstate, hreason, ht.trans rt, hf.trans rf, hh.trans rf, hback, hyield, hsilence.trans hsil,
      hroute.trans rroute, hretries.trans rretries, htoken.trans rtoken⟩, fun h => absurd h hs⟩, fun h => absurd h hs⟩
  · rw [State.enterStopping_again w k _ m' hm hstate]
    exact ⟨m', hm, hstops, hsame⟩

/-- A move as an intrusion leaves it before its own stop: as it was, waiting again, or stopped as the lane's crossing
move (R82, R83). -/
abbrev State.Shaken (s : State) (w : State) (m : Move) : Prop :=
  w.move? m.slot = some m ∨ m.state ≠ .stopping ∧ w.move? m.slot = some { m.restored with state := .laneWait }
    ∨ ∃ m', w.move? m.slot = some m' ∧ s.Stops .intrusion m m' ∧ m'.state = .stopping ∧ (m.state = .stopping → m' = m)

/-- What an intrusion on segment g leaves in state w, before the intruding bench's own move stops (R103 to R105). -/
structure State.Intruded (s : State) (own : Option Move) (b g : Nat) (w : State) : Prop where
  latched : w.latched .intrusion = true
  rail : w.segs.map Segment.rail = s.segs.map fun r =>
    if r.id = g then
      (r.surveyed, if s.isCell g then r.fence else some .intrusion,
        if s.underItsHolder g then r.occupant else some (s.markOf g (intruderMark own b)))
    else r.rail
  shaken : ∀ m, own = some m → s.Shaken w m
  stops : s.isCell g = false → ∀ k m, s.holder g = some k → s.move? k = some m →
    ∃ m', w.move? k = some m' ∧ s.Stops .intrusion m m'
  held : s.isCell g = false → ∀ k m, s.holder g = some k → s.move? k = some m → m.state ≠ .stopping →
    (∀ x ∈ m.span (m.f + 1) m.h, w.holder x ≠ some k) ∧ s.QuitsLane m w
  again : s.isCell g = false → ∀ k m, s.holder g = some k → s.move? k = some m → m.state = .stopping → w.lanes = s.lanes
  free : s.isCell g = false → s.holder g = none → w.lanes = s.lanes ∧ w.moves = s.moves
  lane : ∀ l, s.cellLane g = some l → s.LaneIntruded l none w ∧ w.lanes[l].state ≠ .offering
    ∧ ∀ i, w.lanes[l].crosses i = true → w.lanes[l].entered i = true

theorem State.isCell_of_cellLane (h : s.cellLane g = some l) : s.isCell g = true := by
  rw [State.isCell, h]
  rfl

theorem State.not_isCell (h : s.cellLane g = none) : s.isCell g = false := by
  rw [State.isCell, h]
  rfl

/-- A fence on one segment, and its mark if it is not left under its holder. -/
theorem State.fence_mark_rail (h : v.segs.map Segment.unheld = s.segs.map Segment.unheld) (g c : Nat) (keeps : Bool) :
    (if keeps then v.setFence [g] .intrusion else (v.setFence [g] .intrusion).mark g c).segs.map Segment.rail
      = s.segs.map fun r => if r.id = g then
          (r.surveyed, some .intrusion, if keeps then r.occupant else some (s.markOf g c)) else r.rail := by
  have hmark : (v.setFence [g] .intrusion).markOf g c = s.markOf g c := by
    refine State.markOf_congr ?_ g c
    refine Eq.trans ?_ (State.place_of_unheld h)
    show (v.segs.map _).map _ = _
    rw [List.map_map]
    exact List.map_congr_left fun r _ => by
      show (if r.id ∈ [g] then { r with fence := some .intrusion } else r).place = r.place
      split <;> rfl
  have h2 := congrArg (List.map fun r : Segment => if r.id = g then
    (r.surveyed, some FenceCause.intrusion, if keeps then r.occupant else some (s.markOf g c)) else r.rail) h
  rw [List.map_map, List.map_map] at h2
  refine Eq.trans ?_ h2
  cases keeps with
  | true =>
    rw [if_pos rfl]
    show (v.segs.map _).map _ = _
    rw [List.map_map]
    refine List.map_congr_left fun r _ => ?_
    show (if r.id ∈ [g] then { r with fence := some .intrusion } else r).rail = if r.id = g then _ else r.rail
    by_cases hr : r.id = g
    · rw [if_pos (by simp [hr]), if_pos hr]
      rfl
    · rw [if_neg (by simp [hr]), if_neg hr]
  | false =>
    rw [if_neg Bool.false_ne_true]
    have htwo := v.updateSegs_updateSegs [g] (fun r => { r with fence := some .intrusion })
      (fun r => { r with occupant := some ((v.setFence [g] .intrusion).markOf g c) }) fun _ => rfl
    refine (congrArg (fun u : State => u.segs.map Segment.rail) htwo).trans ?_
    rw [hmark]
    show (v.segs.map _).map _ = _
    rw [List.map_map]
    refine List.map_congr_left fun r _ => ?_
    show (if r.id ∈ [g] then { r with fence := some .intrusion, occupant := some (s.markOf g c) } else r).rail
      = if r.id = g then _ else r.rail
    by_cases hr : r.id = g
    · rw [if_pos (by simp [hr]), if_pos hr]
      rfl
    · rw [if_neg (by simp [hr]), if_neg hr]

theorem State.setFence_holder (s : State) (ids : List Nat) (c : FenceCause) (x : Nat) :
    (s.setFence ids c).holder x = s.holder x := by
  have hseg := s.seg?_updateSegs ids (fun r => { r with fence := some c }) x fun _ => rfl
  unfold State.holder State.setFence
  rw [hseg]
  cases s.seg? x with
  | none => rfl
  | some r =>
    simp only [Option.map_some, Option.bind_some]
    split <;> rfl

/-- Rail that no move holds: the fence and the mark (R103). -/
theorem State.intrudeUnheld_intruded (hown : ∀ m, own = some m → s.move? m.slot = some m) (hcell : s.cellLane g = none)
    (hfree : s.holder g = none) : ∃ w, s.intrude own b g = w.stopIntruder own ∧ Steady s w ∧ s.Intruded own b g w := by
  have hunder : s.underItsHolder g = false := by rw [State.underItsHolder, hfree]
  refine ⟨((s.setFence [g] .intrusion).mark g (intruderMark own b)).notify .intrusion, ?_,
    (s.setFence_steady _ _).trans ((State.mark_steady _ _ _).trans (State.notify_steady _ _)), ?_⟩
  · rw [State.intrude, hcell]
    dsimp only
    rw [hfree]
    rfl
  · have hrail := State.fence_mark_rail (s := s) (v := s) rfl g (intruderMark own b) false
    exact
      { latched := State.notify_latched _ .intrusion
        rail := by
          rw [State.not_isCell hcell, hunder]
          exact hrail
        shaken := fun m hm => .inl (hown m hm)
        stops := fun _ k m hk => by rw [hfree] at hk; cases hk
        held := fun _ k m hk => by rw [hfree] at hk; cases hk
        again := fun _ k m hk => by rw [hfree] at hk; cases hk
        free := fun _ _ => ⟨rfl, rfl⟩
        lane := fun l hl => by rw [hcell] at hl; cases hl }

/-- Rail that another move holds: its stop, the fence, and the mark (R104). -/
theorem State.intrudeHeld_intruded (hown : ∀ m, own = some m → s.move? m.slot = some m)
    (hother : ∀ m, own = some m → s.holder g ≠ some m.slot) (hcell : s.cellLane g = none) (hheld : s.holder g = some k) :
    ∃ w, s.intrude own b g = w.stopIntruder own ∧ Steady s w ∧ s.Intruded own b g w := by
  generalize hv : s.enterStopping k .intrusion = v
  have hunheld : v.segs.map Segment.unheld = s.segs.map Segment.unheld := by
    rw [← hv]
    exact s.enterStopping_unheld k .intrusion
  have hplace : (v.setFence [g] .intrusion).segs.map Segment.place = s.segs.map Segment.place := by
    refine Eq.trans ?_ (State.place_of_unheld hunheld)
    show (v.segs.map _).map _ = _
    rw [List.map_map]
    exact List.map_congr_left fun r _ => by
      show (if r.id ∈ [g] then { r with fence := some .intrusion } else r).place = r.place
      split <;> rfl
  have hkeeps : (match s.move? k with
      | some m2 => decide ((v.setFence [g] .intrusion).occupant g = some (.bench m2.bench))
      | none => false) = s.underItsHolder g := by
    rw [State.underItsHolder, hheld, State.occupant_congr hplace]
    dsimp only
    cases s.move? k <;> rfl
  generalize hw : (if s.underItsHolder g then v.setFence [g] .intrusion
    else (v.setFence [g] .intrusion).mark g (intruderMark own b)) = w
  have hrail : w.segs.map Segment.rail = _ := hw ▸ State.fence_mark_rail hunheld g (intruderMark own b) (s.underItsHolder g)
  have hlike : w.lanes = v.lanes ∧ w.moves = v.moves ∧ (∀ x, w.holder x = v.holder x) ∧ Steady v w := by
    have hfence : ∀ x, (v.setFence [g] .intrusion).holder x = v.holder x := v.setFence_holder _ _
    rw [← hw]
    split
    · exact ⟨rfl, rfl, hfence, v.setFence_steady _ _⟩
    · exact ⟨rfl, rfl, fun x => (State.mark_holder _ _ _ _).trans (hfence x),
        (v.setFence_steady _ _).trans (State.mark_steady _ _ _)⟩
  obtain ⟨hlanes, hmoves, hholder, hsteady⟩ := hlike
  have hmove : ∀ i, (w.notify .intrusion).move? i = v.move? i := fun i => by
    rw [State.move?, State.move?]
    exact congrArg _ hmoves
  have hwhole : Steady s v := by
    rw [← hv]
    exact s.enterStopping_steady k .intrusion
  refine ⟨w.notify .intrusion, ?_, (hwhole.trans hsteady).trans (State.notify_steady _ _), ?_⟩
  · rw [State.intrude, hcell]
    dsimp only
    rw [hheld]
    dsimp only
    rw [State.intrudeHeld, hv, ← hw]
    exact congrArg (fun c : Bool => ((if c then v.setFence [g] .intrusion
      else (v.setFence [g] .intrusion).mark g (intruderMark own b)).notify .intrusion).stopIntruder own) hkeeps
  · exact
      { latched := State.notify_latched _ .intrusion
        rail := by
          rw [State.not_isCell hcell]
          exact hrail
        shaken := fun m hm => .inl (by
          rw [hmove, ← hv]
          exact State.enterStopping_move_other (hown m hm) fun e => hother m hm (e ▸ hheld))
        stops := fun _ i m hi hm => by
          obtain rfl : k = i := Option.some.inj (hheld.symm.trans hi)
          obtain ⟨m', hm', hstops, -⟩ := State.enterStopping_stops hm .intrusion
          exact ⟨m', by rw [hmove, ← hv]; exact hm', hstops⟩
        held := fun _ i m hi hm hs => by
          obtain rfl : k = i := Option.some.inj (hheld.symm.trans hi)
          refine ⟨fun x hx => ?_, ?_⟩
          · show w.holder x ≠ some k
            rw [hholder, ← hv]
            exact State.enterStopping_holder hm hs hx
          · have hquits := State.enterStopping_quits hm hs .intrusion
            rw [hv] at hquits
            exact hquits.mono hlanes (fun m' hm' => ⟨m', by rw [hmove]; exact hm', rfl⟩) fun n hn =>
              (hsteady.trans (State.notify_steady _ _)).notices n hn
        again := fun _ i m hi hm hs => by
          obtain rfl : k = i := Option.some.inj (hheld.symm.trans hi)
          rw [State.enterStopping_again s k _ m hm hs] at hv
          rw [hv]
          exact hlanes
        free := fun _ hno => by rw [hheld] at hno; cases hno
        lane := fun l hl => by rw [hcell] at hl; cases hl }

/-- A lane cell: what the lane makes of it, and the mark (R105). -/
theorem State.intrudeCell_intruded (hrun : s.RunLaw) (hlane : s.LaneLaw) (hown : ∀ m, own = some m → s.move? m.slot = some m)
    (hcell : s.cellLane g = some l) : ∃ w, s.intrude own b g = w.stopIntruder own ∧ Steady s w ∧ s.Intruded own b g w := by
  have hslots : s.SlotLaw := hrun.2.1
  have hrec : s.RecordLaw := hlane.2.2.1
  have hunheld := s.intrudeLane_unheld hrec l
  obtain ⟨hoffers, hcross⟩ := s.intrudeLane_quiets hslots hlane l
  have hintruded := s.intrudeLane_intruded hslots hlane l
  have hmoves := fun i m => s.intrudeLane_move hslots hlane l (i := i) (m := m)
  have hmark : (s.intrudeLane l).markOf g (intruderMark own b) = s.markOf g (intruderMark own b) :=
    State.markOf_congr (State.place_of_unheld hunheld) _ _
  have hmarked := State.mark_rail hunheld g (intruderMark own b)
  rw [hmark] at hmarked
  have hsteady := s.intrudeLane_steady l
  generalize hv : s.intrudeLane l = v at *
  generalize hw : (if s.underItsHolder g then v else v.mark g (intruderMark own b)) = w
  have hlike : w.lanes = v.lanes ∧ w.moves = v.moves ∧ (∀ x, w.holder x = v.holder x) ∧ Steady v w := by
    rw [← hw]
    split
    · exact ⟨rfl, rfl, fun _ => rfl, Steady.refl v⟩
    · exact ⟨rfl, rfl, fun x => v.mark_holder _ _ x, v.mark_steady _ _⟩
  obtain ⟨hwlanes, hwmoves, hwholder, hwsteady⟩ := hlike
  have hmove : ∀ i, (w.notify .intrusion).move? i = v.move? i := fun i => by
    rw [State.move?, State.move?]
    exact congrArg _ hwmoves
  have hnotcell : s.isCell g ≠ false := by rw [State.isCell_of_cellLane hcell]; decide
  refine ⟨w.notify .intrusion, ?_, (hsteady.trans hwsteady).trans (State.notify_steady _ _), ?_⟩
  · rw [State.intrude, hcell]
    dsimp only
    rw [State.intrudeCell, hv, State.carriesCrosser_eq hrun hlane hcell, hw]
  · exact
      { latched := State.notify_latched _ .intrusion
        rail := by
          rw [State.isCell_of_cellLane hcell]
          show w.segs.map Segment.rail = _
          rw [← hw]
          cases s.underItsHolder g with
          | true =>
            rw [if_pos rfl]
            have hrail := congrArg (List.map Segment.rail) hunheld
            rw [List.map_map, List.map_map] at hrail
            refine hrail.trans (List.map_congr_left fun r _ => ?_)
            split <;> rfl
          | false =>
            rw [if_neg Bool.false_ne_true, hmarked]
            refine List.map_congr_left fun r _ => ?_
            by_cases hr : r.id = g
            · rw [if_pos hr, if_pos hr]
              rfl
            · rw [if_neg hr, if_neg hr]
        shaken := fun m hm => by
          unfold State.Shaken
          rw [hmove]
          exact hmoves m.slot m (hown m hm)
        stops := fun h => absurd h hnotcell
        held := fun h => absurd h hnotcell
        again := fun h => absurd h hnotcell
        free := fun h => absurd h hnotcell
        lane := fun x hx => by
          obtain rfl : l = x := Option.some.inj (hcell.symm.trans hx)
          have hlane : (w.notify .intrusion).lanes[l] = v.lanes[l] := congrArg (·[l]) hwlanes
          rw [hlane]
          exact ⟨hintruded.mono hwlanes hwholder (fun n hn => (hwsteady.trans (State.notify_steady _ _)).notices n hn)
            fun k y hy => ⟨y, by rw [hmove]; exact hy, .inl rfl⟩, hoffers, hcross⟩ }

theorem State.intrude_intruded (hrun : s.RunLaw) (hlane : s.LaneLaw) (hown : ∀ m, own = some m → s.move? m.slot = some m)
    (hother : ∀ m, own = some m → s.holder g ≠ some m.slot) :
    ∃ w, s.intrude own b g = w.stopIntruder own ∧ Steady s w ∧ s.Intruded own b g w := by
  cases hcell : s.cellLane g with
  | some l => exact State.intrudeCell_intruded hrun hlane hown hcell
  | none =>
    cases hheld : s.holder g with
    | none => exact State.intrudeUnheld_intruded hown hcell hheld
    | some k => exact State.intrudeHeld_intruded hown hother hcell hheld

/-- What the stop of the own move, and what has been heard of it, leave of an intrusion (R36, R98, R103 to R105). -/
structure State.Aftermath (s : State) (own : Option Move) (w u : State) : Prop where
  steady : Steady w u
  rail : u.segs.map Segment.rail = w.segs.map Segment.rail
  holders : ∀ x k, u.holder x = some k → w.holder x = some k
  others : ∀ k y, (∀ m, own = some m → k ≠ m.slot) → w.move? k = some y → u.move? k = some y
  same : own = none → u = w
  stops : ∀ m, own = some m → ∃ m', u.move? m.slot = some m' ∧ s.Stops .intrusion m m'
    ∧ (m.state = .stopping → m'.silence = m.silence.restart s.silenceFull)
  quits : ∀ m, own = some m → m.state ≠ .stopping → w.lanes = s.lanes → w.move? m.slot = some m → s.QuitsLane m u
  lane : ∀ l, s.LaneIntruded l none w → w.lanes[l].state ≠ .offering →
    (∀ i, w.lanes[l].crosses i = true → w.lanes[l].entered i = true) → s.LaneIntruded l (own.map (·.slot)) u

theorem State.aftermath_none (s w : State) : s.Aftermath none w w :=
  { steady := Steady.refl w
    rail := rfl
    holders := fun _ _ h => h
    others := fun _ _ _ h => h
    same := fun _ => rfl
    stops := fun m h => by cases h
    quits := fun m h => by cases h
    lane := fun _ h _ _ => h }

theorem State.aftermath_own (htiming : w.timing = s.timing) (hmode : w.mode = s.mode) (hshaken : s.Shaken w m)
    (hb : ∃ x, w.moveOfBench b = some x ∧ x.slot = m.slot) :
    s.Aftermath (some m) w ((w.enterStopping m.slot .intrusion).heard b) := by
  obtain ⟨x, hx, hxm⟩ := hb
  have hsteady := w.enterStopping_steady m.slot .intrusion
  obtain ⟨y, hy, hyx⟩ := hsteady.moveOfBench hx
  have hslot : y.slot = m.slot := hyx.trans hxm
  obtain ⟨m', hm', hstops, hsame⟩ := State.stopIntruder_own htiming hmode hshaken
  have hrail := w.enterStopping_rail m.slot .intrusion
  have hholder := fun x k => State.enterStopping_holder_only (s := w) (k := m.slot) (r := .intrusion) (g := x) (i := k)
  have hother := fun k y => State.enterStopping_move_other (s := w) (k := m.slot) (r := .intrusion) (i := k) (m := y)
  have hquits := fun hw hs => State.enterStopping_quits (s := w) (k := m.slot) (m := m) hw hs .intrusion
  have hlane := fun l (h : s.LaneIntruded l none w) ho hc => h.stops ho hc m.slot
  have hsil : ((w.enterStopping m.slot .intrusion)).silenceFull = s.silenceFull := by
    rw [State.silenceFull, hsteady.timing, htiming]
    rfl
  generalize w.enterStopping m.slot .intrusion = v at *
  have hheard := State.heard_of_move hy
  rw [hslot, hsil] at hheard
  have hown : ∀ z, v.move? m.slot = some z →
      (v.heard b).move? m.slot = some { z with silence := z.silence.restart s.silenceFull } := fun z hz => by
    rw [hheard]
    exact State.updateMove_move hz fun _ => rfl
  have hothers : ∀ k z, k ≠ m.slot → v.move? k = some z → (v.heard b).move? k = some z := fun k z hk hz => by
    rw [hheard]
    exact State.updateMove_move_other hz hk fun _ => rfl
  have hlook : (v.heard b).lanes = v.lanes ∧ (v.heard b).segs = v.segs ∧ (v.heard b).notices = v.notices := by
    rw [hheard]
    exact ⟨rfl, rfl, rfl⟩
  obtain ⟨hvlanes, hvsegs, hvnotices⟩ := hlook
  have hvlatched : ∀ n, v.latched n = true → (v.heard b).latched n = true := fun n hn => by
    rw [State.latched, hvnotices]
    exact hn
  have hvholder : ∀ x, (v.heard b).holder x = v.holder x := fun x => by
    rw [State.holder, State.seg?, hvsegs]
    rfl
  exact
    { steady := hsteady.trans (v.heard_steady b)
      rail := by rw [hvsegs]; exact hrail
      holders := fun x k h => hholder x k ((hvholder x).symm.trans h)
      others := fun k y hk hy => hothers k y (hk m rfl) (hother k y hy (hk m rfl))
      same := fun h => by cases h
      stops := fun i hi => by
        obtain rfl : m = i := Option.some.inj hi
        exact ⟨_, hown m' hm', hstops.restart, fun hs => by rw [hsame hs]⟩
      quits := fun i hi hs hlanes hmove => by
        obtain rfl : m = i := Option.some.inj hi
        exact ((hquits hmove hs).of_same hlanes htiming hmode rfl rfl).mono hvlanes
          (fun z hz => ⟨_, hown z hz, rfl⟩) hvlatched
      lane := fun l h ho hc => (hlane l h ho hc).mono hvlanes hvholder hvlatched fun k z hz => by
        by_cases hk : k = m.slot
        · subst hk
          exact ⟨_, hown z hz, .inr ⟨rfl, rfl⟩⟩
        · exact ⟨z, hothers k z hk hz, .inl rfl⟩ }

end intrude

/-! ### ARRIVED as an intrusion (R100, R103 to R106) -/

section arrived
variable {s : State} {addr : WordAddr} {tag : Word} {j : ReportIx} {g b : Nat} {own : Option Move} {w : State}

theorem State.Intruded.of_atReport (h : (s.atReport addr tag j).Intruded own b g w) : s.Intruded own b g w :=
  { latched := h.latched
    rail := h.rail
    shaken := h.shaken
    stops := h.stops
    held := h.held
    again := h.again
    free := h.free
    lane := h.lane }

theorem State.atReport_runLaw (h : s.RunLaw) : (s.atReport addr tag j).RunLaw := by
  obtain ⟨hsegs, hslots, hruns, hqueue, hholds⟩ := h
  have hroute : ∀ {r}, s.RouteLaw r → (s.atReport addr tag j).RouteLaw r := fun h => State.RouteLaw.of_config h rfl
  exact ⟨hsegs, hslots, fun m hm => ⟨hroute (hruns m hm).1, (hruns m hm).2⟩, fun q hq => hroute (hqueue q hq), hholds⟩

theorem carryArrived_eq (hconf : s.configured (s.reportOf j).segment = true) :
    carryReport (some .arrived) (s.reportOf j) (s.atReport addr tag j)
      = hearing arrivedReport (s.reportOf j).bench (s.reportOf j).segment (s.atReport addr tag j) :=
  checkedReport_of_configured (judge := hearing arrivedReport) (named := false) (s := s.atReport addr tag j)
    (fun h => absurd h (by decide)) hconf

/-- An ARRIVED onto rail that the bench's own move does not hold is judged an intrusion. -/
theorem carryArrived_intrudes (hrun : s.RunLaw) (hlane : s.LaneLaw) (hconf : s.configured (s.reportOf j).segment = true)
    (hown : s.moveOfBench (s.reportOf j).bench = own) (hheld : ∀ m, own = some m → s.holder (s.reportOf j).segment ≠ some m.slot)
    (hnew : own = none → (s.reportOf j).bench = 0 ∨ s.occupant (s.reportOf j).segment ≠ some (.bench (s.reportOf j).bench)) :
    ∃ w u, Steady (s.atReport addr tag j) w ∧ s.Intruded own (s.reportOf j).bench (s.reportOf j).segment w
      ∧ s.Aftermath own w u ∧ carryReport (some .arrived) (s.reportOf j) (s.atReport addr tag j)
        = (u, if own = none then .unmanaged else .accepted) := by
  have hmoves : ∀ m, own = some m → s.move? m.slot = some m := fun m hm =>
    State.move?_of_moveOfBench hrun.2.1 (hown.trans hm)
  obtain ⟨w, hintrude, hsteady, hI⟩ := State.intrude_intruded (own := own) (b := (s.reportOf j).bench)
    (g := (s.reportOf j).segment) (State.atReport_runLaw (addr := addr) (tag := tag) (j := j) hrun) hlane hmoves hheld
  have hI' := hI.of_atReport
  rw [carryArrived_eq hconf]
  cases own with
  | none =>
    refine ⟨w, w, hsteady, hI', s.aftermath_none w, hearing_of_other (x := .unmanaged) ?_ (by decide)⟩
    unfold arrivedReport
    rw [State.atReport_moveOfBench_look, hown]
    dsimp only
    have hno : ¬((s.reportOf j).bench ≠ 0
        ∧ (s.atReport addr tag j).occupant (s.reportOf j).segment = some (.bench (s.reportOf j).bench)) := fun h =>
      (hnew rfl).elim h.1 fun h2 => h2 h.2
    rw [if_neg hno, hintrude]
    rfl
  | some m =>
    refine ⟨w, _, hsteady, hI', State.aftermath_own (b := (s.reportOf j).bench) hsteady.timing hsteady.mode
      (hI'.shaken m rfl) (hsteady.moveOfBench hown), hearing_of_accepted ?_⟩
    unfold arrivedReport
    rw [State.atReport_moveOfBench_look, hown]
    dsimp only
    rw [State.atReport_holder_look, if_neg (hheld m rfl), hintrude]
    rfl

/-- An ARRIVED by a bench with no live move onto rail that is no lane cell and that no move holds (R103, R106). -/
theorem State.intrude_unmanaged (hcell : s.cellLane g = none) (hfree : s.holder g = none) :
    s.intrude none b g = { s.updateSegs [g] (fun r => { r with fence := some .intrusion, occupant := some (s.markOf g b) }) with
      notices := s.notices ||| Notice.mask .intrusion } := by
  have htwo := s.updateSegs_updateSegs [g] (fun r => { r with fence := some .intrusion })
    (fun r => { r with occupant := some (s.markOf g b) }) fun _ => rfl
  have hmark : (s.setFence [g] .intrusion).markOf g b = s.markOf g b := by
    refine State.markOf_congr ?_ g b
    show (s.segs.map _).map _ = _
    rw [List.map_map]
    exact List.map_congr_left fun r _ => by
      show (if r.id ∈ [g] then { r with fence := some .intrusion } else r).place = r.place
      split <;> rfl
  have hmarked : (s.setFence [g] .intrusion).mark g b
      = (s.setFence [g] .intrusion).updateSegs [g] fun r => { r with occupant := some (s.markOf g b) } := by
    rw [State.mark, hmark]
  rw [State.intrude, hcell]
  dsimp only
  rw [hfree]
  show ((s.setFence [g] .intrusion).mark g b).notify .intrusion = _
  rw [hmarked]
  exact congrArg (fun v : State => v.notify .intrusion) htwo

end arrived

/-- Settles O30: the intrusion by the rail, the stop of the own move, and the mark. -/
theorem intrudingArrivalByTheRail : Obligations.IntrudingArrivalByTheRail := by
  refine ⟨?_, ?_, fun s g b => ⟨fun hb => if_pos hb, fun hb hall => ?_, fun x hb hx => ?_, fun hb hlen => ?_⟩⟩
  · rintro addr tag s j g b h rfl rfl hconf hnone
    have hcarry := carryArrived_eq (addr := addr) (tag := tag) hconf
    refine ⟨fun hsame => ?_, fun hnew hcell hfree => ?_⟩
    · refine congrArg Host.Outcome.next (State.reportRow_taken h (by simp) (hcarry.trans
        (hearing_of_other (x := .unmanaged) ?_ (by decide))))
      unfold arrivedReport
      rw [State.atReport_moveOfBench_look, hnone]
      exact if_pos hsame
    · have hjudge : arrivedReport (s.reportOf j).bench (s.reportOf j).segment (s.atReport addr tag j)
          = ({ (s.atReport addr tag j).updateSegs [(s.reportOf j).segment] (fun r =>
              { r with fence := some .intrusion, occupant := some (s.markOf (s.reportOf j).segment (s.reportOf j).bench) }) with
              notices := s.notices ||| Notice.mask .intrusion }, .unmanaged) := by
        unfold arrivedReport
        rw [State.atReport_moveOfBench_look, hnone]
        dsimp only
        rw [State.atReport_occupant_look, if_neg hnew, State.intrude_unmanaged (s := s.atReport addr tag j) hcell hfree]
        rfl
      refine congrArg Host.Outcome.next ((State.reportRow_unopened h (by simp)
        (hcarry.trans (hearing_of_other hjudge (by decide))) (announced_of_occupied fun x => by simp)).trans ?_)
      simp only [State.updateSegs, List.mem_singleton]
      rfl
  · rintro addr tag s j g b own hrun hlane h rfl rfl hconf hown hheld hnew
    obtain ⟨w, u, hsteady, hI, hA, hcarry⟩ := carryArrived_intrudes (addr := addr) (tag := tag) hrun hlane hconf hown hheld hnew
    obtain ⟨t, hexec, hrep⟩ : ∃ t, exec (.arrived addr tag) s = .next t
        ∧ s.Reported addr tag j (if own = none then .unmanaged else .accepted) u t :=
      ⟨_, rfl, State.reportRow_reported h hcarry⟩
    have hwhole := hsteady.trans hA.steady
    have hother : ∀ {k : SlotIx}, s.holder (s.reportOf j).segment = some k → ∀ m, own = some m → k ≠ m.slot :=
      fun hk m hm e => hheld m hm (e ▸ hk)
    refine ⟨t, hexec, hrep.reports, hrep.latched _ (hA.steady.notices _ hI.latched), ?_, fun m hm => ?_,
      fun hcell k m hk hm => ⟨fun hs x hx hh => ?_, ?_⟩, fun hcell hfree => ⟨fun hno => ?_, fun m hm hs => ?_⟩,
      fun hcell hno k m hk hm => ⟨fun hs => ?_, fun hs => ?_⟩, fun l hl => ?_, hrep.queue.trans hwhole.queue,
      hrep.tokens.trans hwhole.tokens, hrep.orders.trans hwhole.orders, hrep.enable, hrep.mode, hrep.frame, hrep.mem⟩
    · rw [hrep.segs]
      refine (hA.rail.trans hI.rail).trans (List.map_congr_left fun r _ => ?_)
      cases own <;> rfl
    · obtain ⟨m', hm', hstops⟩ := hA.stops m hm
      exact ⟨m', by rw [hrep.move]; exact hm', hstops⟩
    · exact (hI.held hcell k m hk hm hs).1 x hx (hA.holders x k ((hrep.holder x).symm.trans hh))
    · obtain ⟨m', hm', hstops⟩ := hI.stops hcell k m hk hm
      exact ⟨m', by rw [hrep.move]; exact hA.others k m' (hother hk) hm', hstops⟩
    · rw [hrep.lanes, hA.same hno]
      exact (hI.free hcell hfree).1
    · obtain ⟨hlanes, hmoves⟩ := hI.free hcell hfree
      refine hrep.quits (hA.quits m hm hs hlanes ?_)
      rw [State.move?, hmoves]
      exact State.move?_of_moveOfBench hrun.2.1 (hown.trans hm)
    · rw [hrep.lanes, hA.same hno]
      exact hI.again hcell k m hk hm hs
    · have hq := (hI.held hcell k m hk hm hs).2
      rw [← hA.same hno] at hq
      exact hrep.quits hq
    · obtain ⟨hintruded, hoffers, hcross⟩ := hI.lane l hl
      exact (hA.lane l hintruded hoffers hcross).mono hrep.lanes hrep.holder hrep.latched fun k y hy =>
        ⟨y, by rw [hrep.move]; exact hy, .inl rfl⟩
  · rw [State.markOf, if_neg hb, List.filter_eq_nil_iff.2 fun x hx => by simp [hall x hx]]
  · rw [State.markOf, if_neg hb, hx]
  · rw [State.markOf, if_neg hb]
    split
    · rename_i he
      rw [he] at hlen
      simp at hlen
    · rename_i he
      rw [he] at hlen
      simp at hlen
    · rfl

end Sys2Proof.Machine
end


section
/-!
PROOFS. What the end of a move leaves of the lanes and of the rail (R39, R79, R87).
-/

open Sys2Proof Sys2Proof.Machine

namespace Sys2Proof.Machine

/-! ### A lane put in fault (R85, R87) -/

section fault
variable {s t : State} {l x : LaneIx} {k i : SlotIx} {g b : Nat}

/-- Neither the record nor a list of the lane names the slot. -/
def Lane.without (ln : Lane) (k : SlotIx) : Prop := ln.crosses k = false ∧ ∀ b : BerthIx, k ∉ ln.lists[b]

theorem State.revokeGrant_holder_only (h : (s.revokeGrant l).holder g = some i) : s.holder g = some i := by
  unfold State.revokeGrant at h
  split at h
  · exact State.restore_holder_only h
  · exact h
  · exact h

/-- A grant taken back gives its place to its own move alone. -/
theorem State.revokeGrant_without (h : s.lanes[l].without k) : (s.revokeGrant l).lanes[l].without k := by
  cases hc : s.lanes[l].crossing with
  | none => rwa [State.revokeGrant_none hc]
  | some c =>
    obtain ⟨i, e⟩ := c
    cases e with
    | true => rwa [State.revokeGrant_entered hc]
    | false =>
      obtain ⟨hcross, hlists⟩ := h
      have hne : k ≠ i := by
        rintro rfl
        rw [Lane.crosses, hc] at hcross
        simp at hcross
      rw [State.revokeGrant_lanes hc, lanes_set_get, if_pos rfl]
      refine ⟨rfl, fun b => ?_⟩
      have hb := hlists b
      have hberth := hlists s.lanes[l].berth
      by_cases e : b = s.lanes[l].berth
      · subst e
        simpa [hne] using hberth
      · rw [Fin.getElem_fin, Vector.getElem_set_ne]
        · exact hb
        · exact fun h => e (Fin.ext h.symm)

theorem State.changeCause_lanes (s : State) (l : LaneIx) (c : FaultCause) : ((s.changeCause l c).notify .laneFault).lanes
    = s.lanes.set l { s.lanes[l] with cause := some c, releaseTimer := .stopped, crossingTimer := .stopped } := rfl

theorem State.faultLane_lanes (s : State) (l : LaneIx) (c : FaultCause) : (s.faultLane l c).lanes
    = (s.revokeGrant l).lanes.set l { (s.revokeGrant l).lanes[l] with
        state := .faulted, cause := some c, runCounter := 0, offerTimer := .stopped, settleTimer := .stopped
        crossingTimer := .stopped, releaseTimer := .stopped } := rfl

/-- A lane put in fault: its state, its cause and its timer, the notice, and no place for a move that had none. -/
theorem State.putInFault_lane (s : State) (l : LaneIx) (c : FaultCause) :
    (s.putInFault l c).lanes[l].state = .faulted ∧ (s.putInFault l c).lanes[l].cause = some c
      ∧ (s.putInFault l c).lanes[l].releaseTimer = .stopped
      ∧ ∀ k, s.lanes[l].without k → (s.putInFault l c).lanes[l].without k := by
  by_cases hst : s.lanes[l].state = .faulted
  · rw [State.putInFault, if_pos hst, State.changeCause_lanes, lanes_set_get, if_pos rfl]
    exact ⟨hst, rfl, rfl, fun k h => h⟩
  · rw [State.putInFault, if_neg hst, State.faultLane_lanes, lanes_set_get, if_pos rfl]
    exact ⟨rfl, rfl, rfl, fun k h => State.revokeGrant_without h⟩

theorem State.putInFault_lanes_other (hx : x ≠ l) (c : FaultCause) : (s.putInFault l c).lanes[x] = s.lanes[x] := by
  by_cases hst : s.lanes[l].state = .faulted
  · rw [State.putInFault, if_pos hst, State.changeCause_lanes, lanes_set_get, if_neg hx]
  · rw [State.putInFault, if_neg hst, State.faultLane_lanes, lanes_set_get, if_neg hx, State.revokeGrant_lanes_other hx]

theorem State.putInFault_unheld (s : State) (l : LaneIx) (c : FaultCause) :
    (s.putInFault l c).segs.map Segment.unheld = s.segs.map Segment.unheld := by
  unfold State.putInFault
  split
  · rfl
  · exact s.revokeGrant_unheld l

theorem State.putInFault_holder_only {c : FaultCause} (h : (s.putInFault l c).holder g = some i) :
    s.holder g = some i := by
  unfold State.putInFault at h
  split at h
  · exact h
  · exact State.revokeGrant_holder_only h

/-! ### Stranding (R39, R87) -/

theorem State.benchAt_of_unheld (h : t.segs.map Segment.unheld = s.segs.map Segment.unheld) (b : Nat) :
    t.benchAt b = s.benchAt b := by
  have hat : ∀ v : State, v.benchAt b = ((v.segs.map Segment.unheld).filter (·.occupant = some (.bench b))).map (·.id) := by
    intro v
    rw [List.filter_map, List.map_map]
    rfl
  rw [hat, hat, h]

theorem State.benchOnLane_of_unheld (h : t.segs.map Segment.unheld = s.segs.map Segment.unheld) (b : Nat) (l : LaneIx) :
    t.benchOnLane b l = s.benchOnLane b l := by
  have hocc : ∀ v : State, v.cellOccupants l = ((v.segs.map Segment.unheld).filter (·.isCellOf l)).filterMap (·.occupant) := by
    intro v
    rw [List.filter_map, List.filterMap_map]
    rfl
  rw [State.benchOnLane, State.benchOnLane, hocc, hocc, h]

/-- What the stranding of the lanes listed makes of state s. -/
structure State.Stranded (s : State) (b : Nat) (done : List LaneIx) (t : State) : Prop where
  steady : Steady s t
  unheld : t.segs.map Segment.unheld = s.segs.map Segment.unheld
  holders : ∀ g i, t.holder g = some i → s.holder g = some i
  others : ∀ x : LaneIx, x ∉ done → t.lanes[x] = s.lanes[x]
  faulted : ∀ x ∈ done, s.benchOnLane b x = true → t.lanes[x].state = .faulted ∧ t.lanes[x].cause = some .stranded
    ∧ t.lanes[x].releaseTimer = .stopped ∧ t.latched .laneFault = true
  keep : ∀ (x : LaneIx) (k : SlotIx), s.lanes[x].without k → t.lanes[x].without k

theorem State.Stranded.step {done : List LaneIx} (h : s.Stranded b done t) (hl : l ∉ done) :
    s.Stranded b (l :: done) (t.strandIf b l) := by
  have hon := State.benchOnLane_of_unheld h.unheld b l
  have hlane : t.lanes[l] = s.lanes[l] := h.others l hl
  have hsteady := t.strandIf_steady b l
  unfold State.strandIf at hsteady ⊢
  rw [hon] at hsteady ⊢
  by_cases hb : s.benchOnLane b l = true
  · rw [if_pos hb] at hsteady ⊢
    obtain ⟨hst, hcause, hrt, hfree⟩ := t.putInFault_lane l .stranded
    exact
      { steady := h.steady.trans hsteady
        unheld := (t.putInFault_unheld l _).trans h.unheld
        holders := fun g i hh => h.holders g i (State.putInFault_holder_only hh)
        others := fun x hx => by
          simp only [List.mem_cons, not_or] at hx
          exact (State.putInFault_lanes_other hx.1 _).trans (h.others x hx.2)
        faulted := fun x hx hbx => by
          by_cases e : x = l
          · subst e
            exact ⟨hst, hcause, hrt, t.putInFault_latched x _⟩
          · obtain ⟨h1, h2, h3, h4⟩ := h.faulted x ((List.mem_cons.1 hx).resolve_left e) hbx
            rw [State.putInFault_lanes_other e]
            exact ⟨h1, h2, h3, hsteady.notices _ h4⟩
        keep := fun x k hk => by
          by_cases e : x = l
          · subst e
            exact hfree k (h.keep x k hk)
          · rw [State.putInFault_lanes_other e]
            exact h.keep x k hk }
  · rw [if_neg hb]
    exact
      { steady := h.steady
        unheld := h.unheld
        holders := h.holders
        others := fun x hx => h.others x fun hm => hx (List.mem_cons_of_mem _ hm)
        faulted := fun x hx hbx => by
          rcases List.mem_cons.1 hx with rfl | hx
          · exact absurd hbx hb
          · exact h.faulted x hx hbx
        keep := h.keep }

theorem State.strandAll_stranded (s : State) (b : Nat) : s.Stranded b [3, 2, 1, 0] (s.strandAll b) := by
  have h0 : s.Stranded b [] s :=
    { steady := Steady.refl s
      unheld := rfl
      holders := fun _ _ h => h
      others := fun _ _ => rfl
      faulted := fun _ h => by cases h
      keep := fun _ _ h => h }
  exact (((h0.step (l := 0) (by decide)).step (l := 1) (by decide)).step (l := 2) (by decide)).step (l := 3) (by decide)

theorem State.strandAll_of_off (h : ∀ l, s.benchOnLane b l = false) : s.strandAll b = s := by
  simp [State.strandAll, State.strandIf, h]

end fault

/-! ### The lane of a move that ends (R39, R77, R79) -/

section ends
variable {s v : State} {l : LaneIx} {k : SlotIx} {m : Move}

/-- A move that waits in no list while a record names it. -/
theorem State.LaneLaw.not_listed (h : s.LaneLaw) (hslots : s.SlotLaw) (hc : s.lanes[l].crosses k = true) (b : BerthIx) :
    k ∉ s.lanes[l].lists[b] := by
  intro hin
  obtain ⟨-, hwait⟩ := h.1
  obtain ⟨c, hrec, rfl⟩ := Lane.crosses_iff.1 hc
  obtain ⟨m, hm, -, -, -, hbefore, hafter, -⟩ := h.crosser hslots hrec
  have hlist : c.slot ∈ s.waiting := by
    unfold State.waiting
    refine List.mem_flatten.2 ⟨s.lanes[l].lists[b], List.mem_flatMap.2 ⟨s.lanes[l], ?_, ?_⟩, hin⟩
    · exact Vector.mem_toList_iff.2 (Vector.getElem_mem _)
    · exact Vector.mem_toList_iff.2 (Vector.getElem_mem _)
  obtain ⟨x, hx, hslot, hstate⟩ := (hwait c.slot).1 hlist
  have hxm : x = m := Option.some.inj ((State.move?_of_mem hslots.moves hx).symm.trans (hslot ▸ hm))
  subst hxm
  cases he : c.entered with
  | false => rw [(hbefore he).1] at hstate; cases hstate
  | true => rcases (hafter he).1 with e | e | e <;> rw [e] at hstate <;> cases hstate

theorem State.endLane_segs (s : State) (k : SlotIx) : (s.endLane k).segs = s.segs := by
  unfold State.endLane
  split
  · rfl
  · split
    · rfl
    · split
      · exact (s.withdrawGrant_oneLane _).segs
      · exact (s.leaveList_oneLane _ k).segs

theorem State.endLane_without (hm : v.move? k = some m) (hl : m.lane = some l)
    (hlist : v.lanes[l].crosses k = true → ∀ b : BerthIx, k ∉ v.lanes[l].lists[b]) :
    (v.endLane k).lanes[l].without k := by
  unfold State.endLane
  rw [hm, Option.bind_some, hl]
  dsimp only
  have hnone : ∀ {ln : Lane}, ln.crossing = none → ln.crosses k = false := fun h => by rw [Lane.crosses, h]
  by_cases he : v.lanes[l].entered k = true
  · rw [if_pos he, State.updateLane_get_same]
    refine ⟨rfl, hlist ?_⟩
    unfold Lane.entered at he
    unfold Lane.crosses
    split at he
    · simp only [Bool.and_eq_true] at he
      exact he.1
    · cases he
  · rw [if_neg he]
    cases hc : v.lanes[l].crosses k with
    | true =>
      rw [if_pos rfl]
      obtain ⟨⟨hlists, hcross, -⟩, -⟩ := v.withdrawGrant_givesUp l
      exact ⟨hnone hcross, by rw [hlists]; exact hlist hc⟩
    | false =>
      rw [if_neg Bool.false_ne_true]
      obtain ⟨hend, hstay⟩ := v.leaveList_lane l k rfl
      have hfiltered : ∀ b : BerthIx, k ∉ (v.lanes[l].lists.map fun q => q.filter fun x => x ≠ k)[b] := fun b => by
        rw [Fin.getElem_fin, Vector.getElem_map]
        simp
      have hcrossing : ∀ {ln : Lane}, ln.crossing = v.lanes[l].crossing → ln.crosses k = false := fun h => by
        rw [Lane.crosses, h]
        exact hc
      by_cases hcond : v.lanes[l].state = .offering ∧ v.lanes[l].head? = some k
          ∧ ({ v.lanes[l] with lists := v.lanes[l].lists.map fun q => q.filter fun x => x ≠ k } : Lane).head? = none
      · obtain ⟨⟨hlists, hcross, -⟩, -⟩ := hend hcond
        exact ⟨hcrossing hcross, by rw [hlists]; exact hfiltered⟩
      · rw [hstay hcond]
        exact ⟨hc, hfiltered⟩

/-! ### A move that ends, before the queue is tried (R39) -/

/-- State s after the end of move m, before the queue is tried: its holds, its lane, its stranded lanes, its entry, its
verdict and the notice (R39). -/
def State.ended (s : State) (m : Move) (x : Verdict) (n : Notice) : State :=
  ((((((s.release m.slot (m.span m.t m.h)).endLane m.slot).strandAll m.bench).removeMove m.slot).setVerdict m.slot x).notify n)

theorem State.endMove_eq (hm : s.move? m.slot = some m) (final : Nat → Verdict) (n : Notice) :
    s.endMove m.slot final n = ((s.ended m (final m.f) n).tryQueue).trigger := by
  rw [State.endMove, hm]
  rfl

/-- What is known of the state in which the queue is tried. -/
structure State.Ended (s : State) (m : Move) (x : Verdict) (n : Notice) (v : State) : Prop where
  kept : Kept s v
  queue : v.queue = s.queue
  tokens : v.tokens = s.tokens
  moves : v.moves.map Move.fixed = (s.moves.filter fun y => y.slot ≠ m.slot).map Move.fixed
  orders : v.orders = s.orders.set m.slot { s.orders[m.slot] with verdict := x }
  latched : v.latched n = true
  unheld : v.segs.map Segment.unheld = s.segs.map Segment.unheld
  holders : ∀ g i, v.holder g = some i → (s.release m.slot (m.span m.t m.h)).holder g = some i
  off : (∀ l, s.benchOnLane m.bench l = false) → ∀ g, v.holder g = (s.release m.slot (m.span m.t m.h)).holder g
  strands : ∀ l, s.benchOnLane m.bench l = true → v.lanes[l].state = .faulted ∧ v.lanes[l].cause = some .stranded
    ∧ v.lanes[l].releaseTimer = .stopped ∧ v.latched .laneFault = true
  lanes : m.lane = none → (∀ l, s.benchOnLane m.bench l = false) → v.lanes = s.lanes
  without : s.SlotLaw → s.LaneLaw → ∀ l, m.lane = some l → v.lanes[l].without m.slot

theorem State.ended_ended (hm : s.move? m.slot = some m) (x : Verdict) (n : Notice) : s.Ended m x n (s.ended m x n) := by
  generalize hr : s.release m.slot (m.span m.t m.h) = r
  have hrsteady : Steady s r := by
    rw [← hr]
    exact s.release_steady _ _
  have hrunheld : r.segs.map Segment.unheld = s.segs.map Segment.unheld := by
    rw [← hr]
    exact s.release_unheld _ _
  have hrlook : r.lanes = s.lanes ∧ r.move? m.slot = some m := by
    rw [← hr]
    exact ⟨rfl, hm⟩
  obtain ⟨hrlanes, hrmove⟩ := hrlook
  have hsegs := r.endLane_segs m.slot
  have hesteady := r.endLane_steady m.slot
  have hwithout := fun l hl => State.endLane_without (v := r) (l := l) hrmove hl
  have hnolane : m.lane = none → r.endLane m.slot = r := fun hl => by
    rw [State.endLane, hrmove, Option.bind_some, hl]
  have hdef : s.ended m x n = ((((r.endLane m.slot).strandAll m.bench).removeMove m.slot).setVerdict m.slot x).notify n := by
    rw [← hr]
    rfl
  generalize r.endLane m.slot = e at *
  have hstranded := e.strandAll_stranded m.bench
  have hoff := fun h => State.strandAll_of_off (s := e) (b := m.bench) h
  generalize e.strandAll m.bench = u at *
  have hu := (hrsteady.trans hesteady).trans hstranded.steady
  have heunheld : e.segs.map Segment.unheld = s.segs.map Segment.unheld := by rw [hsegs, hrunheld]
  have hbench : ∀ l, e.benchOnLane m.bench l = s.benchOnLane m.bench l := State.benchOnLane_of_unheld heunheld m.bench
  have heholder : ∀ g, e.holder g = r.holder g := fun g => by
    rw [State.holder, State.seg?, hsegs]
    rfl
  have hkept : Kept u (((u.removeMove m.slot).setVerdict m.slot x).notify n) :=
    (u.removeMove_kept m.slot).trans ((State.setVerdict_kept _ _ _).trans (State.notify_steady _ _).toKept)
  rw [hdef]
  exact
    { kept := hu.toKept.trans hkept
      queue := hu.queue
      tokens := hu.tokens
      moves := by
        have hfilter : ∀ v : State, (v.moves.filter fun y => y.slot ≠ m.slot).map Move.fixed
            = (v.moves.map Move.fixed).filter fun p => p.1 ≠ m.slot := fun v => by
          rw [List.filter_map]
          rfl
        show (u.moves.filter fun y => y.slot ≠ m.slot).map Move.fixed = _
        rw [hfilter, hfilter, hu.moves]
      orders := by
        show u.orders.set m.slot { u.orders[m.slot] with verdict := x } = _
        rw [hu.orders]
      latched := State.notify_latched _ n
      unheld := hstranded.unheld.trans heunheld
      holders := fun g i h => by
        rw [hr]
        exact (heholder g).symm.trans (hstranded.holders g i h)
      off := fun h g => by
        rw [hr]
        show u.holder g = r.holder g
        rw [hoff fun l => (hbench l).trans (h l), heholder]
      strands := fun l hl => by
        obtain ⟨h1, h2, h3, h4⟩ := hstranded.faulted l (by fin_cases l <;> decide) ((hbench l).trans hl)
        exact ⟨h1, h2, h3, hkept.notices _ h4⟩
      lanes := fun hl h => by
        show u.lanes = s.lanes
        rw [hoff fun l => (hbench l).trans (h l), hnolane hl, hrlanes]
      without := fun hslots hlane l hl => hstranded.keep l m.slot (hwithout l hl fun hc b => by
        rw [hrlanes] at hc ⊢
        exact hlane.not_listed hslots hc b) }

end ends

end Sys2Proof.Machine
end


section
/-!
PROOFS. The trial of the queue after the end of a move: its head is admitted, or refused by the first check that fails
(R27, R28, R31).
-/

open Sys2Proof Sys2Proof.Machine

namespace Sys2Proof.Machine

section queue
variable {v w : State} {k : SlotIx} {q : QueuedOrder} {rest : List QueuedOrder} {r : RefuseReason}

/-- No order has the slot: neither live nor queued. -/
def State.vacant (v : State) (k : SlotIx) : Prop := (∀ y ∈ v.moves, y.slot ≠ k) ∧ ∀ x ∈ v.queue, x.slot ≠ k

theorem State.vacant.move (h : v.vacant k) : v.move? k = none := by
  rw [State.move?, List.find?_eq_none]
  intro y hy
  simpa using h.1 y hy

theorem State.vacant.not_live (h : v.vacant k) : v.live k = false := by
  have hq : v.queued? k = none := by
    rw [State.queued?, List.find?_eq_none]
    intro x hx
    simpa using h.2 x hx
  rw [State.live, h.move, hq]
  rfl

/-- A slot that is vacant while the queue is tried is not touched by it. -/
structure State.Untouched (v : State) (k : SlotIx) (w : State) : Prop where
  vacant : w.vacant k
  orders : w.orders[k] = v.orders[k]
  holders : ∀ g, w.holder g = some k → v.holder g = some k

theorem State.updateOrder_other {i k : SlotIx} (hne : k ≠ i) (u : OrderSlot → OrderSlot) :
    (v.updateOrder i u).orders[k] = v.orders[k] := by
  show (v.orders.set i _)[k] = _
  rw [Fin.getElem_fin, Vector.getElem_set_ne]
  · rfl
  · exact fun h => hne (Fin.ext h.symm)

theorem State.readyCounter_orders (v : State) : v.readyCounter.orders = v.orders := by rw [State.readyCounter_eq]

theorem State.admitOrder_orders (v : State) (q : QueuedOrder) : (v.admitOrder q).orders = v.orders := by
  unfold State.admitOrder
  rw [State.trigger_orders]
  exact v.readyCounter_orders

theorem State.admitOrder_holder (v : State) (q : QueuedOrder) (g : Nat) : (v.admitOrder q).holder g
    = (v.seg? g).bind fun r => if g ∈ q.route.take 1 then some q.slot else r.holder := by
  have hseg := v.seg?_updateSegs (q.route.take 1) (fun r => { r with holder := some q.slot }) g fun _ => rfl
  have hlook : (v.admitOrder q).seg? g = (v.updateSegs (q.route.take 1) fun r => { r with holder := some q.slot }).seg? g := by
    rw [State.seg?, State.admitOrder_segs]
    rfl
  rw [State.holder, hlook, hseg]
  cases v.seg? g with
  | none => rfl
  | some r =>
    show (if g ∈ q.route.take 1 then { r with holder := some q.slot } else r : Segment).holder = _
    rw [Option.bind_some]
    split <;> rfl

theorem State.tryQueue_untouched (h : v.vacant k) : v.Untouched k v.tryQueue := by
  refine State.tryQueue_induct (P := fun u => v.Untouched k u) ⟨h, rfl, fun _ h => h⟩ (fun {u q rest} r hq hu => ?_)
    (fun {u q rest} hq hu hnone => ?_) fun _ hu => hu
  · have hne : k ≠ q.slot := fun e => hu.vacant.2 q (hq ▸ List.mem_cons_self) e.symm
    exact
      { vacant := ⟨hu.vacant.1, fun x hx => hu.vacant.2 x (hq ▸ List.mem_cons_of_mem _ hx)⟩
        orders := (State.updateOrder_other (v := { u with queue := rest }) hne fun o => { o with verdict := .refused r }).trans
          hu.orders
        holders := hu.holders }
  · have hne : q.slot ≠ k := hu.vacant.2 q (hq ▸ List.mem_cons_self)
    refine
      { vacant := ⟨fun y hy => ?_, fun x hx => ?_⟩
        orders := ?_
        holders := fun g hg => ?_ }
    · have hslot := List.mem_map_of_mem (f := fun m : Move => m.slot) hy
      rw [State.admitOrder_map (s := { u with queue := rest }) q (·.slot) fun _ _ => rfl] at hslot
      rcases List.mem_append.1 hslot with hold | hnew
      · obtain ⟨z, hz, he⟩ := List.mem_map.1 hold
        exact fun e => hu.vacant.1 z hz (he.trans e)
      · rw [List.mem_singleton] at hnew
        exact fun e => hne (hnew.symm.trans e)
    · rw [State.admitOrder_queue] at hx
      exact hu.vacant.2 x (hq ▸ List.mem_cons_of_mem _ hx)
    · rw [State.admitOrder_orders]
      exact hu.orders
    · refine hu.holders g ?_
      rw [State.admitOrder_holder] at hg
      show (u.seg? g).bind (·.holder) = some k
      change (u.seg? g).bind _ = some k at hg
      cases hs : u.seg? g with
      | none => rw [hs] at hg; cases hg
      | some r =>
        rw [hs, Option.bind_some] at hg
        split at hg
        · exact absurd (Option.some.inj hg) hne
        · exact hg

/-- The trial of the queue leaves the lanes and the rail, but for the hold of the move it admits. -/
theorem State.tryQueue_rail (v : State) :
    v.tryQueue.lanes = v.lanes ∧ v.tryQueue.segs.map Segment.unheld = v.segs.map Segment.unheld := by
  refine State.tryQueue_induct (P := fun u => u.lanes = v.lanes ∧ u.segs.map Segment.unheld = v.segs.map Segment.unheld)
    ⟨rfl, rfl⟩ (fun r _ hu => hu) (fun {u q rest} _ hu _ => ?_) fun _ hu => hu
  refine ⟨(State.admitOrder_beside _ q).2.1.trans hu.1, Eq.trans ?_ hu.2⟩
  rw [State.admitOrder_segs, List.map_map]
  refine List.map_congr_left fun r _ => ?_
  show (if r.id ∈ q.route.take 1 then { r with holder := some q.slot } else r).unheld = r.unheld
  split <;> rfl

theorem State.tryQueue_nil (h : v.queue = []) : v.tryQueue = v := by
  rw [State.tryQueue, h, State.tryHeads, ← h]

theorem State.tryQueue_admits (h : v.queue = q :: rest)
    (hno : ({ v with queue := rest } : State).admissionFault q.bench (q.route.headD 0) true = none) :
    v.tryQueue = { v with queue := rest }.admitOrder q := by
  rw [State.tryQueue, h, State.tryHeads, hno]

/-- A head that fails a check is refused, and stays so while the rest is tried. -/
theorem State.tryQueue_refuses (hslots : v.SlotLaw) (h : v.queue = q :: rest)
    (hr : ({ v with queue := rest } : State).admissionFault q.bench (q.route.headD 0) true = some r) :
    v.tryQueue.HeadRefused q r := by
  have hnext : v.tryQueue = ({ v with queue := rest }.refuse q.slot r).tryQueue := by
    rw [State.tryQueue, h, State.tryHeads, hr]
    rfl
  have hvacant : ({ v with queue := rest }.refuse q.slot r).vacant q.slot := by
    rw [State.SlotLaw, h, List.map_cons, List.perm_middle.nodup_iff] at hslots
    obtain ⟨hfresh, -⟩ := List.nodup_cons.1 hslots
    simp only [List.mem_append, List.mem_map, not_or, not_exists, not_and] at hfresh
    exact ⟨hfresh.1, hfresh.2⟩
  have huntouched := State.tryQueue_untouched hvacant
  rw [hnext]
  refine ⟨huntouched.vacant.not_live, ?_, (State.tryQueue_kept _).notices _ (State.notify_latched _ .orderRefused)⟩
  rw [huntouched.orders]
  show (v.orders.set q.slot { v.orders[q.slot] with verdict := .refused r })[q.slot].verdict = _
  rw [orders_set_get_same]

end queue

/-! ### The head of the queue at the end of a move (R31) -/

section ends
variable {s v w t : State} {m : Move} {verdict : Verdict} {n : Notice} {q : QueuedOrder} {rest : List QueuedOrder} {g : Nat}

/-- An admitted order's move (R28, Table 2.1). -/
theorem State.admitOrder_move (hfresh : ∀ y ∈ v.moves, y.slot ≠ q.slot) :
    ∃ x, (v.admitOrder q).move? q.slot = some x ∧ x.bench = q.bench ∧ x.cls = q.cls ∧ x.route = q.route
      ∧ x.retries = q.retries ∧ x.t = 0 ∧ x.f = 0 ∧ x.h = 0 ∧ x.stack = [1]
      ∧ x.state = (if v.mode = .halted then .blocked else .moving) ∧ x.token = v.tokens.contains q.bench := by
  have hnone : v.readyCounter.moves.find? (fun y => y.slot == q.slot) = none := by
    rw [List.find?_eq_none]
    intro y hy
    have hslot := List.mem_map_of_mem (f := fun m : Move => m.slot) hy
    rw [v.readyCounter_map (·.slot) fun _ _ => rfl] at hslot
    obtain ⟨z, hz, he⟩ := List.mem_map.1 hslot
    rw [← he]
    simpa using hfresh z hz
  have hfields := v.readyCounter_fields
  simp only [Prod.mk.injEq] at hfields
  obtain ⟨-, htokens, hmode, -⟩ := hfields
  refine ⟨v.readyCounter.newMove q, ?_, rfl, rfl, rfl, rfl, rfl, rfl, rfl, rfl, ?_, ?_⟩
  · rw [State.move?, State.admitOrder_moves, List.find?_append, hnone, Option.none_or]
    exact List.find?_cons_of_pos (by simp [State.newMove])
  · rw [← hmode]
    rfl
  · rw [← htokens]
    rfl

/-- The end of the move leaves its slot vacant. -/
theorem State.Ended.vacant (h : s.Ended m verdict n v) (hslots : s.SlotLaw) (hm : s.move? m.slot = some m) :
    v.vacant m.slot := by
  refine ⟨fun y hy => ?_, fun x hx => ?_⟩
  · have hfixed := List.mem_map_of_mem (f := Move.fixed) hy
    rw [h.moves] at hfixed
    obtain ⟨z, hz, he⟩ := List.mem_map.1 hfixed
    have hne : z.slot ≠ m.slot := by simpa using (List.mem_filter.1 hz).2
    exact fun e => hne ((congrArg (·.1) he).trans e)
  · rw [h.queue] at hx
    have hdis := (List.nodup_append.1 hslots).2.2
    exact fun e => hdis _ (List.mem_map_of_mem (State.move?_some hm).2) _ (List.mem_map_of_mem hx) e.symm

theorem State.Ended.slots (h : s.Ended m verdict n v) (hslots : s.SlotLaw) : v.SlotLaw := by
  have hmap : v.moves.map (·.slot) = (s.moves.filter fun y => y.slot ≠ m.slot).map (·.slot) := by
    have h2 := congrArg (List.map (·.1)) h.moves
    rwa [List.map_map, List.map_map] at h2
  rw [State.SlotLaw, hmap, h.queue]
  exact hslots.sublist (List.Sublist.append_right (List.filter_sublist.map _) _)

/-- What was free, and what the move held, is free once it has ended. -/
theorem State.Ended.released (h : s.Ended m verdict n v) (hrun : s.RunLaw) (hm : s.move? m.slot = some m)
    (hfree : s.holder g = none ∨ s.holder g = some m.slot) : v.holder g = none := by
  have hnone : (s.release m.slot (m.span m.t m.h)).holder g = none := by
    rw [State.release_holder]
    rcases hfree with hno | hown
    · rw [hno]
      simp
    · obtain ⟨-, hslots, -, -, hholds⟩ := hrun
      cases hr : s.seg? g with
      | none => rw [State.holder, hr] at hown; cases hown
      | some r =>
        obtain ⟨rfl, hrmem⟩ := State.seg?_some hr
        have hheld : r.holder = some m.slot := by rw [State.holder, hr] at hown; exact hown
        exact if_pos ⟨(State.spans_of_move hslots hm _).1 ((hholds r hrmem _).1 hheld), hown⟩
  cases hv : v.holder g with
  | none => rfl
  | some i => rw [h.holders g i hv] at hnone; cases hnone

/-- State t is state w but for what has since been heard and triggered. -/
structure State.Follows (w t : State) : Prop where
  orders : t.orders = w.orders
  queue : t.queue = w.queue
  holders : ∀ g, t.holder g = w.holder g
  lanes : t.lanes = w.lanes
  latched : ∀ n, w.latched n = true → t.latched n = true
  moves : ∀ k y, w.move? k = some y → ∃ z x, t.move? k = some z ∧ z = { y with silence := x }
  vacant : ∀ k, w.move? k = none → t.move? k = none

theorem State.Follows.live (h : w.Follows t) {k : SlotIx} (hk : w.live k = false) : t.live k = false := by
  have hparts : w.move? k = none ∧ w.queued? k = none := by
    simpa [State.live] using hk
  have hqueued : t.queued? k = w.queued? k := by rw [State.queued?, State.queued?, h.queue]
  rw [State.live, h.vacant k hparts.1, hqueued, hparts.2]
  rfl

theorem State.Follows.refused (h : w.Follows t) {r : RefuseReason} (hr : w.HeadRefused q r) : t.HeadRefused q r := by
  obtain ⟨hlive, hverdict, hnote⟩ := hr
  exact ⟨h.live hlive, by rw [h.orders]; exact hverdict, h.latched _ hnote⟩

/-- What the end of a move leaves besides its verdict (R31, R39). -/
theorem State.Ended.ends (h : s.Ended m verdict n v) (htable : s.TableLaw) (hrun : s.RunLaw) (hm : s.move? m.slot = some m)
    (ht : v.tryQueue.Follows t) (htrig : t.Triggered) : s.Ends m t := by
  obtain ⟨-, hbench, hslots, -, -⟩ := htable
  have huntouched := State.tryQueue_untouched (h.vacant hslots hm)
  have hvslots := h.slots hslots
  have hlive := ht.live huntouched.vacant.not_live
  refine ⟨ht.vacant _ huntouched.vacant.move, hlive, htrig, fun x hx hh => ?_, fun hnil => ?_, fun q rest hq => ?_⟩
  · have hv := h.holders x _ (huntouched.holders x ((ht.holders x).symm.trans hh))
    rw [State.release_holder] at hv
    split at hv
    · cases hv
    · rename_i hno
      exact hno ⟨hx, hv⟩
  · rw [ht.queue, State.tryQueue_nil (h.queue.trans hnil), h.queue, hnil]
  · have hvq : v.queue = q :: rest := h.queue.trans hq
    have hbenches : v.moves.map (·.bench) = (s.moves.filter fun y => y.slot ≠ m.slot).map (·.bench) := by
      have h2 := congrArg (List.map (·.2.2.1)) h.moves
      rwa [List.map_map, List.map_map] at h2
    have hfree : ((v.moves.map (·.bench)) ++ (q :: rest).map (·.bench)).Nodup := by
      rw [hbenches, ← hq]
      exact hbench.sublist (List.Sublist.append_right (List.filter_sublist.map _) _)
    rw [List.map_cons, List.perm_middle.nodup_iff] at hfree
    obtain ⟨hfresh, -⟩ := List.nodup_cons.1 hfree
    simp only [List.mem_append, List.mem_map, not_or, not_exists, not_and] at hfresh
    have hidle := State.admissionFault_idle (s := { v with queue := rest }) (b := q.bench) (start := q.route.headD 0)
      (entryFree := true) hfresh.1 hfresh.2
    have hat : ({ v with queue := rest } : State).benchAt q.bench = s.benchAt q.bench :=
      State.benchAt_of_unheld h.unheld q.bench
    rw [hat] at hidle
    refine ⟨fun hno => ?_, fun htwo => ?_, fun g hg => ⟨fun hne => ?_, fun hst hoff hheld => ?_, fun hst hheld => ?_⟩⟩
    · rw [hno] at hidle
      exact ht.refused (State.tryQueue_refuses hvslots hvq hidle)
    · match hxs : s.benchAt q.bench, htwo with
      | x :: y :: zs, _ =>
        rw [hxs] at hidle
        exact ht.refused (State.tryQueue_refuses hvslots hvq hidle)
    · rw [hg] at hidle
      exact ht.refused (State.tryQueue_refuses hvslots hvq (hidle.trans (if_pos hne)))
    · obtain ⟨k, hk, hne⟩ := hheld
      have hvheld : ({ v with queue := rest } : State).holder (q.route.headD 0) = some k := by
        show v.holder _ = _
        rw [h.off hoff, State.release_holder, ← hst, hk]
        exact if_neg fun e => hne (Option.some.inj e.2)
      rw [hg] at hidle
      dsimp only at hidle
      rw [if_neg (by simpa using hst), hvheld] at hidle
      exact ht.refused (State.tryQueue_refuses hvslots hvq hidle)
    · have hvfree : ({ v with queue := rest } : State).holder (q.route.headD 0) = none :=
        h.released hrun hm (hst ▸ hheld)
      rw [hg] at hidle
      dsimp only at hidle
      rw [if_neg (by simpa using hst), hvfree] at hidle
      have hadmits := State.tryQueue_admits hvq hidle
      have hvslot : ∀ y ∈ v.moves, y.slot ≠ q.slot := by
        rw [State.SlotLaw, hvq, List.map_cons, List.perm_middle.nodup_iff] at hvslots
        obtain ⟨hno, -⟩ := List.nodup_cons.1 hvslots
        simp only [List.mem_append, List.mem_map, not_or, not_exists, not_and] at hno
        exact hno.1
      obtain ⟨x, hx, hxb, hxc, hxr, hxn, hxt, hxf, hxh, hxs, hxstate, hxtoken⟩ :=
        State.admitOrder_move (v := { v with queue := rest }) (q := q) hvslot
      refine ⟨?_, ?_, ?_⟩
      · rw [ht.queue, hadmits, State.admitOrder_queue]
      · rw [ht.holders, hadmits, State.admitOrder_holder]
        have hmem : g ∈ v.benchAt q.bench := by
          rw [State.benchAt_of_unheld h.unheld, hg]
          exact List.mem_singleton_self g
        obtain ⟨r, hr, hrid⟩ := List.mem_map.1 hmem
        have hseg : ∃ y, v.seg? g = some y := by
          rw [← Option.isSome_iff_exists, State.seg?, List.find?_isSome]
          exact ⟨r, (List.mem_filter.1 hr).1, by simpa using hrid⟩
        obtain ⟨y, hy⟩ := hseg
        have hlong : 2 ≤ q.route.length := (hrun.2.2.2.1 q (hq ▸ List.mem_cons_self)).bounds.1
        have htake : g ∈ q.route.take 1 := by
          rw [hst]
          match q.route, hlong with
          | a :: _, _ => exact List.mem_cons_self
        show (v.seg? g).bind _ = _
        rw [hy]
        exact if_pos htake
      · obtain ⟨z, sil, hz, rfl⟩ := ht.moves q.slot x (by rw [hadmits]; exact hx)
        refine ⟨_, hz, hxb, hxc, hxr, hxn, hxt, hxf, hxh, hxs, hxstate.trans ?_, hxtoken.trans ?_⟩
        · rw [← h.kept.mode]
        · rw [← h.tokens]

end ends

end Sys2Proof.Machine
end


section
/-!
PROOFS. HALTED, and the silence that expires: the end of a move, with its verdict, its holds, the head of the queue and the
lanes it strands (R31, R37, R39, R87, R109, R111, R129).
-/

open Sys2Proof Sys2Proof.Machine

namespace Sys2Proof.Machine

section follows
variable {s u w t : State} {m : Move} {n : Notice} {addr : WordAddr} {tag : Word} {j : ReportIx} {x : Acceptance}

theorem State.Follows.trans (h : u.Follows w) (k : w.Follows t) : u.Follows t :=
  { orders := k.orders.trans h.orders
    queue := k.queue.trans h.queue
    holders := fun g => (k.holders g).trans (h.holders g)
    lanes := k.lanes.trans h.lanes
    latched := fun n hn => k.latched n (h.latched n hn)
    moves := fun i y hy => by
      obtain ⟨z, a, hz, rfl⟩ := h.moves i y hy
      obtain ⟨z', b, hz', rfl⟩ := k.moves i _ hz
      exact ⟨_, b, hz', rfl⟩
    vacant := fun i hi => k.vacant i (h.vacant i hi) }

/-- A state that differs in no table follows it. -/
theorem State.Follows.of_tables (horders : t.orders = w.orders) (hqueue : t.queue = w.queue) (hsegs : t.segs = w.segs)
    (hlanes : t.lanes = w.lanes) (hlatched : ∀ n, w.latched n = true → t.latched n = true) (hmoves : t.moves = w.moves) :
    w.Follows t :=
  { orders := horders
    queue := hqueue
    holders := fun g => by rw [State.holder, State.seg?, hsegs]; rfl
    lanes := hlanes
    latched := hlatched
    moves := fun i y hy => ⟨y, y.silence, by rw [State.move?, hmoves]; exact hy, rfl⟩
    vacant := fun i hi => by rw [State.move?, hmoves]; exact hi }

theorem State.follows_trigger (w : State) : w.Follows w.trigger := by
  obtain ⟨a, ha⟩ := w.trigger_eq
  rw [ha]
  exact .of_tables rfl rfl rfl rfl (fun _ h => h) rfl

theorem State.follows_announce (before w : State) : w.Follows (before.announce w) := by
  rw [State.announce_frame]
  exact .of_tables rfl rfl rfl rfl (fun _ h => h) rfl

theorem State.follows_heard (w : State) (b : Nat) : w.Follows (w.heard b) := by
  unfold State.heard
  split
  · rename_i y _
    exact
      { orders := rfl
        queue := rfl
        holders := fun _ => rfl
        lanes := rfl
        latched := fun _ h => h
        moves := fun i z hz => by
          by_cases hi : i = y.slot
          · subst hi
            exact ⟨_, _, State.updateMove_move hz fun _ => rfl, rfl⟩
          · exact ⟨z, z.silence, State.updateMove_move_other hz hi fun _ => rfl, rfl⟩
        vacant := fun i hi => (w.move?_updateMove i y.slot (fun x => { x with silence := x.silence.restart w.silenceFull })
          fun _ => rfl).trans (by rw [hi]; rfl) }
  · exact .of_tables rfl rfl rfl rfl (fun _ h => h) rfl

theorem State.Reported.follows (h : s.Reported addr tag j x u t) : u.Follows t :=
  .of_tables h.orders h.queue h.segs h.lanes h.latched h.moves

/-! ### What the end of a move leaves (R39) -/

theorem State.endMove_rail (hm : s.move? m.slot = some m) (final : Nat → Verdict) (n : Notice) :
    (s.endMove m.slot final n).segs.map Segment.rail = s.segs.map Segment.rail := by
  have hunheld : (s.endMove m.slot final n).segs.map Segment.unheld = s.segs.map Segment.unheld := by
    rw [State.endMove_eq hm, State.trigger_segs]
    exact (State.tryQueue_rail _).2.trans (State.ended_ended hm _ n).unheld
  have h2 := congrArg (List.map Segment.rail) hunheld
  rwa [List.map_map, List.map_map] at h2

/-- The end of a move, in a state that follows it. -/
theorem State.endMove_outcome (hslots : s.SlotLaw) (hm : s.move? m.slot = some m) {final : Nat → Verdict}
    (ht : (s.endMove m.slot final n).Follows t) (htrig : t.Triggered) :
    t.move? m.slot = none ∧ t.live m.slot = false ∧ t.orders[m.slot].verdict = final m.f
      ∧ t.orders[m.slot].overrun = s.orders[m.slot].overrun ∧ t.latched n = true
      ∧ (s.TableLaw → s.RunLaw → s.Ends m t) ∧ (s.RunLaw → s.LaneLaw → s.Strands m t)
      ∧ ∀ x ∈ m.span m.t m.h, t.holder x ≠ some m.slot := by
  have hE := State.ended_ended hm (final m.f) n
  rw [State.endMove_eq hm] at ht
  generalize s.ended m (final m.f) n = v at *
  have hfollows := v.tryQueue.follows_trigger.trans ht
  have huntouched := State.tryQueue_untouched (hE.vacant hslots hm)
  have horder : t.orders[m.slot] = { s.orders[m.slot] with verdict := final m.f } := by
    rw [hfollows.orders, huntouched.orders, hE.orders, orders_set_get_same]
  have hlatched : ∀ n, v.latched n = true → t.latched n = true := fun n hn =>
    hfollows.latched n (v.tryQueue_kept.notices n hn)
  have hlanes : t.lanes = v.lanes := hfollows.lanes.trans v.tryQueue_rail.1
  refine ⟨hfollows.vacant _ huntouched.vacant.move, hfollows.live huntouched.vacant.not_live, by rw [horder],
    by rw [horder], hlatched n hE.latched, fun htable hrun => hE.ends htable hrun hm hfollows htrig, fun hrun hlane => ?_,
    fun x hx hh => ?_⟩
  · refine ⟨fun l hl => ?_, fun l hl => ?_⟩
    · obtain ⟨h1, h2, h3, h4⟩ := hE.strands l hl
      rw [hlanes]
      exact ⟨h1, h2, h3, hlatched _ h4⟩
    · rw [hlanes]
      exact hE.without hslots hlane l hl
  · have hv := hE.holders x _ (huntouched.holders x ((hfollows.holders x).symm.trans hh))
    rw [State.release_holder] at hv
    split at hv
    · cases hv
    · rename_i hno
      exact hno ⟨hx, hv⟩

theorem State.endMove_triggered (hm : s.move? m.slot = some m) (final : Nat → Verdict) (n : Notice) :
    (s.endMove m.slot final n).Triggered := by
  rw [State.endMove_eq hm]
  exact State.trigger_triggered _

end follows

/-- Settles O38: outside STOPPING the stop, in STOPPING the end. -/
theorem silenceExpiryStopsOrEnds : Obligations.SilenceExpiryStopsOrEnds := by
  intro s k m hslots hm hrunning
  have hexec : exec (.silenceExpiry k) s = .next (s.announce (s.silenceExpiry k)) := rfl
  obtain ⟨rfl, -⟩ := State.move?_some hm
  have heq : s.silenceExpiry m.slot = if m.state = .stopping then s.endMove m.slot (fun f => .stopped f .silent) .moveStopped
      else s.enterStopping m.slot .silent := by
    rw [State.silenceExpiry, hm]
    exact if_pos hrunning
  have hkept : Kept s (s.announce (s.silenceExpiry m.slot)) :=
    (s.silenceExpiry_kept m.slot).trans (State.announce_steady _ _).toKept
  have hfollows := s.follows_announce (s.silenceExpiry m.slot)
  refine ⟨fun hs => ⟨_, hexec, ?_⟩, fun hs => ⟨_, hexec, ?_⟩⟩
  · rw [if_neg hs] at heq
    obtain ⟨m', hm', ⟨hstop, -⟩, -⟩ := State.enterStopping_stops hm .silent
    obtain ⟨hstate, hreason, ht, hf, hh, hback, -, hsil, -⟩ := hstop hs
    have hsteady := (s.enterStopping_steady m.slot .silent).trans (State.announce_steady s _)
    have hquits := State.enterStopping_quits hm hs .silent
    rw [← heq] at hm' hsteady hquits
    obtain ⟨hlanes, -, hmoves, hnotices, -⟩ := s.announced_fields (s.silenceExpiry m.slot)
    have hmove : ∀ y, (s.silenceExpiry m.slot).move? m.slot = some y →
        (s.announce (s.silenceExpiry m.slot)).move? m.slot = some y := fun y hy => by
      rw [State.move?, hmoves]
      exact hy
    refine ⟨⟨m', hmove m' hm', hstate, hreason, ht, hf, hh, hback, hsil⟩, fun x hx => ?_,
      hquits.mono hlanes (fun y hy => ⟨y, hmove y hy, rfl⟩) (fun n hn => by rw [State.latched, hnotices]; exact hn),
      hsteady.orders, hsteady.queue, hkept.mem, hkept.reports, hkept.enable, hkept.mode, hkept.sameFrame⟩
    rw [hfollows.holders, heq]
    exact State.enterStopping_holder hm hs hx
  · rw [if_pos hs] at heq
    have htrig := State.endMove_triggered hm (fun f => .stopped f .silent) .moveStopped
    rw [heq] at hfollows hkept
    rw [heq]
    obtain ⟨hnone, -, hverdict, -, hnote, hends, hstrands, hheld⟩ :=
      State.endMove_outcome hslots hm hfollows (State.announce_keeps_triggered htrig)
    exact ⟨hnone, hverdict, hnote, hends, hstrands, hheld, hkept.mem, hkept.reports, hkept.enable, hkept.mode,
      hkept.sameFrame⟩

/-! ### HALTED (R109, R111, R129) -/

/-- The verdict a HALTED report gives: by the pending reason in STOPPING, else DRIVE_HALTED (R111, R129). -/
def Move.haltVerdict (m : Move) (f : Nat) : Verdict :=
  if m.state = .stopping then EndReason.verdict m.endReason f else .stopped f .driveHalted

theorem State.takeHalt_eq (s : State) (m : Move) : s.takeHalt m = s.endMove m.slot m.haltVerdict .moveStopped := by
  unfold State.takeHalt
  by_cases hs : m.state = .stopping
  · rw [if_pos hs, show m.haltVerdict = EndReason.verdict m.endReason from funext fun f => if_pos hs]
  · rw [if_neg hs, show m.haltVerdict = fun f => .stopped f .driveHalted from funext fun f => if_neg hs]

/-- Settles O34: the end of the move, or nothing of a bench that has none. -/
theorem haltedEndsTheMove : Obligations.HaltedEndsTheMove := by
  refine ⟨fun addr tag s j h hb hconf hnone => ?_, ?_⟩
  · have hcarry : carryReport (some .halted) (s.reportOf j) (s.atReport addr tag j)
        = (s.atReport addr tag j, .unmanaged) := by
      refine (checkedReport_of_configured (judge := hearing haltedReport) (named := true) (s := s.atReport addr tag j)
        (fun _ => hb) hconf).trans (hearing_of_other (x := .unmanaged) ?_ (by decide))
      unfold haltedReport
      rw [State.atReport_moveOfBench_look, hnone]
    exact congrArg Host.Outcome.next (State.reportRow_taken h (by simp) hcarry)
  · rintro addr tag s j m g hslots h rfl hb hconf hm hg
    have hmove : s.move? m.slot = some m := State.move?_of_moveOfBench hslots hm
    generalize ha : s.atReport addr tag j = a
    have hmovea : a.move? m.slot = some m := by rw [← ha]; exact hmove
    have hcarry : carryReport (some .halted) (s.reportOf j) a
        = ((a.endMove m.slot m.haltVerdict .moveStopped).heard (s.reportOf j).bench, .accepted) := by
      refine (checkedReport_of_configured (judge := hearing haltedReport) (named := true) (s := a)
        (fun _ => hb) (by rw [← ha]; exact hconf)).trans (hearing_of_accepted ?_)
      unfold haltedReport
      rw [← ha, State.atReport_moveOfBench_look, hm, ← State.takeHalt_eq]
      exact if_pos ((m.standsOn_iff _).2 hg)
    obtain ⟨t, hexec, hrep⟩ : ∃ t, exec (.halted addr tag) s = .next t ∧ s.Reported addr tag j .accepted
        ((a.endMove m.slot m.haltVerdict .moveStopped).heard (s.reportOf j).bench) t :=
      ⟨_, rfl, State.reportRow_reported h (ha ▸ hcarry)⟩
    have hheard := (a.endMove m.slot m.haltVerdict .moveStopped).follows_heard (s.reportOf j).bench
    obtain ⟨ms, hframe⟩ := (a.endMove m.slot m.haltVerdict .moveStopped).heard_frame (s.reportOf j).bench
    have htrig : t.Triggered := hrep.triggered (by
      rw [hframe]
      exact State.endMove_triggered hmovea _ _)
    have hrail : t.segs.map Segment.rail = s.segs.map Segment.rail := by
      rw [hrep.segs, hframe]
      refine (State.endMove_rail hmovea _ _).trans ?_
      rw [← ha]
      rfl
    have hslotsa : a.SlotLaw := by rw [← ha]; exact hslots
    obtain ⟨hnone, hlive, hverdict, hover, hnote, hends, hstrands, hheld⟩ :=
      State.endMove_outcome hslotsa hmovea (hheard.trans hrep.follows) htrig
    refine ⟨t, hexec, hrep.reports, hnone, ?_, hlive, hverdict, hover.trans ?_, hnote, fun htable hrun => ?_,
      fun hrun hlane => ?_, hheld, hrep.enable, hrep.mode, hrep.frame, hrep.mem, hrail⟩
    · rw [State.live, hmove]
      rfl
    · rw [← ha]
      rfl
    · subst ha
      exact hends htable (State.atReport_runLaw hrun)
    · subst ha
      exact hstrands (State.atReport_runLaw hrun) hlane

end Sys2Proof.Machine
end


section
/-!
PROOFS. The tail release (R51, R107), with the crossing that it may end (R75, R76, R88) and the move that it may end (R38).
-/

open Sys2Proof Sys2Proof.Machine

namespace Sys2Proof.Machine

/-! ### The end of a crossing, on its lane (R75, R76, R88) -/

section crossing
variable {s v : State} {l : LaneIx} {k : SlotIx} {m : Move}

theorem Lane.head?_isSome {ln : Lane} : ln.head?.isSome = true ↔ ln.lists[ln.berth] ≠ [] := by
  rw [Lane.head?]
  cases ln.lists[ln.berth] <;> simp

/-- The lane's next offer after a crossing (R76). -/
theorem State.offerNext_lane {ln : Lane} (hln : v.lanes[l] = ln) :
    ((v.timing.lanes[l].strictOrder = false ∧ ln.runCounter < v.timing.lanes[l].runLimit ∧ ln.lists[ln.berth] ≠ []) →
      (v.offerNext l).lanes[l] = { ln with
        state := .offering, runCounter := ln.runCounter + 1, offered := true, offerTimer := v.startTimer (v.offerFull l) })
    ∧ (¬(v.timing.lanes[l].strictOrder = false ∧ ln.runCounter < v.timing.lanes[l].runLimit
        ∧ ln.lists[ln.berth] ≠ []) → v.Advances l ln (v.offerNext l)) := by
  subst hln
  have hiff : (!v.timing.lanes[l].strictOrder && decide (v.lanes[l].runCounter < v.timing.lanes[l].runLimit)
      && v.lanes[l].head?.isSome) = true ↔ v.timing.lanes[l].strictOrder = false
        ∧ v.lanes[l].runCounter < v.timing.lanes[l].runLimit ∧ v.lanes[l].lists[v.lanes[l].berth] ≠ [] := by
    simp [Lane.head?_isSome, and_assoc]
  unfold State.offerNext
  dsimp only
  refine ⟨fun h => ?_, fun h => ?_⟩
  · rw [if_pos (hiff.2 h), State.enterOffering, State.updateLane_get_same, State.updateLane_get_same]
    rfl
  · rw [if_neg fun e => h (hiff.1 e)]
    exact (v.advanceLane_givesUp l).1

theorem State.offerNext_oneLane (v : State) (l : LaneIx) : OneLane l v (v.offerNext l) := by
  unfold State.offerNext
  dsimp only
  split
  · exact (v.updateLane_oneLane l _).trans (State.updateLane_oneLane _ l _)
  · exact v.advanceLane_oneLane l

theorem State.releaseAfterFault_oneLane (v : State) (l : LaneIx) : OneLane l v (v.releaseAfterFault l) := by
  unfold State.releaseAfterFault
  split
  · exact v.updateLane_oneLane l _
  · exact OneLane.refl l v

/-- The record of a crossing that ends goes, and its move names no lane (R75). -/
def State.uncrossed (s : State) (l : LaneIx) (k : SlotIx) : State :=
  (s.updateLane l fun ln => { ln with crossing := none, crossingTimer := .stopped }).updateMove k fun m =>
    { m with lane := none, state := if m.state = .crossing then .moving else m.state }

theorem State.endCrossing_eq (s : State) (l : LaneIx) (k : SlotIx) : ∃ a, s.endCrossing l k =
    match s.lanes[l].state with
    | .crossing => ({ s.uncrossed l k with arbiter := a } : State).offerNext l
    | .faulted => ({ s.uncrossed l k with arbiter := a } : State).releaseAfterFault l
    | .quiet => { s.uncrossed l k with arbiter := a }
    | .offering => { s.uncrossed l k with arbiter := a }
    | .settling => { s.uncrossed l k with arbiter := a } := by
  obtain ⟨a, ha⟩ : ∃ a, (if (s.move? k).map (·.state) = some .crossing then (s.uncrossed l k).trigger else s.uncrossed l k)
      = { s.uncrossed l k with arbiter := a } := by
    split
    · exact (s.uncrossed l k).trigger_eq
    · exact ⟨_, rfl⟩
  refine ⟨a, ?_⟩
  rw [← ha]
  unfold State.endCrossing
  dsimp only
  cases s.lanes[l].state <;> rfl

theorem State.endCrossing_oneLane (s : State) (l : LaneIx) (k : SlotIx) :
    ∃ a, OneLane l { s.uncrossed l k with arbiter := a } (s.endCrossing l k) := by
  obtain ⟨a, ha⟩ := s.endCrossing_eq l k
  refine ⟨a, ?_⟩
  rw [ha]
  split
  · exact State.offerNext_oneLane _ l
  · exact State.releaseAfterFault_oneLane _ l
  · exact OneLane.refl l _
  · exact OneLane.refl l _
  · exact OneLane.refl l _

theorem State.endCrossing_segs (s : State) (l : LaneIx) (k : SlotIx) : (s.endCrossing l k).segs = s.segs := by
  obtain ⟨a, ha⟩ := s.endCrossing_oneLane l k
  exact ha.segs

theorem State.endCrossing_moves (s : State) (l : LaneIx) (k : SlotIx) : (s.endCrossing l k).moves
    = (s.updateMove k fun m =>
      { m with lane := none, state := if m.state = .crossing then .moving else m.state }).moves := by
  obtain ⟨a, ha⟩ := s.endCrossing_oneLane l k
  exact ha.moves

/-- The lane of a crossing that ends, with ln what it is without its record. -/
theorem State.endCrossing_lane (s : State) (l : LaneIx) (k : SlotIx) {ln : Lane}
    (hln : ln = { s.lanes[l] with crossing := none, crossingTimer := .stopped }) :
    (s.lanes[l].state = .faulted → (s.endCrossing l k).lanes[l] =
      if s.lanes[l].cause = some .crossingLimit ∧ s.timing.lanes[l].autoRelease = true then
        { ln with releaseTimer := s.startTimer (s.releaseFull l) }
      else ln)
    ∧ (s.lanes[l].state = .crossing →
      ((s.timing.lanes[l].strictOrder = false ∧ ln.runCounter < s.timing.lanes[l].runLimit ∧ ln.lists[ln.berth] ≠ []) →
        (s.endCrossing l k).lanes[l] = { ln with
          state := .offering, runCounter := ln.runCounter + 1, offered := true
          offerTimer := s.startTimer (s.offerFull l) })
      ∧ (¬(s.timing.lanes[l].strictOrder = false ∧ ln.runCounter < s.timing.lanes[l].runLimit ∧ ln.lists[ln.berth] ≠ []) →
        s.Advances l ln (s.endCrossing l k))) := by
  obtain ⟨a, ha⟩ := s.endCrossing_eq l k
  generalize hv : ({ s.uncrossed l k with arbiter := a } : State) = v at ha
  have hvl : v.lanes[l] = ln := by
    rw [← hv, hln]
    exact State.updateLane_get_same s l fun ln => { ln with crossing := none, crossingTimer := .stopped }
  have hvt : v.timing = s.timing := by rw [← hv]; rfl
  have hvm : v.mode = s.mode := by rw [← hv]; rfl
  refine ⟨fun hst => ?_, fun hst => ?_⟩
  · rw [hst] at ha
    rw [ha, State.releaseAfterFault, hvl, hvt]
    have hcause : ln.cause = s.lanes[l].cause := by rw [hln]
    have hfull : v.startTimer (v.releaseFull l) = s.startTimer (s.releaseFull l) := by
      rw [State.startTimer, State.startTimer, State.releaseFull, State.releaseFull, hvt, hvm]
    rw [hcause]
    by_cases hcond : s.lanes[l].cause = some .crossingLimit ∧ s.timing.lanes[l].autoRelease = true
    · rw [if_pos hcond, if_pos hcond]
      refine (v.updateLane_get_same l fun x => { x with releaseTimer := v.startTimer (v.releaseFull l) }).trans ?_
      rw [hvl, hfull, ← hcause]
    · rw [if_neg hcond, if_neg hcond, hvl]
  · rw [hst] at ha
    have hnext := State.offerNext_lane hvl
    rw [hvt, State.offerStart_congr hvt hvm] at hnext
    rw [ha]
    exact ⟨hnext.1, fun hno => (hnext.2 hno).of_same hvt hvm⟩

end crossing

/-! ### The tail release (R51) -/

section tail
variable {s t : State} {m : Move} {g : Nat}

/-- The record of the tail segment, vacated and released. -/
def Segment.left (r : Segment) (k : SlotIx) (b : Nat) : Segment :=
  { r with
    occupant := if r.occupant = some (.bench b) then none else r.occupant
    holder := if r.holder = some k then none else r.holder }

/-- State s after the tail release of move m, with the crossing it may end, before the move takes its state. -/
def State.leftTail (s : State) (m : Move) : State :=
  let s1 := ((s.vacate (m.seg m.t) m.bench).release m.slot [m.seg m.t]).updateMove m.slot fun x =>
    { x with t := x.t + 1, stack := dropBottom x.stack }
  match m.lane with
  | some l =>
    if s.isCell (m.seg m.t) && !s.isCell (m.seg (m.t + 1)) && s.lanes[l].crosses m.slot then s1.endCrossing l m.slot
    else s1
  | none => s1

theorem State.tailRelease_eq (s : State) (m : Move) : s.tailRelease m = (s.leftTail m).afterTail m.slot := rfl

/-- The tail release, by whether it ends a crossing. -/
theorem State.leftTail_cases (s : State) (m : Move) {v : State}
    (hv : v = ((s.vacate (m.seg m.t) m.bench).release m.slot [m.seg m.t]).updateMove m.slot fun x =>
      { x with t := x.t + 1, stack := dropBottom x.stack }) :
    (¬s.LeavesLane m ∧ s.leftTail m = v)
      ∨ ∃ l, m.lane = some l ∧ s.LeavesLane m ∧ s.leftTail m = v.endCrossing l m.slot := by
  subst hv
  unfold State.leftTail State.LeavesLane
  cases hl : m.lane with
  | none => exact .inl ⟨fun ⟨_, _, l, hl, _⟩ => (by cases hl), rfl⟩
  | some l =>
    dsimp only
    by_cases hcond : (s.isCell (m.seg m.t) && !s.isCell (m.seg (m.t + 1)) && s.lanes[l].crosses m.slot) = true
    · rw [if_pos hcond]
      simp only [Bool.and_eq_true, Bool.not_eq_true'] at hcond
      exact .inr ⟨l, rfl, ⟨hcond.1.1, hcond.1.2, l, rfl, hcond.2⟩, rfl⟩
    · rw [if_neg hcond]
      refine .inl ⟨fun h => hcond ?_, rfl⟩
      obtain ⟨h1, h2, l', hl', h3⟩ := h
      obtain rfl : l = l' := Option.some.inj hl'
      rw [h1, h2, h3]
      rfl

/-- The tail segment, vacated and released (R8, R12). -/
theorem State.leftTail_segs (s : State) (m : Move) : (s.leftTail m).segs
    = s.segs.map fun r => if r.id = m.seg m.t then r.left m.slot m.bench else r := by
  have htwo := s.updateSegs_updateSegs [m.seg m.t] (fun r => if r.occupant = some (.bench m.bench) then { r with occupant := none } else r)
    (fun r => if r.holder = some m.slot then { r with holder := none } else r) fun r => by split <;> rfl
  have hsegs : ((s.vacate (m.seg m.t) m.bench).release m.slot [m.seg m.t]).segs
      = s.segs.map fun r => if r.id = m.seg m.t then r.left m.slot m.bench else r := by
    refine (congrArg State.segs htwo).trans (List.map_congr_left fun r _ => ?_)
    simp only [List.mem_singleton]
    split
    · unfold Segment.left
      by_cases ho : r.occupant = some (.bench m.bench)
      · rw [if_pos ho, if_pos ho]
        by_cases hk : r.holder = some m.slot
        · rw [if_pos hk, if_pos hk]
        · rw [if_neg hk, if_neg hk]
      · rw [if_neg ho, if_neg ho]
        by_cases hk : r.holder = some m.slot
        · rw [if_pos hk, if_pos hk]
        · rw [if_neg hk, if_neg hk]
    · rfl
  rcases s.leftTail_cases m rfl with ⟨-, h⟩ | ⟨l, -, -, h⟩
  · rw [h]
    exact hsegs
  · rw [h, State.endCrossing_segs]
    exact hsegs

/-- The move, with its tail one further (R51). -/
theorem State.leftTail_move (hm : s.move? m.slot = some m) : ∃ y, (s.leftTail m).move? m.slot = some y
    ∧ y.slot = m.slot ∧ y.bench = m.bench ∧ y.route = m.route ∧ y.t = m.t + 1 ∧ y.f = m.f ∧ y.h = m.h
    ∧ y.stack = dropBottom m.stack
    ∧ (¬s.LeavesLane m → y.state = m.state ∧ y.lane = m.lane)
    ∧ (s.LeavesLane m → y.lane = none ∧ y.state = if m.state = .crossing then .moving else m.state) := by
  generalize hv : ((s.vacate (m.seg m.t) m.bench).release m.slot [m.seg m.t]).updateMove m.slot (fun x =>
      { x with t := x.t + 1, stack := dropBottom x.stack }) = v
  have hmove : v.move? m.slot = some { m with t := m.t + 1, stack := dropBottom m.stack } := by
    rw [← hv]
    exact State.updateMove_move (s := (s.vacate (m.seg m.t) m.bench).release m.slot [m.seg m.t]) hm
      (w := fun x => { x with t := x.t + 1, stack := dropBottom x.stack }) fun _ => rfl
  rcases s.leftTail_cases m hv.symm with ⟨hno, h⟩ | ⟨l, -, hyes, h⟩
  · exact ⟨{ m with t := m.t + 1, stack := dropBottom m.stack }, by rw [h]; exact hmove, rfl, rfl, rfl, rfl, rfl, rfl, rfl,
      fun _ => ⟨rfl, rfl⟩, fun h => absurd h hno⟩
  · refine ⟨{ m with
      t := m.t + 1
      stack := dropBottom m.stack
      lane := none
      state := if m.state = .crossing then .moving else m.state }, ?_, rfl, rfl, rfl, rfl, rfl, rfl, rfl, fun h => absurd hyes h, fun _ => ⟨rfl, rfl⟩⟩
    rw [h, State.move?, State.endCrossing_moves]
    exact State.updateMove_move hmove
      (w := fun m => { m with lane := none, state := if m.state = .crossing then .moving else m.state }) fun _ => rfl

theorem State.leftTail_edits (hm : m ∈ s.moves) (hf : m.f = m.t + 1) : Edits none s (s.leftTail m) := by
  have h : Edits none s (((s.vacate (m.seg m.t) m.bench).release m.slot [m.seg m.t]).updateMove m.slot fun y =>
      { y with t := y.t + 1, stack := dropBottom y.stack }) :=
    Edits.after (.one (.tail m hm hf)) (.vacate s _ _)
  rcases s.leftTail_cases m rfl with ⟨-, e⟩ | ⟨l, -, -, e⟩
  · rw [e]
    exact h
  · rw [e]
    exact Edits.after (.endCrossing _ _ _) h

theorem State.leftTail_steady (s : State) (m : Move) : Steady s (s.leftTail m) := by
  have h : Steady s (((s.vacate (m.seg m.t) m.bench).release m.slot [m.seg m.t]).updateMove m.slot fun x =>
      { x with t := x.t + 1, stack := dropBottom x.stack }) :=
    Steady.after (State.updateMove_steady _ _ _ fun _ => ⟨rfl, rfl, rfl⟩)
      ((State.release_steady _ _ _).after (s.vacate_steady _ _))
  rcases s.leftTail_cases m rfl with ⟨-, e⟩ | ⟨l, -, -, e⟩
  · rw [e]
    exact h
  · rw [e]
    exact (State.endCrossing_steady _ _ _).after h

/-- The lane of a crossing that the tail leaves (R75, R76, R88). -/
theorem State.leftTail_lane {l : LaneIx} (hl : m.lane = some l) (hleaves : s.LeavesLane m) {ln : Lane}
    (hln : ln = { s.lanes[l] with crossing := none, crossingTimer := .stopped }) :
    (s.lanes[l].state = .faulted → (s.leftTail m).lanes[l] =
      if s.lanes[l].cause = some .crossingLimit ∧ s.timing.lanes[l].autoRelease = true then
        { ln with releaseTimer := s.startTimer (s.releaseFull l) }
      else ln)
    ∧ (s.lanes[l].state = .crossing →
      ((s.timing.lanes[l].strictOrder = false ∧ ln.runCounter < s.timing.lanes[l].runLimit ∧ ln.lists[ln.berth] ≠ []) →
        (s.leftTail m).lanes[l] = { ln with
          state := .offering, runCounter := ln.runCounter + 1, offered := true
          offerTimer := s.startTimer (s.offerFull l) })
      ∧ (¬(s.timing.lanes[l].strictOrder = false ∧ ln.runCounter < s.timing.lanes[l].runLimit ∧ ln.lists[ln.berth] ≠ []) →
        s.Advances l ln (s.leftTail m))) := by
  rcases s.leftTail_cases m rfl with ⟨hno, -⟩ | ⟨l', hl', -, e⟩
  · exact absurd hleaves hno
  · obtain rfl : l = l' := Option.some.inj (hl.symm.trans hl')
    rw [e]
    exact State.endCrossing_lane (s := ((s.vacate (m.seg m.t) m.bench).release m.slot [m.seg m.t]).updateMove m.slot fun x =>
      { x with t := x.t + 1, stack := dropBottom x.stack }) l m.slot hln

theorem Segment.left_holder (r : Segment) (k : SlotIx) (b : Nat) : (r.left k b).holder ≠ some k := by
  unfold Segment.left
  dsimp only
  split
  · simp
  · assumption

theorem Segment.left_occupant (r : Segment) (k : SlotIx) (b : Nat) : (r.left k b).occupant ≠ some (.bench b) := by
  unfold Segment.left
  dsimp only
  split
  · simp
  · assumption

theorem State.leftTail_seg (s : State) (m : Move) (g : Nat) : (s.leftTail m).seg? g
    = (s.seg? g).map fun r => if g = m.seg m.t then r.left m.slot m.bench else r := by
  have h := s.seg?_updateSegs [m.seg m.t] (fun r => r.left m.slot m.bench) g fun _ => rfl
  simp only [State.updateSegs, List.mem_singleton] at h
  rw [State.seg?, State.leftTail_segs]
  exact h

theorem State.leftTail_holder (s : State) (m : Move) (g : Nat) : (s.leftTail m).holder g
    = if g = m.seg m.t ∧ s.holder g = some m.slot then none else s.holder g := by
  rw [State.holder, State.leftTail_seg, State.holder]
  cases s.seg? g with
  | none => simp
  | some r =>
    show (if g = m.seg m.t then r.left m.slot m.bench else r).holder
      = if g = m.seg m.t ∧ r.holder = some m.slot then none else r.holder
    by_cases hg : g = m.seg m.t
    · rw [if_pos hg, Segment.left]
      by_cases hr : r.holder = some m.slot
      · exact (if_pos hr).trans (if_pos ⟨hg, hr⟩).symm
      · exact (if_neg hr).trans (if_neg fun h => hr h.2).symm
    · rw [if_neg hg, if_neg fun h => hg h.1]

/-- The records of another bench stand (R19). -/
theorem State.leftTail_benchAt (s : State) (m : Move) {b : Nat} (hb : b ≠ m.bench) :
    (s.leftTail m).benchAt b = s.benchAt b := by
  have hsame : ∀ r : Segment, (if r.id = m.seg m.t then r.left m.slot m.bench else r).id = r.id := fun r => by split <;> rfl
  rw [State.benchAt, State.leftTail_segs, List.filter_map, List.map_map, State.benchAt]
  have hmap : ((fun g : Segment => g.id) ∘ fun r : Segment => if r.id = m.seg m.t then r.left m.slot m.bench else r)
      = fun g => g.id := funext hsame
  rw [hmap]
  refine congrArg (List.map _) (List.filter_congr fun r _ => ?_)
  show decide ((if r.id = m.seg m.t then r.left m.slot m.bench else r).occupant = some (.bench b))
    = decide (r.occupant = some (.bench b))
  split
  · rw [decide_eq_decide, Segment.left]
    dsimp only
    split
    · rename_i ho
      rw [ho]
      simp [Ne.symm hb]
    · exact Iff.rfl
  · rfl

theorem State.benchOnLane_iff {b : Nat} {l : LaneIx} : s.benchOnLane b l = true
    ↔ ∃ r ∈ s.segs, r.isCellOf l = true ∧ r.occupant = some (.bench b) := by
  unfold State.benchOnLane State.cellOccupants
  rw [List.contains_iff_mem, List.mem_filterMap]
  simp only [List.mem_filter, and_assoc]

/-- A bench that is on a lane after the tail release is on it before, and not by the tail segment. -/
theorem State.leftTail_benchOnLane {l : LaneIx} (h : (s.leftTail m).benchOnLane m.bench l = true) :
    ∃ r ∈ s.segs, r.id ≠ m.seg m.t ∧ r.isCellOf l = true ∧ r.occupant = some (.bench m.bench) := by
  obtain ⟨x, hx, hcell, hocc⟩ := State.benchOnLane_iff.1 h
  rw [State.leftTail_segs] at hx
  obtain ⟨r, hr, rfl⟩ := List.mem_map.1 hx
  by_cases hg : r.id = m.seg m.t
  · rw [if_pos hg] at hocc
    exact absurd hocc (r.left_occupant _ _)
  · rw [if_neg hg] at hcell hocc
    exact ⟨r, hr, hg, hcell, hocc⟩

/-- A bench that leaves its crossing is on no cell any more (R49, R75). -/
theorem State.leftTail_off_lane (hrun : s.RunLaw) (hlane : s.LaneLaw) (hm : m ∈ s.moves) (hf : m.f = m.t + 1)
    (hleaves : s.LeavesLane m) (l : LaneIx) : (s.leftTail m).benchOnLane m.bench l = false := by
  rw [Bool.eq_false_iff]
  intro h
  obtain ⟨r, hr, hne, hcell, hocc⟩ := State.leftTail_benchOnLane h
  obtain ⟨-, -, -, -, -, -, -, -, hplace⟩ := hlane
  obtain ⟨p, hp, hpf, -, he⟩ := Move.mem_span.1 ((hplace m hm r hr).1 hocc)
  obtain ⟨-, hnext, -⟩ := hleaves
  have hpt : p = m.t + 1 := by
    by_contra hpt
    have : p = m.t := by omega
    exact hne (by rw [← he, this])
  have hseg : s.seg? r.id = some r := State.seg?_of_mem hrun.1 hr
  rw [← hpt, he, State.isCell, State.cellLane, hseg] at hnext
  unfold Segment.isCellOf at hcell
  dsimp only at hnext
  split at hcell
  · rename_i hk
    rw [hk] at hnext
    cases hnext
  · cases hcell
  · cases hcell

/-- The end of a move at its last tail release, seen from before the release (R31, R38, R39). -/
theorem State.Ends.of_leftTail {y : Move} (h : (s.leftTail m).Ends y t) (htable : s.TableLaw) (hm : m ∈ s.moves)
    (hslot : y.slot = m.slot) (hbench : y.bench = m.bench) (hheld : ∀ x ∈ m.span m.t m.h, t.holder x ≠ some m.slot) :
    s.Ends m t := by
  obtain ⟨hnone, hlive, htrig, -, hnil, hhead⟩ := h
  have hqueue : (s.leftTail m).queue = s.queue := (s.leftTail_steady m).queue
  have hmode : (s.leftTail m).mode = s.mode := (s.leftTail_steady m).mode
  have htokens : (s.leftTail m).tokens = s.tokens := (s.leftTail_steady m).tokens
  rw [hslot] at hnone hlive
  rw [hqueue] at hnil hhead
  refine ⟨hnone, hlive, htrig, hheld, hnil, fun q rest hq => ?_⟩
  have hne : q.bench ≠ m.bench := fun e => by
    have hdis := (List.nodup_append.1 htable.2.1).2.2
    exact hdis _ (List.mem_map_of_mem hm) _ (List.mem_map_of_mem (hq ▸ List.mem_cons_self)) e.symm
  obtain ⟨hunlocated, hnotrest, hat⟩ := hhead q rest hq
  rw [State.leftTail_benchAt s m hne] at hunlocated hnotrest
  refine ⟨hunlocated, hnotrest, fun g hg => ?_⟩
  obtain ⟨hnotstart, hheldseg, hadmits⟩ := hat g ((s.leftTail_benchAt m hne).trans hg)
  refine ⟨hnotstart, fun hst hoff hk => hheldseg hst (fun l => ?_) ?_, fun hst hfree => ?_⟩
  · rw [hbench, Bool.eq_false_iff]
    intro h
    obtain ⟨r, hr, -, hcell, hocc⟩ := State.leftTail_benchOnLane h
    have hon := State.benchOnLane_iff.2 ⟨r, hr, hcell, hocc⟩
    rw [hoff l] at hon
    cases hon
  · obtain ⟨k, hk, hks⟩ := hk
    refine ⟨k, ?_, hslot ▸ hks⟩
    rw [State.leftTail_holder, hk]
    exact if_neg fun e => hks (Option.some.inj e.2)
  · rw [hmode, htokens] at hadmits
    refine hadmits hst ?_
    rw [hslot, State.leftTail_holder]
    split
    · exact .inl rfl
    · exact hfree

end tail

end Sys2Proof.Machine
end


section
/-!
PROOFS. LEFT of the tail by a bench that straddles (R38, R48, R51, R75, R76, R78, R88, R107).
-/

open Sys2Proof Sys2Proof.Machine

namespace Sys2Proof.Machine

section left
variable {s u t v : State} {m y : Move} {g : Nat} {l : LaneIx}

theorem State.endMove_holder_own (hslots : s.SlotLaw) (hm : s.move? m.slot = some m) {final : Nat → Verdict} {n : Notice}
    (h : (s.endMove m.slot final n).holder g = some m.slot) : s.holder g = some m.slot := by
  have hE := State.ended_ended hm (final m.f) n
  rw [State.endMove_eq hm, State.holder, State.seg?, State.trigger_segs] at h
  have hrelease := hE.holders g _ ((State.tryQueue_untouched (hE.vacant hslots hm)).holders g h)
  rw [State.release_holder] at hrelease
  split at hrelease
  · cases hrelease
  · exact hrelease

theorem State.endMove_unheld (hm : s.move? m.slot = some m) (final : Nat → Verdict) (n : Notice) :
    (s.endMove m.slot final n).segs.map Segment.unheld = s.segs.map Segment.unheld := by
  rw [State.endMove_eq hm, State.trigger_segs]
  exact (State.tryQueue_rail _).2.trans (State.ended_ended hm _ n).unheld

theorem State.endMove_lanes (hm : s.move? m.slot = some m) (final : Nat → Verdict) (n : Notice) (hl : m.lane = none)
    (hoff : ∀ l, s.benchOnLane m.bench l = false) : (s.endMove m.slot final n).lanes = s.lanes := by
  rw [State.endMove_eq hm, State.trigger_lanes, (State.tryQueue_rail _).1]
  exact (State.ended_ended hm _ n).lanes hl hoff

/-- Who waits for the rest of a crossing goes by the mode, the lanes, the moves and the configuration. -/
theorem State.awaitsRest_congr (hmode : t.mode = u.mode) (hlanes : t.lanes = u.lanes) (hmoves : t.moves = u.moves)
    (hsegs : t.segs = u.segs) (l : LaneIx) : t.awaitsRest l = u.awaitsRest l := by
  have hcell : t.isCell = u.isCell := State.isCell_of_config (by rw [hsegs])
  have hmove : t.move? = u.move? := by
    funext k
    rw [State.move?, State.move?, hmoves]
  unfold State.awaitsRest State.exitEntered State.pastCells
  rw [hmode, hlanes, hmove, hcell]

/-- The tail segment opens when its bench leaves it (R9). -/
theorem Segment.announcedBy_left {r : Segment} {k : SlotIx} {b : Nat} (hs : r.surveyed = true) (hh : r.holder = some k)
    (ho : r.occupant = some (.bench b)) : r.announcedBy (r.left k b) = true := by
  have hopen : (r.left k b).isOpen = true := by
    unfold Segment.left Segment.isOpen
    dsimp only
    rw [if_pos ho, if_pos hh, hs]
    rfl
  have hnot : r.isOpen = false := Segment.not_open_of_occupied (by rw [ho]; simp)
  rw [Segment.announcedBy, hopen, hnot]
  rfl

theorem carryLeft_tail {addr : WordAddr} {tag : Word} {j : ReportIx} (hb : (s.reportOf j).bench ≠ 0)
    (hconf : s.configured (s.reportOf j).segment = true) (hm : s.moveOfBench (s.reportOf j).bench = some m)
    (hg : (s.reportOf j).segment = m.seg m.t) (hf : m.f = m.t + 1) :
    carryReport (some .left) (s.reportOf j) (s.atReport addr tag j)
      = (((s.atReport addr tag j).tailRelease m).heard (s.reportOf j).bench, .accepted) := by
  refine (checkedReport_of_configured (judge := hearing leftReport) (named := true) (s := s.atReport addr tag j)
    (fun _ => hb) hconf).trans (hearing_of_accepted ?_)
  unfold leftReport
  rw [State.atReport_moveOfBench_look, hm]
  dsimp only
  rw [if_pos hg, if_pos hf]

end left

/-! ### What the tail release leaves, in a state that follows it -/

section outcome
variable {s t : State} {m : Move} {l : LaneIx}

/-- The move is done: tail and front are at its last position, and it is not stopping (R38). -/
abbrev Move.done (m : Move) : Prop := m.f + 1 = m.route.length ∧ m.state ≠ .stopping

theorem State.tailRelease_done (hm : s.move? m.slot = some m) (hf : m.f = m.t + 1) (hdone : m.done) :
    ∃ y, (s.leftTail m).move? m.slot = some y ∧ y.slot = m.slot ∧ y.bench = m.bench ∧ y.f = m.f
      ∧ (s.LeavesLane m → y.lane = none) ∧ s.tailRelease m = (s.leftTail m).endMove y.slot .done .moveDone := by
  obtain ⟨y, hy, hslot, hbench, hroute, ht, hyf, -, -, hno, hyes⟩ := State.leftTail_move hm
  have hstate : y.state ≠ .stopping := by
    by_cases hl : s.LeavesLane m
    · rw [(hyes hl).2]
      split
      · decide
      · exact hdone.2
    · rw [(hno hl).1]
      exact hdone.2
  refine ⟨y, hy, hslot, hbench, hyf, fun hl => (hyes hl).1, ?_⟩
  rw [State.tailRelease_eq, State.afterTail, hy, hslot]
  exact if_pos ⟨by omega, by rw [hyf, hroute]; exact hdone.1, hstate⟩

theorem State.tailRelease_goesOn (hm : s.move? m.slot = some m) (hdone : ¬m.done) :
    s.tailRelease m = (s.leftTail m).settleProgress m.slot := by
  obtain ⟨y, hy, hslot, hbench, hroute, ht, hyf, -, -, hno, hyes⟩ := State.leftTail_move hm
  rw [State.tailRelease_eq, State.afterTail, hy]
  refine if_neg fun h => hdone ⟨by rw [← hroute, ← hyf]; exact h.2.1, fun hs => h.2.2 ?_⟩
  by_cases hl : s.LeavesLane m
  · rw [(hyes hl).2, hs]
    rfl
  · rw [(hno hl).1, hs]

/-- What the state that the move takes, or its end, leaves of the tail release. -/
theorem State.tailRelease_keeps (hslots : s.SlotLaw) (hm : s.move? m.slot = some m) (hf : m.f = m.t + 1) :
    (s.tailRelease m).segs.map Segment.unheld = (s.leftTail m).segs.map Segment.unheld
      ∧ ∀ g, (s.tailRelease m).holder g = some m.slot → (s.leftTail m).holder g = some m.slot := by
  by_cases hdone : m.done
  · obtain ⟨y, hy, hslot, -, -, -, heq⟩ := State.tailRelease_done hm hf hdone
    rw [heq]
    rw [← hslot] at hy
    have hzslots : (s.leftTail m).SlotLaw := by
      have hsteady := s.leftTail_steady m
      have hmap := congrArg (List.map (·.1)) hsteady.moves
      rw [List.map_map, List.map_map] at hmap
      rw [State.SlotLaw, hsteady.queue]
      exact hmap.symm ▸ hslots
    refine ⟨State.endMove_unheld hy _ _, fun g hg => ?_⟩
    rw [← hslot] at hg ⊢
    exact State.endMove_holder_own hzslots hy hg
  · obtain ⟨ms, a, hframe⟩ := (s.leftTail m).settleProgress_frame m.slot
    rw [State.tailRelease_goesOn hm hdone, hframe]
    exact ⟨rfl, fun _ h => h⟩

/-- The tail segment is free of the move and of its bench. -/
theorem State.tailRelease_free (hslots : s.SlotLaw) (hm : s.move? m.slot = some m) (hf : m.f = m.t + 1) :
    (s.tailRelease m).holder (m.seg m.t) ≠ some m.slot ∧ (s.tailRelease m).occupant (m.seg m.t) ≠ some (.bench m.bench) := by
  obtain ⟨hunheld, hholder⟩ := State.tailRelease_keeps hslots hm hf
  refine ⟨fun h => ?_, ?_⟩
  · have hz := hholder _ h
    rw [State.leftTail_holder] at hz
    split at hz
    · cases hz
    · rename_i hno
      exact hno ⟨rfl, hz⟩
  · rw [State.occupant_congr (State.place_of_unheld hunheld), State.occupant, State.leftTail_seg]
    cases s.seg? (m.seg m.t) with
    | none => simp
    | some r =>
      rw [Option.map_some, if_pos rfl]
      exact r.left_occupant _ _

theorem State.tailRelease_rail (hslots : s.SlotLaw) (hm : s.move? m.slot = some m) (hf : m.f = m.t + 1) :
    (s.tailRelease m).segs.map (fun r => (r.surveyed, r.fence)) = s.segs.map fun r => (r.surveyed, r.fence) := by
  have h := congrArg (List.map fun r : Segment => (r.surveyed, r.fence)) (State.tailRelease_keeps hslots hm hf).1
  rw [List.map_map, List.map_map] at h
  refine h.trans ?_
  rw [State.leftTail_segs, List.map_map]
  refine List.map_congr_left fun r _ => ?_
  show ((if r.id = m.seg m.t then r.left m.slot m.bench else r).surveyed,
    (if r.id = m.seg m.t then r.left m.slot m.bench else r).fence) = _
  split <;> rfl

theorem State.tailRelease_lanes (hrun : s.RunLaw) (hlane : s.LaneLaw) (hm : s.move? m.slot = some m) (hf : m.f = m.t + 1)
    (hleaves : s.LeavesLane m) : (s.tailRelease m).lanes = (s.leftTail m).lanes := by
  by_cases hdone : m.done
  · obtain ⟨y, hy, hslot, hbench, -, hnolane, heq⟩ := State.tailRelease_done hm hf hdone
    rw [heq]
    rw [← hslot] at hy
    refine State.endMove_lanes hy _ _ (hnolane hleaves) fun l => ?_
    rw [hbench]
    exact State.leftTail_off_lane hrun hlane (State.move?_some hm).2 hf hleaves l
  · obtain ⟨ms, a, hframe⟩ := (s.leftTail m).settleProgress_frame m.slot
    rw [State.tailRelease_goesOn hm hdone, hframe]

/-- The end at the last position (R38, R39). -/
theorem State.tailRelease_ends (hrun : s.RunLaw) (hm : s.move? m.slot = some m) (hf : m.f = m.t + 1) (hdone : m.done)
    (ht : (s.tailRelease m).Follows t) (htrig : (s.tailRelease m).Triggered → t.Triggered) :
    t.move? m.slot = none ∧ t.orders[m.slot].verdict = .done m.f ∧ t.latched .moveDone = true
      ∧ (s.TableLaw → s.Ends m t) := by
  obtain ⟨y, hy, hslot, hbench, hyf, -, heq⟩ := State.tailRelease_done hm hf hdone
  have hmem := (State.move?_some hm).2
  have hedits := State.leftTail_edits hmem hf
  have hzrun : (s.leftTail m).RunBut none := hedits.keeps (fun e hs => hs.of_edit e) (State.runBut_none.2 hrun)
  rw [← hslot] at hy
  have htail : ∀ g, t.holder g = some m.slot → (s.leftTail m).holder g = some m.slot := fun g hg =>
    (State.tailRelease_keeps hrun.2.1 hm hf).2 g ((ht.holders g).symm.trans hg)
  rw [heq] at ht htrig
  obtain ⟨hnone, -, hverdict, -, hnote, hends, -, hheld⟩ := State.endMove_outcome hzrun.slots hy ht
    (htrig (State.endMove_triggered hy _ _))
  rw [hslot] at hnone
  replace hverdict : t.orders[m.slot].verdict = .done m.f :=
    ((congrArg (fun k : SlotIx => t.orders[k].verdict) hslot).symm.trans hverdict).trans (congrArg _ hyf)
  refine ⟨hnone, hverdict, hnote, fun htable => ?_⟩
  have hztable : (s.leftTail m).TableLaw := hedits.keeps (fun e hs => hs.of_edit e) htable
  refine (hends hztable (State.runBut_none.1 hzrun)).of_leftTail htable hmem hslot hbench fun x hx hh => ?_
  have hzheld := htail x hh
  obtain ⟨z, hz, hzslot, -, hroute, hzt, -, hzh, -, -, -⟩ := State.leftTail_move hm
  obtain rfl : z = y := Option.some.inj (hz.symm.trans (hslot ▸ hy))
  rw [State.leftTail_holder] at hzheld
  split at hzheld
  · cases hzheld
  · rename_i hno
    obtain ⟨-, hindex, -⟩ := hrun.2.2.1 m hmem
    rw [Move.mem_span_split (j := m.t) (by omega) (by obtain ⟨h1, h2, -⟩ := hindex; omega)] at hx
    rcases hx with hx | hx
    · obtain ⟨p, hp, hpt, -, he⟩ := Move.mem_span.1 hx
      have hpm : p = m.t := by omega
      exact hno ⟨by rw [← he, hpm], hzheld⟩
    · refine hheld x ?_ (hslot ▸ hh)
      rw [Move.span_congr hroute, hzt, hzh]
      exact hx

/-- A move that goes on (R48, R51, R75). -/
theorem State.tailRelease_move (hm : s.move? m.slot = some m) (hf : m.f = m.t + 1) (hdone : ¬m.done) :
    ∃ y, (s.tailRelease m).move? m.slot = some y ∧ y.t = m.f ∧ y.f = m.f ∧ y.route = m.route ∧ y.h = m.h
      ∧ y.stack = dropBottom m.stack
      ∧ (m.eligible = true → (s.tailRelease m).Triggered ∧ y.state = s.indexState { m with t := m.f })
      ∧ (m.state = .stalled ∨ m.state = .stopping → y.state = m.state)
      ∧ (m.state = .crossing ∧ ¬s.LeavesLane m → y.state = .crossing ∧ y.lane = m.lane)
      ∧ (m.state = .crossing ∧ s.LeavesLane m → (s.tailRelease m).Triggered ∧ y.state = s.indexState { m with t := m.f })
      ∧ (s.LeavesLane m → y.lane = none) := by
  obtain ⟨y, hy, hslot, hbench, hroute, ht, hyf, hyh, hstack, hno, hyes⟩ := State.leftTail_move hm
  have hlast := State.settleProgress_move hy
  have htrig := State.settleProgress_triggered hy
  have hindex : (s.leftTail m).indexState y = s.indexState { m with t := m.f } :=
    State.indexState_congr (State.isCell_config (s.leftTail_steady m).config) hroute (by rw [ht, hf]) hyf hyh
  rw [State.tailRelease_goesOn hm hdone]
  have hprogress : y.eligible = true → ((s.leftTail m).settleProgress m.slot).Triggered
      ∧ (if y.eligible then { y with state := (s.leftTail m).indexState y } else y).state
        = s.indexState { m with t := m.f } := fun he => ⟨htrig he, by rw [if_pos he]; exact hindex⟩
  have hstays : y.eligible = false → (if y.eligible then { y with state := (s.leftTail m).indexState y } else y) = y :=
    fun he => if_neg (by rw [he]; decide)
  have hfields : ∀ {α : Type} (p : Move → α), (∀ x : Move, ∀ st, p { x with state := st } = p x) →
      p (if y.eligible then { y with state := (s.leftTail m).indexState y } else y) = p y := fun p hp => by
    split
    · exact hp _ _
    · rfl
  refine ⟨_, hlast, (hfields (·.t) fun _ _ => rfl).trans (ht.trans hf.symm), (hfields (·.f) fun _ _ => rfl).trans hyf,
    (hfields (·.route) fun _ _ => rfl).trans hroute, (hfields (·.h) fun _ _ => rfl).trans hyh,
    (hfields (·.stack) fun _ _ => rfl).trans hstack, fun he => hprogress ?_, fun hs => ?_, fun hs => ?_,
    fun hs => hprogress ?_, fun hl => (hfields (·.lane) fun _ _ => rfl).trans (hyes hl).1⟩
  · by_cases hl : s.LeavesLane m
    · have hne : m.state ≠ .crossing := fun e => by rw [Move.eligible, e] at he; cases he
      rw [Move.eligible, (hyes hl).2, if_neg hne]
      exact he
    · rw [Move.eligible, (hno hl).1]
      exact he
  · have hstate : y.state = m.state := by
      by_cases hl : s.LeavesLane m
      · rw [(hyes hl).2]
        exact if_neg (by rcases hs with e | e <;> rw [e] <;> decide)
      · exact (hno hl).1
    rw [hstays (by rw [Move.eligible, hstate]; rcases hs with e | e <;> rw [e] <;> decide)]
    exact hstate
  · obtain ⟨hstate, hl⟩ := hno hs.2
    rw [hstays (by rw [Move.eligible, hstate, hs.1]; decide)]
    exact ⟨hstate.trans hs.1, hl⟩
  · rw [Move.eligible, (hyes hs.2).2, if_pos hs.1]
    decide

end outcome

/-- Settles O32: the tail segment, the move that is done or goes on, and the lane whose crossing has ended. -/
theorem leftReleasesTheTail : Obligations.LeftReleasesTheTail := by
  rintro addr tag s j m g hrun h rfl hb hconf hm hg hf
  have hmove : s.move? m.slot = some m := State.move?_of_moveOfBench hrun.2.1 hm
  obtain ⟨hbench, hmem, -⟩ := State.moveOfBench_some hm
  have hcarry := carryLeft_tail (addr := addr) (tag := tag) hb hconf hm hg hf
  obtain ⟨t, hexec, hrep⟩ : ∃ t, exec (.left addr tag) s = .next t ∧ s.Reported addr tag j .accepted
      (((s.atReport addr tag j).tailRelease m).heard (s.reportOf j).bench) t :=
    ⟨_, rfl, State.reportRow_reported h hcarry⟩
  generalize ha : s.atReport addr tag j = a at *
  have hruna : a.RunLaw := by rw [← ha]; exact State.atReport_runLaw hrun
  have hmovea : a.move? m.slot = some m := by rw [← ha]; exact hmove
  have hleaves : a.LeavesLane m ↔ s.LeavesLane m := by rw [← ha]; exact Iff.rfl
  have hindex : a.indexState { m with t := m.f } = s.indexState { m with t := m.f } := by rw [← ha]; rfl
  obtain ⟨ms, hframe⟩ := (a.tailRelease m).heard_frame (s.reportOf j).bench
  have hfollows := ((a.tailRelease m).follows_heard (s.reportOf j).bench).trans hrep.follows
  have hsegs : t.segs = (a.tailRelease m).segs := by rw [hrep.segs, hframe]
  have hlanes : t.lanes = (a.tailRelease m).lanes := by rw [hrep.lanes, hframe]
  have htrig : (a.tailRelease m).Triggered → t.Triggered := fun ht => hrep.triggered (by rw [hframe]; exact ht)
  obtain ⟨hfree, hempty⟩ := State.tailRelease_free hruna.2.1 hmovea hf
  refine ⟨t, hexec, hrep.reports, ?_, ?_, fun hdone => ?_, fun hdone => ?_, fun hlane l hl hleave ln hln => ?_, hrep.enable,
    hrep.mode, hrep.frame, hrep.mem, ?_⟩
  · rw [hfollows.holders, hg]
    exact hfree
  · rw [State.occupant, State.seg?, hsegs, hg]
    exact hempty
  · obtain ⟨hnone, hverdict, hnote, hends⟩ := State.tailRelease_ends hruna hmovea hf hdone hfollows htrig
    refine ⟨hnone, hverdict, hnote, fun htable => ?_⟩
    subst ha
    exact hends htable
  · obtain ⟨y, hy, ht, hyf, hroute, hyh, hstack, helig, hstays, hcross, hleft, hnolane⟩ :=
      State.tailRelease_move hmovea hf hdone
    obtain ⟨z, x, hz, rfl⟩ := hfollows.moves _ y hy
    rw [hindex] at helig hleft
    rw [hleaves] at hcross hleft hnolane
    refine ⟨_, hz, ht, hyf, hroute, fun he => ?_, hstays, hcross, fun hc => ?_, hnolane, hyh, hstack,
      fun r l hr hs ho hk hwait => ?_⟩
    · obtain ⟨htr, hst⟩ := helig he
      exact ⟨htrig htr, hst⟩
    · obtain ⟨htr, hst⟩ := hleft hc
      exact ⟨htrig htr, hst⟩
    · have hmode : ((a.tailRelease m).heard (s.reportOf j).bench).mode = s.mode := by
        rw [hframe]
        exact (a.tailRelease_kept m).mode.trans (by rw [← ha]; rfl)
      have husegs : ((a.tailRelease m).heard (s.reportOf j).bench).segs
          = s.segs.map fun r => if r.id = m.seg m.t then r.left m.slot m.bench else r := by
        obtain ⟨ms', arb, hprogress⟩ := (a.leftTail m).settleProgress_frame m.slot
        rw [hframe, State.tailRelease_goesOn hmovea hdone, hprogress]
        refine (a.leftTail_segs m).trans ?_
        rw [← ha]
        rfl
      have hwaits : ((a.tailRelease m).heard (s.reportOf j).bench).awaitsRest l = t.awaitsRest l :=
        (State.awaitsRest_congr (hrep.mode.trans hmode.symm) hrep.lanes hrep.moves hrep.segs l).symm
      obtain ⟨hid, hrmem⟩ := State.seg?_some hr
      have hindexed := (hrun.2.2.1 m hmem).2.1
      have hheld : r.holder = some m.slot := by
        have hh := State.RunLaw.holder_seg hrun hmove (Nat.le_refl m.t) (hindexed.1.trans hindexed.2.1)
        rw [← hg, State.holder, hr] at hh
        exact hh
      rw [hrep.asks l, hwaits, hwait, husegs, announced_map, Bool.and_true, Bool.or_eq_true]
      refine .inr (List.any_eq_true.2 ⟨r.left m.slot m.bench, List.mem_map.2 ⟨r, List.mem_filter.2 ⟨hrmem, ?_⟩, ?_⟩, ?_⟩)
      · rw [if_pos (hid.trans hg)]
        exact Segment.announcedBy_left hs hheld ho
      · exact if_pos (hid.trans hg)
      · exact decide_eq_true hk
  · have hlanea : a.LaneLaw := by rw [← ha]; exact hlane
    have hl' : t.lanes[l] = (a.leftTail m).lanes[l] := by
      rw [hlanes, State.tailRelease_lanes hruna hlanea hmovea hf (hleaves.2 hleave)]
    have hadvances : s.Advances l ln (a.leftTail m) → s.Advances l ln t := fun h => by
      unfold State.Advances at h ⊢
      rw [hl']
      exact h
    subst ha
    obtain ⟨hfaulted, hcrossing⟩ := (s.atReport addr tag j).leftTail_lane hl (hleaves.2 hleave) hln
    refine ⟨fun hst => hl'.trans (hfaulted hst), fun hst => ?_⟩
    obtain ⟨hoffers, hadv⟩ := hcrossing hst
    exact ⟨fun hc => hl'.trans (hoffers hc), fun hc => hadvances (hadv hc)⟩
  · rw [hsegs]
    refine (State.tailRelease_rail hruna.2.1 hmovea hf).trans ?_
    rw [← ha]
    rfl

end Sys2Proof.Machine
end


section
/-!
PROOFS. The turns of a pass: a request of the part's own, a turn passed over, the end of a pass (R41, R42, R44, R58).
-/

open Sys2Proof Sys2Proof.Machine

namespace Sys2Proof.Machine

section pass
variable {s v : State} {k : SlotIx} {rest : List SlotIx} {m : Move}

/-- The end of a pass in RUNNING mode (R41, R58). -/
theorem State.endPass_running (hmode : s.mode = .running) : s.endPass = { s with
    moves := s.moves.map fun m => { m with yield := m.yield.onPassEnd }
    arbiter := ⟨none, none, false, s.arbiter.due || s.arbiter.further || s.moves.any fun m => m.yield = .inPass⟩ } := by
  unfold State.endPass
  dsimp only
  rw [Bool.or_assoc]
  cases s.arbiter.further || s.moves.any fun m => m.yield = .inPass with
  | false =>
    rw [if_neg Bool.false_ne_true, Bool.or_false]
  | true =>
    rw [if_pos rfl, Bool.or_true]
    unfold State.trigger
    dsimp only
    rw [hmode]

theorem State.endPass_halted (hmode : s.mode = .halted) : s.endPass = { s with
    moves := s.moves.map fun m => { m with yield := m.yield.onPassEnd }
    arbiter := ⟨none, none, false, s.arbiter.due⟩ } := by
  unfold State.endPass
  dsimp only
  split
  · unfold State.trigger
    dsimp only
    rw [hmode]
  · rfl

theorem Move.yield_self {m : Move} {y : Yield} (h : m.yield = y) : ({ m with yield := y } : Move) = m := by rw [← h]

theorem Move.onPassEnd_eq (m : Move) : ({ m with yield := m.yield.onPassEnd } : Move)
    = if m.yield = .inPass then { m with yield := .clear } else m := by
  cases hy : m.yield with
  | clear => exact Move.yield_self hy
  | beforePass => exact Move.yield_self hy
  | inPass => rfl

/-- A move that is gone, is not MOVING or BLOCKED, or bears a yield mark is passed over (R42). -/
theorem State.turn_passed (h : ∀ m, s.move? k = some m → m.eligible = false ∨ m.yield ≠ .clear) : s.turn k = s.dropTurn := by
  unfold State.turn
  cases hm : s.move? k with
  | none => rfl
  | some m =>
    dsimp only
    refine if_neg fun hc => ?_
    simp only [Bool.and_eq_true, decide_eq_true_eq] at hc
    rcases h m hm with he | hy
    · rw [hc.1] at he
      cases he
    · exact hy hc.2

/-- A turn that is dropped. -/
theorem State.dropTurn_eq (hpass : s.arbiter.pass = some (k :: rest)) :
    s.dropTurn = { s with arbiter := { s.arbiter with pass := some rest } } := by
  rw [State.dropTurn, hpass]
  rfl

theorem State.closePass_open (h : s.arbiter.pass ≠ some []) : s.closePass = s := if_neg fun hc => h hc.1

theorem State.closePass_checking (h : s.arbiter.check ≠ none) : s.closePass = s := if_neg fun hc => h hc.2

theorem State.closePass_over (hpass : s.arbiter.pass = some []) (hcheck : s.arbiter.check = none) :
    s.closePass = s.endPass := if_pos ⟨hpass, hcheck⟩

theorem State.request_turn (hmode : s.mode = .running) (hpass : s.arbiter.pass = some (k :: rest))
    (hcheck : s.arbiter.check = none) : s.request = (s.turn k).closePass := by
  unfold State.request
  rw [hpass]
  dsimp only
  rw [hmode]
  dsimp only
  rw [hcheck]

/-- A request of a visit that is granted (R45). -/
theorem State.request_grants (hmode : s.mode = .running) (hpass : s.arbiter.pass = some (k :: rest))
    (hcheck : s.arbiter.check = none) (hm : s.move? k = some m) (helig : m.eligible = true) (hyield : m.yield = .clear)
    (hmay : s.mayExtend m (m.h + 1) = true) : s.request = s.grantNext m := by
  have hturn : s.turn k = s.grantNext m := by
    rw [State.turn, hm]
    dsimp only
    rw [helig, hyield, hmay]
    rfl
  rw [State.request_turn hmode hpass hcheck, hturn, State.closePass_open]
  show s.arbiter.pass ≠ some []
  rw [hpass]
  exact fun h => List.cons_ne_nil _ _ (Option.some.inj h)

/-- A request of a visit that is refused settles the move (R46). -/
theorem State.request_settles (hmode : s.mode = .running) (hpass : s.arbiter.pass = some (k :: rest))
    (hcheck : s.arbiter.check = none) (hm : s.move? k = some m) (helig : m.eligible = true) (hyield : m.yield = .clear)
    (hno : s.mayExtend m (m.h + 1) = false) : s.request = (s.dropTurn.settleVisit m).closePass := by
  have hturn : s.turn k = s.dropTurn.settleVisit m := by
    rw [State.turn, hm]
    dsimp only
    rw [helig, hyield, hno]
    rfl
  rw [State.request_turn hmode hpass hcheck, hturn]

theorem State.request_check {p : List SlotIx} {c : WaitCheck} (hmode : s.mode = .running) (hpass : s.arbiter.pass = some p)
    (hcheck : s.arbiter.check = some c) : s.request = (s.followChain c).closePass := by
  unfold State.request
  rw [hpass]
  dsimp only
  rw [hmode]
  dsimp only
  rw [hcheck]

theorem State.midVisit_of_no_pass (hpass : s.arbiter.pass = none) (hcheck : s.arbiter.check = none) : s.midVisit = false := by
  rw [State.midVisit, hpass, hcheck]
  rfl

theorem State.midVisit_of_head (hcheck : s.arbiter.check = none)
    (h : ∀ k rest, s.arbiter.pass = some (k :: rest) → ∀ m, s.move? k = some m → m.extending = false) :
    s.midVisit = false := by
  rw [State.midVisit, hcheck]
  split
  · rename_i k rest hpass
    cases hm : s.move? k with
    | none => rfl
    | some m =>
      show (none.isSome || m.extending) = false
      rw [h k rest hpass m hm]
      rfl
  · rfl
  · rfl

theorem State.exec_visit_over (h : s.request.midVisit = false) (hsegs : s.request.segs = s.segs) :
    exec .extensionVisit s = .next s.request := by
  show Host.Outcome.next (s.announce s.visit) = _
  rw [State.visit, State.finishVisit_over _ _ h, State.announce_of_same_segs hsegs]

/-- A turn that is passed over, with others to come (R42). -/
theorem State.exec_visit_passed (harb : s.ArbiterLaw) (hmode : s.mode = .running)
    (hpass : s.arbiter.pass = some (k :: rest)) (hcheck : s.arbiter.check = none) (hrest : rest ≠ [])
    (hover : ∀ m, s.move? k = some m → m.eligible = false ∨ m.yield ≠ .clear) :
    exec .extensionVisit s = .next { s with arbiter := { s.arbiter with pass := some rest } } := by
  have hreq : s.request = { s with arbiter := { s.arbiter with pass := some rest } } := by
    rw [State.request_turn hmode hpass hcheck, State.turn_passed hover, State.dropTurn_eq hpass,
      State.closePass_open (by simpa using hrest)]
  rw [← hreq]
  obtain ⟨-, hvisit, -, hturns, -, -⟩ := harb
  obtain ⟨hnodup, -⟩ := hturns _ hpass
  refine State.exec_visit_over ?_ (by rw [hreq])
  rw [hreq]
  refine State.midVisit_of_head hcheck fun i tail hi m hm => ?_
  have htail : rest = i :: tail := Option.some.inj hi
  cases he : m.extending with
  | false => rfl
  | true =>
    obtain ⟨hslot, hmem⟩ := State.move?_some hm
    obtain ⟨-, -, -, hhead⟩ := hvisit m hmem he
    rw [hpass] at hhead
    have hki : k = i := (Option.some.inj hhead).trans hslot
    rw [htail, hki] at hnodup
    simp at hnodup

/-- The pass ends with its last turn (R41, R58). -/
theorem State.exec_visit_last {p : List SlotIx} (hmode : s.mode = .running) (hpass : s.arbiter.pass = some p)
    (hcheck : s.arbiter.check = none)
    (hp : p = [] ∨ ∃ k, p = [k] ∧ ∀ m, s.move? k = some m → m.eligible = false ∨ m.yield ≠ .clear) :
    exec .extensionVisit s = .next { s with
      moves := s.moves.map fun (m : Move) => if m.yield = .inPass then { m with yield := .clear } else m
      arbiter := ⟨none, none, false, s.arbiter.due || s.arbiter.further || s.moves.any fun m => m.yield = .inPass⟩ } := by
  have hreq : s.request = { s with
      moves := s.moves.map fun (m : Move) => if m.yield = .inPass then { m with yield := .clear } else m
      arbiter := ⟨none, none, false, s.arbiter.due || s.arbiter.further || s.moves.any fun m => m.yield = .inPass⟩ } := by
    have hmap : s.moves.map (fun m => ({ m with yield := m.yield.onPassEnd } : Move))
        = s.moves.map fun (m : Move) => if m.yield = .inPass then { m with yield := .clear } else m :=
      List.map_congr_left fun m _ => m.onPassEnd_eq
    rcases hp with rfl | ⟨k, rfl, hover⟩
    · have hend : s.request = s.endPass := by
        unfold State.request
        rw [hpass]
        dsimp only
        rw [hmode]
        dsimp only
        rw [hcheck]
      rw [hend, State.endPass_running hmode, hmap]
    · have hdrop := State.dropTurn_eq hpass
      rw [State.request_turn hmode hpass hcheck, State.turn_passed hover, hdrop]
      rw [State.closePass_over (s := { s with arbiter := { s.arbiter with pass := some [] } }) rfl hcheck,
        State.endPass_running (s := { s with arbiter := { s.arbiter with pass := some [] } }) hmode]
      exact congrArg (fun x => ({ s with moves := x, arbiter := ⟨none, none, false,
        s.arbiter.due || s.arbiter.further || s.moves.any fun m => m.yield = .inPass⟩ } : State)) hmap
  rw [← hreq]
  exact State.exec_visit_over (State.midVisit_of_no_pass (by rw [hreq]) (by rw [hreq])) (by rw [hreq])

/-- In HALTED mode the pass ends (R41, R134). -/
theorem State.exec_visit_halted {p : List SlotIx} (hmode : s.mode = .halted) (hpass : s.arbiter.pass = some p) :
    exec .extensionVisit s = .next { s with
      moves := s.moves.map fun (m : Move) => { m with
        state := if m.extending = true then s.indexState m else m.state
        extending := false
        yield := if m.yield = .inPass then .clear else m.yield }
      arbiter := ⟨none, none, false, s.arbiter.due⟩ } := by
  have hreq : s.request = { s with
      moves := s.moves.map fun (m : Move) => { m with
        state := if m.extending = true then s.indexState m else m.state
        extending := false
        yield := if m.yield = .inPass then .clear else m.yield }
      arbiter := ⟨none, none, false, s.arbiter.due⟩ } := by
    have hcut : s.request = s.cutPass := by
      unfold State.request
      rw [hpass]
      dsimp only
      rw [hmode]
    have hmap : (s.moves.map fun (m : Move) => if m.extending then { m with state := s.indexState m, extending := false } else m).map
        (fun m => ({ m with yield := m.yield.onPassEnd } : Move)) = s.moves.map fun (m : Move) => { m with
          state := if m.extending = true then s.indexState m else m.state
          extending := false
          yield := if m.yield = .inPass then .clear else m.yield } := by
      rw [List.map_map]
      refine List.map_congr_left fun m _ => ?_
      have hyield : m.yield.onPassEnd = if m.yield = .inPass then .clear else m.yield := by cases m.yield <;> rfl
      show ({ (if m.extending then { m with state := s.indexState m, extending := false } else m : Move) with
        yield := (if m.extending then { m with state := s.indexState m, extending := false } else m : Move).yield.onPassEnd } : Move) = _
      rw [← hyield]
      cases he : m.extending with
      | true => rfl
      | false =>
        rw [if_neg Bool.false_ne_true, if_neg Bool.false_ne_true, ← he]
    rw [hcut, State.cutPass]
    exact (State.endPass_halted (s := { s with moves := s.moves.map fun (m : Move) =>
      if m.extending then { m with state := s.indexState m, extending := false } else m }) hmode).trans
      (congrArg (fun x => ({ s with moves := x, arbiter := ⟨none, none, false, s.arbiter.due⟩ } : State)) hmap)
  rw [← hreq]
  exact State.exec_visit_over (State.midVisit_of_no_pass (by rw [hreq]) (by rw [hreq])) (by rw [hreq])

end pass

end Sys2Proof.Machine
end


section
/-!
PROOFS. The wait-chain check: what becomes of a ring that is found (R54 to R57, R60, R62, R63).
-/

open Sys2Proof Sys2Proof.Machine

namespace Sys2Proof.Machine

/-! ### The end of a request (R41, R42, R58) -/

/-- State t is state w but for the end of its pass and for what is announced: the yield marks, the arbiter with no check
running, and what is to be asked for. -/
structure State.Closes (w t : State) : Prop where
  check : t.arbiter.check = none
  gridlock : t.gridlock = w.gridlock
  notices : t.notices = w.notices
  segs : t.segs = w.segs
  lanes : t.lanes = w.lanes
  moves : ∃ e : Yield → Yield, e .beforePass = .beforePass ∧ t.moves = w.moves.map fun m => { m with yield := e m.yield }

/-- A trigger asks for a pass; it ends none, and no check (R41). -/
theorem State.trigger_asks (s : State) : s.trigger.arbiter.pass = s.arbiter.pass ∧ s.trigger.arbiter.check = s.arbiter.check
    ∧ (s.arbiter.due = true → s.trigger.arbiter.due = true) := by
  unfold State.trigger
  split
  · split
    · exact ⟨rfl, rfl, id⟩
    · exact ⟨rfl, rfl, fun _ => rfl⟩
  all_goals exact ⟨rfl, rfl, id⟩

theorem State.announce_asks_pass (before s : State) : (before.announce s).arbiter.pass = s.arbiter.pass
    ∧ (before.announce s).arbiter.check = s.arbiter.check
    ∧ (s.arbiter.due = true → (before.announce s).arbiter.due = true) := by
  by_cases ha : announced before.segs s.segs = []
  · rw [State.announce_of_none ha]
    exact ⟨rfl, rfl, id⟩
  · rw [State.announce_of_some ha]
    simp only [State.announceLane_mark]
    exact State.trigger_asks _

section closes
variable {s w t : State} {k : SlotIx} {m : Move}

theorem State.closePass_closes (hcheck : w.arbiter.check = none) : w.Closes w.closePass := by
  unfold State.closePass
  split
  · have hframe : ∃ a, w.endPass = { w with
        moves := w.moves.map fun m => { m with yield := m.yield.onPassEnd }
        arbiter := a } ∧ a.check = none := by
      unfold State.endPass
      dsimp only
      split
      · unfold State.trigger
        dsimp only
        split
        · exact ⟨_, rfl, rfl⟩
        all_goals exact ⟨_, rfl, rfl⟩
      · exact ⟨_, rfl, rfl⟩
    obtain ⟨a, hend, ha⟩ := hframe
    rw [hend]
    exact ⟨ha, rfl, rfl, rfl, rfl, Yield.onPassEnd, rfl, rfl⟩
  · exact ⟨hcheck, rfl, rfl, rfl, rfl, id, rfl, (List.map_id _).symm⟩

theorem State.Closes.announce (h : w.Closes t) (before : State) : w.Closes (before.announce t) := by
  obtain ⟨hlanes, hsegs, hmoves, hnotices, -⟩ := before.announced_fields t
  have hframe := before.announce_frame t
  have hgridlock : (before.announce t).gridlock = t.gridlock := by rw [hframe]
  refine ⟨?_, hgridlock.trans h.gridlock, hnotices.trans h.notices, hsegs.trans h.segs, hlanes.trans h.lanes, ?_⟩
  · exact (before.announce_asks_pass t).2.1.trans h.check
  · rw [hmoves]
    exact h.moves

theorem State.Closes.move (h : w.Closes t) (hm : w.move? k = some m) :
    ∃ y, t.move? k = some { m with yield := y } ∧ (m.yield = .beforePass → y = .beforePass) := by
  obtain ⟨e, hkeeps, hmoves⟩ := h.moves
  refine ⟨e m.yield, ?_, fun hy => by rw [hy]; exact hkeeps⟩
  rw [State.move?, hmoves, List.find?_map]
  exact congrArg (Option.map _) hm

theorem State.Closes.holder (h : w.Closes t) (g : Nat) : t.holder g = w.holder g := by
  rw [State.holder, State.seg?, h.segs]
  rfl

end closes

/-! ### The members of a ring (R56) -/

section members
variable {s t : State} {ring : List SlotIx} {a b : Move}

theorem State.mem_ringMembers : a ∈ s.ringMembers ring ↔ a ∈ s.moves ∧ a.slot ∈ ring := by
  rw [State.ringMembers, List.mem_reverse, (byPriority_perm _).mem_iff, List.mem_filter, decide_eq_true_iff]

theorem State.ringMembers_sorted (s : State) (ring : List SlotIx) :
    (s.ringMembers ring).Pairwise fun a b => a.before b = false :=
  List.pairwise_reverse.2 (byPriority_sorted _)

/-- The admission numbers decide between two moves of one class (R42, R29). -/
theorem State.eq_of_not_before (hadm : (s.moves.map (·.admission)).Nodup) (ha : a ∈ s.moves) (hb : b ∈ s.moves)
    (hab : a.before b = false) (hba : b.before a = false) : a = b := by
  refine List.inj_on_of_nodup_map hadm ha hb ?_
  rw [← Bool.not_eq_true, Move.before_iff] at hab hba
  omega

/-- The first member that passes is the lowest in priority that does. -/
theorem State.find_ringMembers_eq (hadm : (s.moves.map (·.admission)).Nodup) {p : Move → Bool}
    (hfind : (s.ringMembers ring).find? p = some a) (hb : b ∈ s.moves) (hring : b.slot ∈ ring) (hp : p b = true)
    (hlow : ∀ w ∈ s.moves, w.slot ∈ ring → p w = true → b.before w = false) : a = b := by
  obtain ⟨hpa, before, after, hsplit, hno⟩ := List.find?_eq_some_iff_append.1 hfind
  have hsorted := s.ringMembers_sorted ring
  rw [hsplit, List.pairwise_append, List.pairwise_cons] at hsorted
  obtain ⟨-, ⟨hlater, -⟩, -⟩ := hsorted
  obtain ⟨hmem, hslot⟩ := State.mem_ringMembers.1 (List.mem_of_find?_eq_some hfind)
  have hin : b ∈ s.ringMembers ring := State.mem_ringMembers.2 ⟨hb, hring⟩
  rw [hsplit, List.mem_append, List.mem_cons] at hin
  rcases hin with hin | rfl | hin
  · have hpb := hno b hin
    rw [hp] at hpb
    cases hpb
  · rfl
  · exact State.eq_of_not_before hadm hmem hb (hlater b hin) (hlow a hmem hslot hpa)

/-- The first member is the lowest in priority. -/
theorem State.head_ringMembers_eq (hadm : (s.moves.map (·.admission)).Nodup) {rest : List Move}
    (hcons : s.ringMembers ring = a :: rest) (hb : b ∈ s.moves) (hring : b.slot ∈ ring)
    (hlow : ∀ w ∈ s.moves, w.slot ∈ ring → b.before w = false) : a = b :=
  State.find_ringMembers_eq (p := fun _ => true) hadm (by rw [hcons]; rfl) hb hring rfl fun w hw hr _ => hlow w hw hr

end members

/-! ### A ring is shed or reported (R56, R57, R60, R62) -/

section breaks
variable {s w t : State} {ring : List SlotIx} {m : Move}

/-- A move that holds ahead and bears no shed mark may be shed (R56). -/
theorem Move.sheddable_iff (m : Move) : (m.f < m.h && !m.shed) = true ↔ m.f < m.h ∧ m.shed = false := by simp

theorem State.restore_frame (s : State) (k : SlotIx) :
    ∃ segs ms, s.restore k = { s with segs := segs, moves := ms } := by
  unfold State.restore
  split
  · exact ⟨_, _, rfl⟩
  · exact ⟨s.segs, s.moves, rfl⟩

theorem State.shedMove_gridlock (s : State) (k : SlotIx) (n : Nat) : (s.shedMove k n).gridlock = ⟨k, n, false⟩ := rfl

theorem State.shedMove_frame (s : State) (k : SlotIx) (n : Nat) :
    (s.shedMove k n).arbiter = s.arbiter ∧ (s.shedMove k n).notices = s.notices ||| Notice.mask .gridlock
      ∧ (s.shedMove k n).segs = (s.restore k).segs := by
  obtain ⟨segs, ms, h⟩ := s.restore_frame k
  rw [State.shedMove, h]
  exact ⟨rfl, rfl, rfl⟩

theorem State.shedMove_move (hm : s.move? m.slot = some m) (n : Nat) : (s.shedMove m.slot n).move? m.slot
    = some { m.restored with shed := true, yield := .beforePass, state := .blocked, silence := .stopped } :=
  State.updateMove_move (w := fun x : Move => { x with shed := true, yield := .beforePass, state := .blocked, silence := .stopped })
    (s.restore_move _ m hm) fun _ => rfl

theorem State.shedMove_holder (hm : s.move? m.slot = some m) (n g : Nat) : (s.shedMove m.slot n).holder g
    = if g ∈ m.span (m.f + 1) m.h ∧ s.holder g = some m.slot then none else s.holder g := by
  rw [← State.restore_holder hm, State.holder, State.seg?, (s.shedMove_frame m.slot n).2.2]
  rfl

/-- The lowest of the members that hold ahead and bear no shed mark is shed. -/
theorem State.breaksRing_of_shed (hslots : (s.moves.map (·.slot)).Nodup) (hadm : (s.moves.map (·.admission)).Nodup)
    (hfind : (s.ringMembers ring).find? (fun m => m.f < m.h && !m.shed) = some m)
    (ht : (s.shedMove m.slot ring.length).Closes t) : s.BreaksRing ring t := by
  obtain ⟨hmem, hslot⟩ := State.mem_ringMembers.1 (List.mem_of_find?_eq_some hfind)
  obtain ⟨hahead, hunshed⟩ := m.sheddable_iff.1 (List.find?_some (p := fun m : Move => m.f < m.h && !m.shed) hfind)
  have hm := State.move?_of_mem hslots hmem
  obtain ⟨-, hnotices, -⟩ := s.shedMove_frame m.slot ring.length
  refine ⟨ht.check, fun v hv hring hhold hshed hlow => ?_, fun hall => ?_⟩
  · have hv : m = v := State.find_ringMembers_eq hadm hfind hv hring (v.sheddable_iff.2 ⟨hhold, hshed⟩)
      fun w hw hr hp => hlow w hw hr (w.sheddable_iff.1 hp).1 (w.sheddable_iff.1 hp).2
    subst hv
    obtain ⟨y, hy, hkept⟩ := ht.move (State.shedMove_move hm ring.length)
    obtain ⟨ht', hf, hh, -⟩ := m.restored_kept
    refine ⟨ht.gridlock, ht.notices.trans hnotices, fun x hx => ?_, _, hy, rfl, ht', hf, hh, rfl, hkept rfl, rfl⟩
    rw [ht.holder, State.shedMove_holder hm]
    split
    · exact fun hnone => by cases hnone
    · rename_i hnot
      exact fun hheld => hnot ⟨hx, hheld⟩
  · rw [hall m hmem hslot hahead] at hunshed
    cases hunshed

theorem State.reportRing_frame (s : State) (ring : List SlotIx) (members : List Move) :
    (s.reportRing ring members).arbiter = s.arbiter ∧ (s.reportRing ring members).segs = s.segs
      ∧ (s.reportRing ring members).moves
        = s.moves.map fun m => if m.slot ∈ ring then { m with gridlocked := true } else m := by
  unfold State.reportRing
  split
  · exact ⟨rfl, rfl, rfl⟩
  · dsimp only
    split
    · exact ⟨rfl, rfl, rfl⟩
    · exact ⟨rfl, rfl, rfl⟩

theorem State.reportRing_quiet {members : List Move} (h : ∀ m ∈ members, m.gridlocked = true) :
    (s.reportRing ring members).gridlock = s.gridlock ∧ (s.reportRing ring members).notices = s.notices := by
  unfold State.reportRing
  split
  · exact ⟨rfl, rfl⟩
  · dsimp only
    rw [if_pos (List.all_eq_true.2 h)]
    exact ⟨rfl, rfl⟩

theorem State.reportRing_loud {members : List Move} (h : ∃ x ∈ m :: members, x.gridlocked = false) :
    (s.reportRing ring (m :: members)).gridlock = ⟨m.slot, ring.length, true⟩
      ∧ (s.reportRing ring (m :: members)).notices = s.notices ||| Notice.mask .gridlock := by
  obtain ⟨x, hx, hfree⟩ := h
  unfold State.reportRing
  dsimp only
  rw [if_neg fun hall => by rw [List.all_eq_true.1 hall x hx] at hfree; cases hfree]
  exact ⟨rfl, rfl⟩

/-- With none to shed, every member is gridlocked, and the ring reported unless every one was so. -/
theorem State.breaksRing_of_report (hadm : (s.moves.map (·.admission)).Nodup)
    (hfind : (s.ringMembers ring).find? (fun m => m.f < m.h && !m.shed) = none)
    (ht : (s.reportRing ring (s.ringMembers ring)).Closes t) : s.BreaksRing ring t := by
  obtain ⟨-, hsegs, hmoves⟩ := s.reportRing_frame ring (s.ringMembers ring)
  refine ⟨ht.check, fun v hv hring hhold hshed _ => ?_, fun _ => ⟨ht.segs.trans hsegs, ?_, fun hall => ?_, ?_⟩⟩
  · exact absurd (v.sheddable_iff.2 ⟨hhold, hshed⟩)
      (List.find?_eq_none.1 hfind v (State.mem_ringMembers.2 ⟨hv, hring⟩))
  · obtain ⟨e, -, hmap⟩ := ht.moves
    intro v hv hring
    rw [hmap, hmoves, List.map_map] at hv
    obtain ⟨x, -, rfl⟩ := List.mem_map.1 hv
    by_cases hx : x.slot ∈ ring
    · simp only [Function.comp, if_pos hx]
    · simp only [Function.comp, if_neg hx] at hring
      exact absurd hring hx
  · obtain ⟨hgridlock, hnotices⟩ := State.reportRing_quiet (s := s) (ring := ring) (members := s.ringMembers ring)
      fun x hx => hall x (State.mem_ringMembers.1 hx).1 (State.mem_ringMembers.1 hx).2
    exact ⟨ht.gridlock.trans hgridlock, ht.notices.trans hnotices⟩
  · intro v hv hring hlow ⟨x, hx, hxring, hfree⟩
    cases hcons : s.ringMembers ring with
    | nil =>
      have hin := State.mem_ringMembers.2 ⟨hv, hring⟩
      rw [hcons] at hin
      cases hin
    | cons a rest =>
      have ha : a = v := State.head_ringMembers_eq hadm hcons hv hring hlow
      subst ha
      have hin := State.mem_ringMembers.2 ⟨hx, hxring⟩
      rw [hcons] at hin ht
      obtain ⟨hgridlock, hnotices⟩ := State.reportRing_loud (s := s) (ring := ring) ⟨x, hin, hfree⟩
      exact ⟨ht.gridlock.trans hgridlock, ht.notices.trans hnotices⟩

/-- What becomes of a ring that is found, whatever ends the pass with it. -/
theorem State.breakRing_breaks (hslots : s.SlotLaw) (hadm : s.AdmissionLaw) (ht : (s.breakRing ring).Closes t) :
    s.BreaksRing ring t := by
  obtain ⟨hadm, -⟩ := hadm
  have hslots : (s.moves.map (·.slot)).Nodup := (List.nodup_append.1 hslots).1
  unfold State.breakRing at ht
  dsimp only at ht
  split at ht
  · rename_i m hfind
    exact State.breaksRing_of_shed hslots hadm hfind ht
  · rename_i hfind
    exact State.breaksRing_of_report hadm hfind ht

theorem State.breakRing_arbiter (s : State) (ring : List SlotIx) : (s.breakRing ring).arbiter = s.arbiter := by
  unfold State.breakRing
  dsimp only
  split
  · exact (s.shedMove_frame _ _).1
  · exact (s.reportRing_frame _ _).1

/-- With no ring, whatever ends the pass leaves what a shedding or a report would change. -/
theorem State.endCheck_finds (ht : s.endCheck.Closes t) : s.FindsNoRing t := by
  obtain ⟨e, -, hmap⟩ := ht.moves
  refine ⟨ht.check, ht.gridlock, ht.notices, ht.segs, ?_⟩
  rw [hmap, List.map_map]
  rfl

end breaks

end Sys2Proof.Machine
end


section
/-!
PROOFS. The links of the wait-chain check (R55, R63), and the chain that is followed with nothing between them.
-/

open Sys2Proof Sys2Proof.Machine

namespace Sys2Proof.Machine

/-! ### One link (R55, R63) -/

section link
variable {s u : State} {c : WaitCheck} {k : SlotIx} {m : Move} {g : Nat}

theorem State.ringStands_iff {ring : List SlotIx} :
    s.ringStands ring = true ↔ ∀ a ∈ ring, ∃ x, s.move? a = some x ∧ x.eligible = true := by
  simp only [State.ringStands, List.all_eq_true, Option.any_eq_true]

theorem State.followChain_unheld (h : s.holder c.segment = none) : s.followChain c = s.endCheck := by
  rw [State.followChain, h]

theorem State.followChain_ring (h : s.holder c.segment = some k) (hk : k ∈ c.chain) :
    s.followChain c = if s.ringStands (c.chain.dropWhile fun x => x ≠ k) then
      s.endCheck.breakRing (c.chain.dropWhile fun x => x ≠ k) else s.endCheck := by
  rw [State.followChain, h]
  exact if_pos hk

theorem State.followChain_freed (h : s.holder c.segment = some k) (hk : k ∉ c.chain)
    (hfree : (s.move? k).bind s.heldUpOn = none) : s.followChain c = s.endCheck := by
  rw [State.followChain, h]
  dsimp only
  rw [if_neg hk, hfree]

theorem State.followChain_next (h : s.holder c.segment = some k) (hk : k ∉ c.chain)
    (hheld : (s.move? k).bind s.heldUpOn = some g) : s.followChain c =
      if c.chain.length < 24 then { s with arbiter := { s.arbiter with check := some ⟨c.chain ++ [k], g⟩ } }
      else s.endCheck := by
  rw [State.followChain, h]
  dsimp only
  rw [if_neg hk, hheld]
  rfl

theorem State.endCheck_closes (s : State) : s.endCheck.Closes s.endCheck.closePass := State.closePass_closes rfl

theorem State.breakRing_closes (s : State) (ring : List SlotIx) :
    (s.endCheck.breakRing ring).Closes (s.endCheck.breakRing ring).closePass :=
  State.closePass_closes (by rw [State.breakRing_arbiter]; rfl)

/-- A link that ends the check with no ring. -/
theorem State.link_finds {p : List SlotIx} (hmode : s.mode = .running) (hpass : s.arbiter.pass = some p)
    (hcheck : s.arbiter.check = some c) (hend : s.followChain c = s.endCheck) : s.FindsNoRing (s.announce s.request) := by
  rw [State.request_check hmode hpass hcheck, hend]
  exact State.endCheck_finds (s.endCheck_closes.announce s)

/-- Settles the requests of the wait-chain check, link by link (R55, R63). -/
theorem State.link_step {p : List SlotIx} (hrun : s.RunLaw) (hadm : s.AdmissionLaw) (hmode : s.mode = .running)
    (hpass : s.arbiter.pass = some p) (hcheck : s.arbiter.check = some c) (hheld : s.holder c.segment = some k) :
    (k ∈ c.chain → ∀ ring, ring = c.chain.dropWhile (fun x => x ≠ k) →
      ((∀ a ∈ ring, ∃ x, s.move? a = some x ∧ x.eligible = true) → s.BreaksRing ring (s.announce s.request))
      ∧ (¬(∀ a ∈ ring, ∃ x, s.move? a = some x ∧ x.eligible = true) → s.FindsNoRing (s.announce s.request)))
    ∧ (k ∉ c.chain → (∀ x, s.move? k = some x → s.heldUpOn x = none) → s.FindsNoRing (s.announce s.request))
    ∧ (∀ x g, k ∉ c.chain → s.move? k = some x → s.heldUpOn x = some g →
      (c.chain.length < 24 →
        s.announce s.request = { s with arbiter := { s.arbiter with check := some ⟨c.chain ++ [k], g⟩ } })
      ∧ (24 ≤ c.chain.length → s.FindsNoRing (s.announce s.request))) := by
  obtain ⟨-, hslots, -⟩ := hrun
  refine ⟨fun hk ring hring => ?_, fun hk hfree => ?_, fun x g hk hx hwaits => ?_⟩
  · subst hring
    have hlink := State.followChain_ring hheld hk
    refine ⟨fun hstands => ?_, fun hbroken => ?_⟩
    · rw [if_pos (State.ringStands_iff.2 hstands)] at hlink
      rw [State.request_check hmode hpass hcheck, hlink]
      exact State.breakRing_breaks (s := s.endCheck) hslots hadm ((s.breakRing_closes _).announce s)
    · rw [if_neg fun hstands => hbroken (State.ringStands_iff.1 hstands)] at hlink
      exact State.link_finds hmode hpass hcheck hlink
  · refine State.link_finds hmode hpass hcheck (State.followChain_freed hheld hk ?_)
    cases hx : s.move? k with
    | none => rfl
    | some x => exact hfree x hx
  · have hlink := State.followChain_next hheld hk (g := g) (by rw [hx]; exact hwaits)
    refine ⟨fun hshort => ?_, fun hlong => ?_⟩
    · rw [State.request_check hmode hpass hcheck, hlink, if_pos hshort, State.closePass_checking (Option.some_ne_none _)]
      exact State.announce_of_same_segs rfl
    · rw [if_neg (Nat.not_lt.2 hlong)] at hlink
      exact State.link_finds hmode hpass hcheck hlink

end link

/-! ### The chain followed with nothing between its links (R55) -/

section chain
variable {s u v x : State} {chain ring : List SlotIx} {g : Nat} {k : SlotIx} {m : Move}

/-- The end of a wait-chain check, with the ring it has found (R55, R56). -/
def State.concludeCheck (s : State) : Option (List SlotIx) → State
  | none => s.endCheck
  | some ring => s.endCheck.breakRing ring

theorem State.concludeCheck_closes (s : State) : ∀ r, (s.concludeCheck r).Closes (s.concludeCheck r).closePass
  | none => s.endCheck_closes
  | some ring => s.breakRing_closes ring

/-- No move has been granted anything by a visit under way. -/
def State.Still (s : State) : Prop := ∀ m ∈ s.moves, m.extending = false

theorem State.Still.map (h : s.Still) {f : Move → Move} (hf : ∀ m, (f m).extending = m.extending)
    (hmoves : v.moves = s.moves.map f) : v.Still := by
  intro m hm
  rw [hmoves] at hm
  obtain ⟨y, hy, rfl⟩ := List.mem_map.1 hm
  rw [hf]
  exact h y hy

theorem State.Still.updateMove (h : s.Still) {f : Move → Move} (hf : ∀ m, (f m).extending = m.extending) (k : SlotIx) :
    (s.updateMove k f).Still :=
  h.map (f := fun m => if m.slot = k then f m else m) (fun m => by
    show (if m.slot = k then f m else m).extending = _
    split
    · exact hf m
    · rfl) rfl

theorem State.Still.breakRing (h : s.Still) (ring : List SlotIx) : (s.breakRing ring).Still := by
  unfold State.breakRing
  dsimp only
  split
  · rename_i m _
    have hrestore : (s.restore m.slot).Still := by
      unfold State.restore
      split
      · refine State.Still.updateMove (s := s.release m.slot _) h (fun y => ?_) _
        unfold Move.restored
        split <;> rfl
      · exact h
    exact State.Still.updateMove (f := fun m => { m with shed := true, yield := .beforePass, state := .blocked, silence := .stopped })
      hrestore (fun _ => rfl) _
  · refine h.map (fun m => ?_) (s.reportRing_frame ring _).2.2
    split <;> rfl

theorem State.Still.concludeCheck (h : s.Still) : ∀ r, (s.concludeCheck r).Still
  | none => h
  | some ring => State.Still.breakRing (s := s.endCheck) h ring

/-- Where no move has been granted anything and no check runs, no visit is under way. -/
theorem State.Still.over (h : s.Still) (hcheck : s.arbiter.check = none) : s.midVisit = false :=
  State.midVisit_of_head hcheck fun _ _ _ _ hm => h _ (State.move?_some hm).2

theorem State.Closes.still {w t : State} (ht : w.Closes t) (h : w.Still) : t.Still := by
  obtain ⟨e, -, hmap⟩ := ht.moves
  exact h.map (f := fun m => { m with yield := e m.yield }) (fun _ => rfl) hmap

theorem State.findRing_unheld (h : s.holder g = none) (n : Nat) : s.findRing (n + 1) chain g = none := by
  rw [State.findRing, h]

theorem State.findRing_ring (h : s.holder g = some k) (hk : k ∈ chain) (n : Nat) :
    s.findRing (n + 1) chain g = some (chain.dropWhile fun x => x ≠ k) := by
  rw [State.findRing, h]
  exact if_pos hk

theorem State.findRing_freed (h : s.holder g = some k) (hk : k ∉ chain) (hfree : (s.move? k).bind s.heldUpOn = none)
    (n : Nat) : s.findRing (n + 1) chain g = none := by
  rw [State.findRing, h]
  dsimp only
  rw [if_neg hk, hfree]

theorem State.findRing_next {a : Nat} (h : s.holder g = some k) (hk : k ∉ chain)
    (hheld : (s.move? k).bind s.heldUpOn = some a) (n : Nat) :
    s.findRing (n + 1) chain g = s.findRing n (chain ++ [k]) a := by
  rw [State.findRing, h]
  dsimp only
  rw [if_neg hk, hheld]

/-- The chain of holders depends on the segments and the moves, not on which move a visit has granted to. -/
theorem State.findRing_congr {e : Move → Bool} {a : Arbiter}
    (hv : v = { u with moves := u.moves.map fun x => { x with extending := e x }, arbiter := a }) :
    ∀ (n : Nat) (chain : List SlotIx) (g : Nat), v.findRing n chain g = u.findRing n chain g := by
  have hbind : ∀ i, (v.move? i).bind v.heldUpOn = (u.move? i).bind u.heldUpOn := by
    intro i
    rw [hv, State.move?, List.find?_map]
    show ((u.move? i).map fun x => ({ x with extending := e x } : Move)).bind _ = _
    cases u.move? i with
    | none => rfl
    | some x => rfl
  have hholder : ∀ g, v.holder g = u.holder g := fun g => by rw [hv]; rfl
  intro n
  induction n with
  | zero => exact fun _ _ => rfl
  | succ n ih =>
    intro chain g
    cases hheld : u.holder g with
    | none => rw [State.findRing_unheld hheld, State.findRing_unheld ((hholder g).trans hheld)]
    | some k =>
      have hheld' := (hholder g).trans hheld
      by_cases hk : k ∈ chain
      · rw [State.findRing_ring hheld hk, State.findRing_ring hheld' hk]
      · cases hnext : (u.move? k).bind u.heldUpOn with
        | none => rw [State.findRing_freed hheld hk hnext, State.findRing_freed hheld' hk ((hbind k).trans hnext)]
        | some b => rw [State.findRing_next hheld hk hnext, State.findRing_next hheld' hk ((hbind k).trans hnext), ih]

theorem State.findRing_arbiter (s : State) (a : Arbiter) (n : Nat) (chain : List SlotIx) (g : Nat) :
    { s with arbiter := a }.findRing n chain g = s.findRing n chain g :=
  State.findRing_congr (e := fun x => x.extending) (a := a)
    (congrArg (fun ms => ({ s with moves := ms, arbiter := a } : State)) (List.map_id _).symm) n chain g

theorem State.eligible_of_heldUp (h : s.heldUpOn m = some g) : m.eligible = true := by
  unfold State.heldUpOn at h
  split at h
  · rename_i hc
    simp only [Bool.and_eq_true] at hc
    exact hc.1.1.1.1
  · cases h

/-- With nothing between its links, the check ends as the chain of holders says. -/
theorem State.finishVisit_chain {p : List SlotIx} (n : Nat) : ∀ (s : State) (chain : List SlotIx) (g fuel : Nat),
    s.mode = .running → s.arbiter.pass = some p → s.arbiter.check = some ⟨chain, g⟩ → chain.length + n = 24 → s.Still →
    s.ringStands chain = true → n < fuel →
    State.finishVisit fuel s = (s.concludeCheck (s.findRing (n + 1) chain g)).closePass := by
  induction n using Nat.strongRecOn with
  | _ n ih =>
    intro s chain g fuel hmode hpass hcheck hlen hstill hstands hfuel
    obtain ⟨fuel, rfl⟩ : ∃ f, fuel = f + 1 := ⟨fuel - 1, by omega⟩
    have hmid : s.midVisit = true := by
      rw [State.midVisit, hcheck]
      rfl
    rw [State.finishVisit_next _ _ hmid, State.request_check hmode hpass hcheck]
    have hends : ∀ r, State.finishVisit fuel (s.concludeCheck r).closePass = (s.concludeCheck r).closePass := fun r =>
      State.finishVisit_over _ _ (((s.concludeCheck_closes r).still (hstill.concludeCheck r)).over (s.concludeCheck_closes r).check)
    cases hheld : s.holder g with
    | none =>
      rw [State.findRing_unheld hheld, State.followChain_unheld hheld]
      exact hends none
    | some k =>
      by_cases hk : k ∈ chain
      · have hring : s.ringStands (chain.dropWhile fun x => x ≠ k) = true := State.ringStands_iff.2 fun a ha =>
          State.ringStands_iff.1 hstands a ((List.dropWhile_sublist _).subset ha)
        rw [State.findRing_ring hheld hk, State.followChain_ring hheld hk, if_pos hring]
        exact hends (some _)
      · cases hnext : (s.move? k).bind s.heldUpOn with
        | none =>
          rw [State.findRing_freed hheld hk hnext, State.followChain_freed hheld hk hnext]
          exact hends none
        | some b =>
          rw [State.findRing_next hheld hk hnext, State.followChain_next hheld hk hnext]
          cases n with
          | zero =>
            rw [if_neg (show ¬chain.length < 24 by omega)]
            exact hends none
          | succ n =>
            rw [if_pos (show chain.length < 24 by omega), State.closePass_checking (Option.some_ne_none _)]
            obtain ⟨x, hx, hheldup⟩ := Option.bind_eq_some_iff.1 hnext
            have hnow : s.ringStands (chain ++ [k]) = true := State.ringStands_iff.2 fun a ha => by
              rcases List.mem_append.1 ha with ha | ha
              · exact State.ringStands_iff.1 hstands a ha
              · rw [List.mem_singleton.1 ha]
                exact ⟨x, hx, State.eligible_of_heldUp hheldup⟩
            have hlonger : (chain ++ [k]).length + n = 24 := by
              rw [List.length_append, List.length_singleton]
              omega
            refine (ih n (Nat.lt_succ_self n) { s with arbiter := { s.arbiter with check := some ⟨chain ++ [k], b⟩ } }
              (chain ++ [k]) b fuel hmode hpass rfl hlonger hstill hnow (by omega)).trans ?_
            rw [State.findRing_arbiter]
            cases s.findRing (n + 1) (chain ++ [k]) b <;> rfl

end chain

end Sys2Proof.Machine
end


section
/-!
PROOFS. The shape of a ring: each member waits on a segment that the next one holds (R54, R55).
-/

open Sys2Proof Sys2Proof.Machine

namespace Sys2Proof.Machine

section ring
variable {s u : State} {chain ring : List SlotIx} {g n : Nat} {k a b : SlotIx} {m : Move}

/-- Move a of a chain that began with move k is held up on segment g: the first on its next segment, whichever way it
is refused, the others as the check has found them. -/
def State.WaitsFor (u : State) (k a : SlotIx) (g : Nat) : Prop :=
  ∃ x, u.move? a = some x ∧ x.seg (x.h + 1) = g ∧ (a ≠ k → u.heldUpOn x = some g)

/-- Move a of a chain waits on a segment that move b holds. -/
def State.WaitsOn (u : State) (k a b : SlotIx) : Prop := ∃ g, u.WaitsFor k a g ∧ u.holder g = some b

/-- The chain of holders, as the check has followed it to segment g (R55). -/
structure State.ChainTo (u : State) (k : SlotIx) (chain : List SlotIx) (g : Nat) : Prop where
  nodup : chain.Nodup
  linked : chain.IsChain (u.WaitsOn k)
  last : ∃ a ∈ chain.getLast?, u.WaitsFor k a g

/-- A ring: each member waits on a segment of the next one, and the last on one of the first (R55). -/
structure State.RingOf (u : State) (k : SlotIx) (ring : List SlotIx) : Prop where
  nodup : ring.Nodup
  linked : ring.IsChain (u.WaitsOn k)
  closed : ∃ a ∈ ring.getLast?, ∃ b ∈ ring.head?, u.WaitsOn k a b

theorem dropWhile_of_mem : ∀ {l : List SlotIx}, k ∈ l → ∃ rest, (l.dropWhile fun x => x ≠ k) = k :: rest
  | [], h => absurd h List.not_mem_nil
  | x :: l, h => by
    by_cases hx : x = k
    · subst hx
      exact ⟨l, List.dropWhile_cons_of_neg (by simp)⟩
    · obtain ⟨rest, hrest⟩ := dropWhile_of_mem (List.mem_of_ne_of_mem (fun e => hx e.symm) h)
      exact ⟨rest, (List.dropWhile_cons_of_pos (by simpa using hx)).trans hrest⟩

theorem State.heldUpOn_eq (h : s.heldUpOn m = some g) : m.seg (m.h + 1) = g := by
  unfold State.heldUpOn at h
  split at h
  · exact Option.some.inj h
  · cases h

/-- A chain that begins with one move. -/
theorem State.ChainTo.single (hm : u.move? k = some m) : u.ChainTo k [k] (m.seg (m.h + 1)) :=
  ⟨List.nodup_singleton k, List.isChain_singleton k, k, rfl, m, hm, rfl, fun h => absurd rfl h⟩

/-- One more link. -/
theorem State.ChainTo.next (h : u.ChainTo k chain g) (hheld : u.holder g = some a) (ha : a ∉ chain) {g' : Nat}
    (hnext : (u.move? a).bind u.heldUpOn = some g') : u.ChainTo k (chain ++ [a]) g' := by
  obtain ⟨last, hlast, hwaits⟩ := h.last
  obtain ⟨x, hx, hheldup⟩ := Option.bind_eq_some_iff.1 hnext
  refine ⟨List.nodup_append.2 ⟨h.nodup, List.nodup_singleton a, fun x hx y hy he => ?_⟩,
    List.isChain_append.2 ⟨h.linked, List.isChain_singleton a, fun x hx y hy => ?_⟩,
    a, List.getLast?_concat .., x, hx, State.heldUpOn_eq hheldup, fun _ => hheldup⟩
  · rw [List.mem_singleton.1 hy] at he
    exact ha (he ▸ hx)
  · have hxl : x = last := Option.mem_unique hx hlast
    have hya : a = y := Option.some.inj hy
    rw [hxl, ← hya]
    exact ⟨g, hwaits, hheld⟩

/-- A holder that the chain has met closes a ring. -/
theorem State.ChainTo.ringOf (h : u.ChainTo k chain g) (hheld : u.holder g = some a) (ha : a ∈ chain) :
    u.RingOf k (chain.dropWhile fun x => x ≠ a) := by
  obtain ⟨last, hlast, hwaits⟩ := h.last
  obtain ⟨rest, hrest⟩ := dropWhile_of_mem ha
  have hsuffix : (chain.dropWhile fun x => x ≠ a) <:+ chain := List.dropWhile_suffix _
  refine ⟨h.nodup.sublist hsuffix.sublist, h.linked.suffix hsuffix, last, ?_, a, by rw [hrest]; rfl, g, hwaits, hheld⟩
  obtain ⟨front, hfront⟩ := hsuffix
  rw [hrest] at hfront ⊢
  rw [← hfront, List.getLast?_append_of_ne_nil _ (List.cons_ne_nil a rest)] at hlast
  exact hlast

/-- A ring that the check finds is a ring, and no longer than the chain can grow (R55). -/
theorem State.findRing_ringOf : ∀ {n : Nat} {chain : List SlotIx} {g : Nat}, u.ChainTo k chain g →
    u.findRing n chain g = some ring → u.RingOf k ring ∧ ring.length < chain.length + n
  | 0, _, _, _, h => by cases h
  | n + 1, chain, g, hchain, h => by
    cases hheld : u.holder g with
    | none =>
      rw [State.findRing_unheld hheld] at h
      cases h
    | some a =>
      by_cases ha : a ∈ chain
      · rw [State.findRing_ring hheld ha] at h
        rw [← Option.some.inj h]
        have hle := (List.dropWhile_sublist (l := chain) fun x => x ≠ a).length_le
        exact ⟨hchain.ringOf hheld ha, by omega⟩
      · cases hnext : (u.move? a).bind u.heldUpOn with
        | none =>
          rw [State.findRing_freed hheld ha hnext] at h
          cases h
        | some g' =>
          rw [State.findRing_next hheld ha hnext] at h
          obtain ⟨hring, hlt⟩ := State.findRing_ringOf (hchain.next hheld ha hnext) h
          rw [List.length_append, List.length_singleton] at hlt
          exact ⟨hring, by omega⟩

/-- Each member of a ring waits on a segment that the next one holds. -/
theorem State.RingOf.waits (h : u.RingOf k ring) {i : Nat} (ha : ring[i]? = some a)
    (hb : ring[(i + 1) % ring.length]? = some b) : u.WaitsOn k a b := by
  obtain ⟨hi, hai⟩ := List.getElem?_eq_some_iff.1 ha
  by_cases hlast : i + 1 < ring.length
  · rw [Nat.mod_eq_of_lt hlast, List.getElem?_eq_getElem hlast] at hb
    rw [← hai, ← Option.some.inj hb]
    exact List.isChain_iff_getElem.1 h.linked i hlast
  · have heq : i + 1 = ring.length := by omega
    obtain ⟨x, hx, y, hy, hwaits⟩ := h.closed
    rw [heq, Nat.mod_self, ← List.head?_eq_getElem?] at hb
    rw [List.getLast?_eq_getElem?, ← heq, Nat.add_sub_cancel] at hx
    have hxa : a = x := Option.some.inj (ha.symm.trans hx)
    have hyb : b = y := Option.some.inj (hb.symm.trans hy)
    rw [hxa, hyb]
    exact hwaits

/-- No move holds the segment it waits on (R49). -/
theorem State.RunLaw.next_unheld (h : s.RunLaw) (hm : s.move? k = some m) : s.holder (m.seg (m.h + 1)) ≠ some k := by
  intro hheld
  obtain ⟨hroute, ⟨htf, hfh, hlen, -⟩, -⟩ := h.of_move hm
  obtain ⟨⟨-, hids⟩, hslots, -, -, hhold⟩ := h
  obtain ⟨r, hr, hholder⟩ := Option.bind_eq_some_iff.1 hheld
  have hid : r.id = m.seg (m.h + 1) := by simpa using List.find?_some hr
  obtain ⟨x, hx, hslot, hspan⟩ := (hhold r (List.mem_of_find?_eq_some hr) k).1 hholder
  have hxm : x = m := by
    have hfound := State.move?_of_mem (List.nodup_append.1 hslots).1 hx
    rw [hslot, hm] at hfound
    exact (Option.some.inj hfound).symm
  rw [hxm, hid] at hspan
  obtain ⟨p, -, hp, hplt, heq⟩ := Move.mem_span.1 hspan
  by_cases hlt : m.h + 1 < m.route.length
  · have := Move.seg_inj hroute.nodup hplt hlt heq
    omega
  · have hzero : m.seg (m.h + 1) = 0 := List.getD_eq_default _ _ (Nat.not_lt.1 hlt)
    have := (hids r (List.mem_of_find?_eq_some hr)).1
    omega

/-- A ring has two members at least. -/
theorem State.RingOf.two_le (h : u.RingOf k ring) (hno : ∀ a, ¬u.WaitsOn k a a) : 2 ≤ ring.length := by
  obtain ⟨a, ha, b, hb, hwaits⟩ := h.closed
  match ring, ha, hb with
  | [x], ha, hb =>
    have hxa : x = a := Option.some.inj ha
    have hxb : x = b := Option.some.inj hb
    rw [← hxa, ← hxb] at hwaits
    exact absurd hwaits (hno x)
  | _ :: _ :: rest, _, _ => exact Nat.le_add_left 2 rest.length

end ring

end Sys2Proof.Machine
end


section
/-!
PROOFS. The wait-chain check after a visit that settles its move BLOCKED (R54 to R57, R60, R62).
-/

open Sys2Proof Sys2Proof.Machine

namespace Sys2Proof.Machine

section settled
variable {s u v t : State} {k : SlotIx} {rest ring : List SlotIx} {m : Move} {e : Move → Bool} {a : Arbiter}

/-- What becomes of a ring does not depend on which move a visit has granted to. -/
theorem State.BreaksRing.of_still
    (hv : v = { u with moves := u.moves.map fun x => { x with extending := e x }, arbiter := a })
    (h : v.BreaksRing ring t) : u.BreaksRing ring t := by
  have hmem : ∀ {x}, x ∈ u.moves → ({ x with extending := e x } : Move) ∈ v.moves := fun hx => by
    rw [hv]
    exact List.mem_map_of_mem hx
  have hall : ∀ {p : Move → Prop}, (∀ x ∈ u.moves, p { x with extending := e x }) → ∀ x ∈ v.moves, p x := fun hp x hx => by
    rw [hv] at hx
    obtain ⟨y, hy, rfl⟩ := List.mem_map.1 hx
    exact hp y hy
  obtain ⟨hcheck, hshed, hreport⟩ := h
  have hgridlock : v.gridlock = u.gridlock := by rw [hv]
  have hnotices : v.notices = u.notices := by rw [hv]
  have hsegs : v.segs = u.segs := by rw [hv]
  rw [hnotices] at hshed hreport
  rw [hgridlock, hsegs] at hreport
  refine ⟨hcheck, fun x hx hring hhold hun hlow => ?_, fun hmarked => ?_⟩
  · exact hshed { x with extending := e x } (hmem hx) hring hhold hun (hall fun w hw => hlow w hw)
  · obtain ⟨hkept, hgrid, hquiet, hloud⟩ := hreport (hall fun w hw => hmarked w hw)
    refine ⟨hkept, hgrid, fun hevery => hquiet (hall fun w hw => hevery w hw), fun x hx hring hlow hfree => ?_⟩
    obtain ⟨w, hw, hwring, hwfree⟩ := hfree
    exact hloud { x with extending := e x } (hmem hx) hring (hall fun w hw => hlow w hw) ⟨_, hmem hw, hwring, hwfree⟩

/-- The turn of a move is over, and the move settled BLOCKED: the wait-chain check begins (R46, R55). -/
def State.blockedTurn (s : State) (k : SlotIx) (rest : List SlotIx) (g : Nat) : State :=
  { s with
    moves := s.moves.map fun x => if x.slot = k then { x with state := .blocked, extending := false } else x
    arbiter := { s.arbiter with pass := some rest, check := some ⟨[k], g⟩ } }

theorem State.request_blocked (hmode : s.mode = .running) (hpass : s.arbiter.pass = some (k :: rest))
    (hcheck : s.arbiter.check = none) (hm : s.move? k = some m) (helig : m.eligible = true) (hyield : m.yield = .clear)
    (hno : s.mayExtend m (m.h + 1) = false) (htable : s.tableState m = .blocked) :
    s.request = s.blockedTurn k rest (m.seg (m.h + 1)) := by
  have hsettle : s.dropTurn.settleVisit m = s.blockedTurn k rest (m.seg (m.h + 1)) := by
    have hdrop : s.dropTurn.tableState m = .blocked := htable
    rw [State.settleVisit, hdrop, State.dropTurn_eq hpass, (State.move?_some hm).1]
    dsimp only
    rw [State.beginCheck, (State.move?_some hm).1]
    rfl
  rw [State.request_settles hmode hpass hcheck hm helig hyield hno, hsettle, State.closePass_checking (Option.some_ne_none _)]

/-- Only the move whose turn it is has been granted anything by a visit under way (R44). -/
theorem State.VisitLaw.not_extending (hvisit : s.VisitLaw) (hpass : s.arbiter.pass = some (k :: rest)) {x : Move}
    (hx : x ∈ s.moves) (hk : x.slot ≠ k) : x.extending = false := by
  cases he : x.extending with
  | false => rfl
  | true =>
    obtain ⟨-, -, -, hhead⟩ := hvisit x hx he
    rw [hpass] at hhead
    exact absurd (Option.some.inj hhead).symm hk

theorem State.blockedTurn_still (hvisit : s.VisitLaw) (hpass : s.arbiter.pass = some (k :: rest)) (g : Nat) :
    (s.blockedTurn k rest g).Still := by
  intro x hx
  obtain ⟨y, hy, rfl⟩ := List.mem_map.1 hx
  by_cases hk : y.slot = k
  · rw [if_pos hk]
  · rw [if_neg hk]
    exact State.VisitLaw.not_extending hvisit hpass hy hk

theorem State.blockedTurn_move (hm : s.move? k = some m) (g : Nat) :
    (s.blockedTurn k rest g).move? k = some { m with state := .blocked, extending := false } :=
  State.updateMove_move (w := fun x => { x with state := .blocked, extending := false }) hm fun _ => rfl

/-- The visit of a move that is settled BLOCKED at once, with the check after it. -/
theorem State.visit_blocked (hvisit : s.VisitLaw) (hmode : s.mode = .running)
    (hpass : s.arbiter.pass = some (k :: rest)) (hcheck : s.arbiter.check = none) (hm : s.move? k = some m)
    (helig : m.eligible = true) (hyield : m.yield = .clear) (hno : s.mayExtend m (m.h + 1) = false)
    (htable : s.tableState m = .blocked) : s.visit
      = ((s.blockedTurn k rest (m.seg (m.h + 1))).concludeCheck
          ((s.blockedTurn k rest (m.seg (m.h + 1))).findRing 24 [k] (m.seg (m.h + 1)))).closePass := by
  have hstands : (s.blockedTurn k rest (m.seg (m.h + 1))).ringStands [k] = true := State.ringStands_iff.2 fun i hi => by
    rw [List.mem_singleton.1 hi]
    exact ⟨_, State.blockedTurn_move hm _, rfl⟩
  rw [State.visit, State.request_blocked hmode hpass hcheck hm helig hyield hno htable]
  exact State.finishVisit_chain 23 (s.blockedTurn k rest (m.seg (m.h + 1))) [k] (m.seg (m.h + 1)) Config.visitRequests hmode rfl
    rfl rfl (State.blockedTurn_still hvisit hpass _) hstands (by decide)

theorem State.exec_visit_blocked (hvisit : s.VisitLaw) (hmode : s.mode = .running)
    (hpass : s.arbiter.pass = some (k :: rest)) (hcheck : s.arbiter.check = none) (hm : s.move? k = some m)
    (helig : m.eligible = true) (hyield : m.yield = .clear) (hno : s.mayExtend m (m.h + 1) = false)
    (htable : s.tableState m = .blocked) : ∃ t, exec .extensionVisit s = .next t ∧
      ((s.blockedTurn k rest (m.seg (m.h + 1))).concludeCheck
        ((s.blockedTurn k rest (m.seg (m.h + 1))).findRing 24 [k] (m.seg (m.h + 1)))).Closes t := by
  refine ⟨s.announce s.visit, rfl, ?_⟩
  rw [State.visit_blocked hvisit hmode hpass hcheck hm helig hyield hno htable]
  exact (State.concludeCheck_closes _ _).announce s

theorem State.blockedTurn_slots (hslots : s.SlotLaw) (g : Nat) : (s.blockedTurn k rest g).SlotLaw := by
  have hsame : (s.blockedTurn k rest g).moves.map (·.slot) = s.moves.map (·.slot) := by
    rw [State.blockedTurn, List.map_map]
    exact List.map_congr_left fun x _ => by
      show (if x.slot = k then _ else x).slot = _
      split <;> rfl
  rw [State.SlotLaw, hsame]
  exact hslots

theorem State.blockedTurn_admissions (hadm : s.AdmissionLaw) (g : Nat) : (s.blockedTurn k rest g).AdmissionLaw := by
  have hsame : (s.blockedTurn k rest g).moves.map (·.admission) = s.moves.map (·.admission) := by
    rw [State.blockedTurn, List.map_map]
    exact List.map_congr_left fun x _ => by
      show (if x.slot = k then _ else x).admission = _
      split <;> rfl
  obtain ⟨hnodup, hlt, hle⟩ := hadm
  refine ⟨by rw [hsame]; exact hnodup, fun x hx => ?_, hle⟩
  have hin := List.mem_map_of_mem (f := (·.admission)) hx
  rw [hsame] at hin
  obtain ⟨y, hy, heq⟩ := List.mem_map.1 hin
  rw [← heq]
  exact hlt y hy

/-- No move waits on itself. -/
theorem State.RunLaw.waits_no_self (hrun : s.RunLaw)
    (hu : u = s.updateMove k fun x => { x with state := .blocked }) (i : SlotIx) : ¬u.WaitsOn k i i := by
  rintro ⟨g, ⟨x, hx, rfl, -⟩, hheld⟩
  rw [hu, State.move?_updateMove] at hx
  · obtain ⟨y, hy, heq⟩ := Option.map_eq_some_iff.1 hx
    have hnext : x.seg (x.h + 1) = y.seg (y.h + 1) := by
      rw [← heq]
      split <;> rfl
    rw [hu, hnext] at hheld
    exact hrun.next_unheld hy hheld
  · exact fun _ => rfl

/-- Settles O45: the check after a settled visit, from the chain of holders; its requests one by one, from the link. -/
theorem ringIsShedOrReported : Obligations.RingIsShedOrReported := by
  refine ⟨fun s k rest m hrun hadm harb hmode hpass hcheck hm helig hyield hno htable u hu => ?_,
    fun s p c hrun hadm hmode hpass hcheck => ⟨s.announce s.request, rfl, fun hheld => ?_, fun k hheld =>
      State.link_step hrun hadm hmode hpass hcheck hheld⟩⟩
  · obtain ⟨-, hvisit, -⟩ := harb
    obtain ⟨t, ht, hcloses⟩ := State.exec_visit_blocked hvisit hmode hpass hcheck hm helig hyield hno htable
    have hturned : s.blockedTurn k rest (m.seg (m.h + 1)) = { u with
        moves := u.moves.map fun x => { x with extending := if x.slot = k then false else x.extending }
        arbiter := { s.arbiter with pass := some rest, check := some ⟨[k], m.seg (m.h + 1)⟩ } } := by
      rw [hu]
      refine congrArg (fun ms => ({ s with
        moves := ms
        arbiter := { s.arbiter with pass := some rest, check := some ⟨[k], m.seg (m.h + 1)⟩ } } : State)) ?_
      rw [List.map_map]
      refine List.map_congr_left fun x _ => ?_
      by_cases hx : x.slot = k
      · simp only [Function.comp, if_pos hx]
      · simp only [Function.comp, if_neg hx]
    rw [State.findRing_congr hturned] at hcloses
    refine ⟨t, ht, fun hnone => ?_, fun ring hring => ?_⟩
    · rw [hnone] at hcloses
      obtain ⟨hdone, hgridlock, hnotices, hsegs, hmoves⟩ := State.endCheck_finds hcloses
      refine ⟨hdone, hgridlock, hnotices, hsegs, hmoves.trans ?_⟩
      rw [State.blockedTurn, List.map_map]
      refine List.map_congr_left fun x _ => ?_
      by_cases hx : x.slot = k
      · simp only [Function.comp, if_pos hx]
      · simp only [Function.comp, if_neg hx]
    · rw [hring] at hcloses
      have hmove : u.move? k = some { m with state := .blocked } := by
        rw [hu]
        exact State.updateMove_move (w := fun x => { x with state := .blocked }) hm fun _ => rfl
      have hchain : u.ChainTo k [k] (m.seg (m.h + 1)) := State.ChainTo.single (m := { m with state := .blocked }) hmove
      obtain ⟨hshape, hlt⟩ := State.findRing_ringOf hchain hring
      refine ⟨hshape.two_le (hrun.waits_no_self hu), Nat.lt_succ_iff.1 hlt, hshape.nodup, fun i a b ha hb => ?_, ?_⟩
      · obtain ⟨g, ⟨x, hx, rfl, hwaits⟩, hheld⟩ := hshape.waits ha hb
        exact ⟨x, hx, hheld, hwaits⟩
      · refine State.BreaksRing.of_still hturned ?_
        obtain ⟨-, hslots, -⟩ := hrun
        exact State.breakRing_breaks (s := (s.blockedTurn k rest (m.seg (m.h + 1))).endCheck)
          (State.blockedTurn_slots (rest := rest) hslots (m.seg (m.h + 1)))
          (State.blockedTurn_admissions (rest := rest) hadm (m.seg (m.h + 1))) hcloses
  · exact State.link_finds hmode hpass hcheck (State.followChain_unheld hheld)

end settled

end Sys2Proof.Machine
end


section
/-!
PROOFS. The grants of a visit, one by one (R44, R45, R50).
-/

open Sys2Proof Sys2Proof.Machine

namespace Sys2Proof.Machine

/-! ### The visited move after n grants (R45, R50, R61) -/

/-- The visited move after n grants of one visit: they are one stack entry. -/
def Move.reached (m : Move) (full n : Nat) : Move :=
  if n = 0 then m
  else { m with
    stack := if m.extending = true then addTop n m.stack else pushEntry n m.stack
    h := m.h + n
    gridlocked := false
    extending := true
    silence := if m.h = m.f then .running full else m.silence }

/-- The state after n grants of the visit of move m. -/
def State.granted (s : State) (m : Move) (n : Nat) : State :=
  { s with
    segs := s.segs.map fun g => if g.id ∈ m.span (m.h + 1) (m.h + n) then { g with holder := some m.slot } else g
    moves := s.moves.map fun x => if x.slot = m.slot then m.reached s.silenceFull n else x }

section reached
variable {m : Move} {full n : Nat}

theorem Move.reached_kept (m : Move) (full n : Nat) : (m.reached full n).slot = m.slot ∧ (m.reached full n).t = m.t
    ∧ (m.reached full n).f = m.f ∧ (m.reached full n).route = m.route ∧ (m.reached full n).h = m.h + n
    ∧ (m.reached full n).token = m.token ∧ (m.reached full n).state = m.state ∧ (m.reached full n).yield = m.yield := by
  unfold Move.reached
  split
  · rename_i h
    rw [h]
    exact ⟨rfl, rfl, rfl, rfl, rfl, rfl, rfl, rfl⟩
  · exact ⟨rfl, rfl, rfl, rfl, rfl, rfl, rfl, rfl⟩

theorem Move.reached_slot (m : Move) (full n : Nat) : (m.reached full n).slot = m.slot := (m.reached_kept full n).1

theorem Move.reached_h (m : Move) (full n : Nat) : (m.reached full n).h = m.h + n := (m.reached_kept full n).2.2.2.2.1

theorem Move.reached_seg (m : Move) (full n i : Nat) : (m.reached full n).seg i = m.seg i :=
  Move.seg_congr (m.reached_kept full n).2.2.2.1 i

/-- One more grant. -/
theorem Move.reached_succ (hfh : m.f ≤ m.h) : { (m.reached full n).extended with
      silence := if (m.reached full n).h = (m.reached full n).f then .running full else (m.reached full n).silence }
    = m.reached full (n + 1) := by
  cases n with
  | zero => rfl
  | succ n =>
    have hne : m.h + (n + 1) ≠ m.f := by omega
    unfold Move.reached Move.extended
    rw [if_neg (Nat.succ_ne_zero n), if_neg (Nat.succ_ne_zero (n + 1))]
    dsimp only
    rw [if_neg hne, if_pos rfl, Nat.add_assoc]
    cases m.extending with
    | true => rw [if_pos rfl, if_pos rfl, addTop_addTop]
    | false => rw [if_neg Bool.false_ne_true, if_neg Bool.false_ne_true, addTop_pushEntry]

theorem State.reached_congr (s : State) (m : Move) (full n : Nat) :
    s.tableState (m.reached full n) = s.tableState { m with h := m.h + n } := by
  obtain ⟨-, ht, hf, hroute, hh, -⟩ := m.reached_kept full n
  have hseg : (m.reached full n).seg ((m.reached full n).h + 1) = ({ m with h := m.h + n } : Move).seg (m.h + n + 1) := by
    rw [hh]
    exact m.reached_seg full n _
  unfold State.tableState
  rw [hseg, ht, hf, hroute, hh]

end reached

/-! ### The grants of a visit, whole (R44, R45) -/

section granted
variable {s : State} {k : SlotIx} {rest : List SlotIx} {m : Move} {n : Nat} {i : SlotIx}

theorem State.granted_zero (hslots : (s.moves.map (·.slot)).Nodup) (hm : m ∈ s.moves) : s.granted m 0 = s := by
  have hspan : m.span (m.h + 1) (m.h + 0) = [] := by
    rw [Move.span, show m.h + 0 + 1 - (m.h + 1) = 0 from Nat.sub_self _, List.take_zero]
  have hsegs : (s.segs.map fun g => if g.id ∈ m.span (m.h + 1) (m.h + 0) then { g with holder := some m.slot } else g) = s.segs := by
    rw [hspan]
    exact List.map_id' _
  have hmoves : (s.moves.map fun x => if x.slot = m.slot then m.reached s.silenceFull 0 else x) = s.moves := by
    refine (List.map_congr_left fun x hx => ?_).trans (List.map_id _)
    split
    · rename_i he
      exact List.inj_on_of_nodup_map hslots hm hx he.symm
    · rfl
  rw [State.granted, hsegs, hmoves]

/-- The move of a slot, where every move has kept its slot. -/
theorem State.move?_of_map {v : State} {f : Move → Move} (hv : v.moves = s.moves.map f) (hf : ∀ x, (f x).slot = x.slot)
    (k : SlotIx) : v.move? k = (s.move? k).map f := by
  rw [State.move?, State.move?, hv, List.find?_map]
  refine congrArg (fun p => Option.map _ (s.moves.find? p)) (funext fun x => ?_)
  exact congrArg (fun i => decide (i = k)) (hf x)

/-- The grants change the visited move alone. -/
theorem State.granted_look (s : State) (m : Move) (n : Nat) (k : SlotIx) : (s.granted m n).move? k
    = (s.move? k).map fun x => if x.slot = m.slot then m.reached s.silenceFull n else x := by
  refine State.move?_of_map rfl (fun x => ?_) k
  split
  · rename_i hx
    rw [Move.reached_slot, hx]
  · rfl

theorem State.granted_move (hm : s.move? k = some m) (n : Nat) :
    (s.granted m n).move? k = some (m.reached s.silenceFull n) := by
  rw [State.granted_look, hm, Option.map_some, if_pos rfl]

theorem State.granted_move_other {x : Move} (hx : s.move? i = some x) (hne : i ≠ m.slot) (n : Nat) :
    (s.granted m n).move? i = some x := by
  rw [State.granted_look, hx, Option.map_some, if_neg fun he => hne ((State.move?_some hx).1.symm.trans he)]

/-- One more grant makes n + 1 of them. -/
theorem State.granted_grantNext (hmode : s.mode = .running) (hfh : m.f ≤ m.h) (hlt : m.h + n + 1 < m.route.length) :
    (s.granted m n).grantNext (m.reached s.silenceFull n) = s.granted m (n + 1) := by
  obtain ⟨hslot, -, -, hroute, hh, -⟩ := m.reached_kept s.silenceFull n
  have hspan : ∀ g, g ∈ m.span (m.h + 1) (m.h + (n + 1)) ↔ g ∈ m.span (m.h + 1) (m.h + n) ∨ g ∈ [m.seg (m.h + n + 1)] := by
    intro g
    rw [Move.mem_span_split (j := m.h + n) (by omega) (by omega), ← Move.span_one hlt, Nat.add_assoc]
  have hsegs : ((s.granted m n).hold m.slot [m.seg (m.h + n + 1)]).segs = (s.granted m (n + 1)).segs := by
    show (s.segs.map _).map _ = _
    rw [List.map_map]
    refine List.map_congr_left fun g _ => ?_
    by_cases hg : g.id ∈ m.span (m.h + 1) (m.h + n)
    · simp only [Function.comp, if_pos hg, if_pos ((hspan _).2 (.inl hg)), ite_self]
    · by_cases hlast : g.id ∈ [m.seg (m.h + n + 1)]
      · simp only [Function.comp, if_neg hg, if_pos hlast, if_pos ((hspan _).2 (.inr hlast))]
      · simp only [Function.comp, if_neg hg, if_neg hlast, if_neg fun hin => ((hspan _).1 hin).elim hg hlast]
  have hmoves : ((s.granted m n).updateMove m.slot fun x => { x.extended with
      silence := if (m.reached s.silenceFull n).h = (m.reached s.silenceFull n).f then s.startTimer s.silenceFull else x.silence }).moves
      = (s.granted m (n + 1)).moves := by
    show (s.moves.map _).map _ = _
    rw [List.map_map]
    refine List.map_congr_left fun x _ => ?_
    by_cases hx : x.slot = m.slot
    · simp only [Function.comp, if_pos hx, hslot, ite_true, State.startTimer_running hmode]
      exact Move.reached_succ hfh
    · simp only [Function.comp, if_neg hx]
  have hgrant : (s.granted m n).grantNext (m.reached s.silenceFull n) = { s with
      segs := ((s.granted m n).hold m.slot [m.seg (m.h + n + 1)]).segs
      moves := ((s.granted m n).updateMove m.slot fun x => { x.extended with
        silence := if (m.reached s.silenceFull n).h = (m.reached s.silenceFull n).f then s.startTimer s.silenceFull else x.silence }).moves } := by
    rw [State.grantNext, Move.reached_seg, hslot]
    rw [hh]
    rfl
  rw [hgrant, hsegs, hmoves]
  rfl

end granted

end Sys2Proof.Machine
end


section
/-!
PROOFS. A visit as its grants and the request that settles it (R44 to R46).
-/

open Sys2Proof Sys2Proof.Machine

namespace Sys2Proof.Machine

section visit
variable {s : State} {k : SlotIx} {rest : List SlotIx} {m : Move} {n i g : Nat}

theorem State.granted_seg? (s : State) (m : Move) (n g : Nat) : (s.granted m n).seg? g
    = (s.seg? g).map fun r => if g ∈ m.span (m.h + 1) (m.h + n) then { r with holder := some m.slot } else r :=
  s.seg?_updateSegs (m.span (m.h + 1) (m.h + n)) (fun r => { r with holder := some m.slot }) g fun _ => rfl

theorem State.granted_config (s : State) (m : Move) (n : Nat) :
    (s.granted m n).segs.map Segment.config = s.segs.map Segment.config :=
  (s.hold_steady m.slot (m.span (m.h + 1) (m.h + n))).config

theorem State.granted_holder (hg : g ∈ m.span (m.h + 1) (m.h + n)) (hconf : (s.seg? g).isSome) :
    (s.granted m n).holder g = some m.slot := by
  obtain ⟨r, hr⟩ := Option.isSome_iff_exists.1 hconf
  rw [State.holder, State.granted_seg?, hr, Option.map_some, if_pos hg]
  rfl

theorem State.seg?_of_grantable {token : Bool} (h : s.grantable token g = true) : (s.seg? g).isSome = true := by
  unfold State.grantable at h
  cases hseg : s.seg? g with
  | none =>
    rw [hseg] at h
    cases h
  | some r => rfl

theorem State.granted_unheld (s : State) (m : Move) (n : Nat) :
    (s.granted m n).segs.map Segment.unheld = s.segs.map Segment.unheld := by
  show (s.segs.map _).map _ = _
  rw [List.map_map]
  refine List.map_congr_left fun g _ => ?_
  by_cases hg : g.id ∈ m.span (m.h + 1) (m.h + n)
  · simp only [Function.comp, if_pos hg]
    rfl
  · simp only [Function.comp, if_neg hg]

/-- The grants leave what may be granted beyond them (R44). -/
theorem State.granted_mayExtend (hroute : m.route.Nodup) (hi : m.h + n < i) :
    (s.granted m n).mayExtend (m.reached s.silenceFull n) i = s.mayExtend m i := by
  obtain ⟨-, -, hf, hlen, -, htoken, -⟩ := m.reached_kept s.silenceFull n
  have hcell : (s.granted m n).isCell = s.isCell := State.isCell_of_config (s.granted_config m n)
  unfold State.mayExtend
  rw [hlen, hf, htoken, Move.reached_seg, hcell]
  by_cases hlt : i < m.route.length
  · have hout : m.seg i ∉ m.span (m.h + 1) (m.h + n) := by
      intro hin
      obtain ⟨p, -, hp, hplt, he⟩ := Move.mem_span.1 hin
      have := Move.seg_inj hroute hplt hlt he
      omega
    have hgrant : (s.granted m n).grantable m.token (m.seg i) = s.grantable m.token (m.seg i) := by
      unfold State.grantable
      rw [State.granted_seg?]
      cases s.seg? (m.seg i) with
      | none => rfl
      | some r =>
        rw [Option.map_some, if_neg hout]
    rw [hgrant]
    rfl
  · rw [decide_eq_false hlt]
    rfl

/-- How far a visit goes (R44). -/
theorem State.reach_exists (s : State) (m : Move) :
    ∃ n, (∀ i, m.h < i → i ≤ m.h + n → s.mayExtend m i = true) ∧ s.mayExtend m (m.h + n + 1) = false := by
  have hend : ∃ n, s.mayExtend m (m.h + n + 1) = false := by
    refine ⟨m.route.length, Bool.eq_false_iff.2 fun hmay => ?_⟩
    obtain ⟨hlt, -⟩ := (s.mayExtend_iff _ _).1 hmay
    omega
  refine ⟨Nat.find hend, fun i hlo hhi => ?_, Nat.find_spec hend⟩
  have hmin := Nat.find_min hend (m := i - m.h - 1) (by omega)
  rw [show m.h + (i - m.h - 1) + 1 = i by omega, Bool.not_eq_false] at hmin
  exact hmin

/-- A visit is n grants, and what comes after them (R44, R45). -/
theorem State.visit_granted (hrun : s.RunLaw) (hmode : s.mode = .running) (hpass : s.arbiter.pass = some (k :: rest))
    (hcheck : s.arbiter.check = none) (hm : s.move? k = some m) (helig : m.eligible = true) (hyield : m.yield = .clear) :
    ∀ n, n ≤ 36 → (∀ i, m.h < i → i ≤ m.h + n → s.mayExtend m i = true) →
      s.visit = State.finishVisit (36 - n) (s.granted m n).request := by
  obtain ⟨hslot, hmem⟩ := State.move?_some hm
  obtain ⟨hroute, ⟨-, hfh, -⟩, -⟩ := hrun.of_move hm
  obtain ⟨-, hslots, -⟩ := hrun
  intro n
  induction n with
  | zero =>
    intro _ _
    rw [State.granted_zero (List.nodup_append.1 hslots).1 hmem]
    rfl
  | succ n ih =>
    intro hle hmay
    have hnext := hmay (m.h + n + 1) (by omega) (by omega)
    obtain ⟨-, -, -, -, hh, -, hstate, hyield'⟩ := m.reached_kept s.silenceFull n
    have hmay' : (s.granted m n).mayExtend (m.reached s.silenceFull n) ((m.reached s.silenceFull n).h + 1) = true := by
      rw [hh, State.granted_mayExtend hroute.nodup (Nat.lt_succ_self _), hnext]
    have helig' : (m.reached s.silenceFull n).eligible = true := by
      rw [Move.eligible, hstate]
      exact helig
    have hreq : (s.granted m n).request = s.granted m (n + 1) := by
      rw [State.request_grants (s := s.granted m n) hmode hpass hcheck (State.granted_move hm n) helig'
        (hyield'.trans hyield) hmay', State.granted_grantNext hmode hfh ((s.mayExtend_iff _ _).1 hnext).1]
    have hmid : (s.granted m (n + 1)).midVisit = true := by
      have hpass' : (s.granted m (n + 1)).arbiter.pass = some (k :: rest) := hpass
      rw [State.midVisit, hpass']
      dsimp only
      rw [State.granted_move hm (n + 1), Move.reached, if_neg (Nat.succ_ne_zero n), Option.any_some, Bool.or_true]
    rw [ih (by omega) fun i hlo hhi => hmay i hlo (by omega), hreq, show 36 - n = 36 - (n + 1) + 1 by omega,
      State.finishVisit_next _ _ hmid]

end visit

end Sys2Proof.Machine
end


section
/-!
PROOFS. How a visit settles its move, with the join or the check it brings (R46, R47, R55).
-/

open Sys2Proof Sys2Proof.Machine

namespace Sys2Proof.Machine

/-! ### A join to a berth list (R47, R67) -/

section join
variable {s : State} {l : LaneIx} {b j : BerthIx} {k : SlotIx} {ln : Lane}

theorem State.startRound_frame (s : State) (l : LaneIx) : ∃ lanes, s.startRound l = { s with lanes := lanes } := by
  unfold State.startRound
  split
  · exact ⟨_, rfl⟩
  · exact ⟨_, rfl⟩

theorem State.joinList_frame (s : State) (l : LaneIx) (b : BerthIx) (k : SlotIx) :
    ∃ lanes, s.joinList l b k = { s with lanes := lanes } := by
  unfold State.joinList
  dsimp only
  split
  · obtain ⟨lanes, h⟩ := (s.updateLane l fun ln => { ln with lists := ln.lists.set b (ln.lists[b] ++ [k]) }).startRound_frame l
    exact ⟨lanes, h⟩
  · exact ⟨_, rfl⟩

theorem State.joinList_kept (hln : ln = { s.lanes[l] with lists := s.lanes[l].lists.set b (s.lanes[l].lists[b] ++ [k]) })
    (h : s.lanes[l].state ≠ .quiet) : (s.joinList l b k).lanes = s.lanes.set l ln := by
  subst hln
  unfold State.joinList
  rw [if_neg h]
  rfl

theorem State.joinList_starts (hln : ln = { s.lanes[l] with lists := s.lanes[l].lists.set b (s.lanes[l].lists[b] ++ [k]) })
    (hmode : s.mode = .running) (h : s.lanes[l].state = .quiet) (hj : ln.nextBerth 0 = some j) :
    (s.joinList l b k).lanes = s.lanes.set l { ln with
      state := .offering, berth := j, offered := true, crossed := false, runCounter := 0
      offerTimer := .running (s.offerFull l) } := by
  subst hln
  have hnext : (s.updateLane l fun ln => { ln with lists := ln.lists.set b (ln.lists[b] ++ [k]) }).lanes[l].nextBerth 0 = some j := by
    rw [State.updateLane_get_same]
    exact hj
  unfold State.joinList
  rw [if_pos h, State.startRound_of_some _ l hnext, State.updateLane_updateLane]
  refine congrArg (s.lanes.set l) ?_
  dsimp only [State.offering]
  rw [State.startTimer_running (s := s.updateLane l _) hmode]
  rfl

end join

/-! ### The state of Table 3.2 (R46) -/

section settle
variable {s v : State} {k : SlotIx} {l : LaneIx} {b : BerthIx} {rest : List SlotIx} {m : Move}

/-- The states of Table 3.2, and where a settled move waits: on its front. -/
theorem State.tableState_cases (s : State) (m : Move) : s.tableState m = .moving
    ∨ (s.tableState m = .laneWait ∧ ¬m.f < m.h) ∨ (s.tableState m = .blocked ∧ ¬m.f < m.h) := by
  unfold State.tableState
  split
  · exact .inl rfl
  · split
    · split
      · rename_i h
        exact .inr (.inl ⟨rfl, by omega⟩)
      · exact .inl rfl
    · split
      · exact .inl rfl
      · rename_i h
        exact .inr (.inr ⟨rfl, h⟩)

theorem State.settleVisit_moving (h : s.tableState m = .moving) :
    s.settleVisit m = s.updateMove m.slot fun x => { x with state := .moving, extending := false } := by
  rw [State.settleVisit, h]

theorem State.settleVisit_strays (h : s.tableState m = .laneWait) (hb : s.berthOf (m.seg m.h) = none) :
    s.settleVisit m = s.updateMove m.slot fun x => { x with state := .laneWait, extending := false } := by
  rw [State.settleVisit, h]
  dsimp only
  rw [State.joinBerth, State.updateMove_berthOf_look, hb]

theorem State.settleVisit_joins (h : s.tableState m = .laneWait) (hb : s.berthOf (m.seg m.h) = some (l, b)) :
    s.settleVisit m
      = (s.updateMove m.slot fun x => { x with state := .laneWait, extending := false, lane := some l }).joinList l b m.slot := by
  rw [State.settleVisit, h]
  dsimp only
  rw [State.joinBerth, State.updateMove_berthOf_look, hb]
  dsimp only
  rw [State.updateMove_updateMove s m.slot (u := fun x => { x with state := .laneWait, extending := false })
    (w := fun x => { x with lane := some l }) fun _ => rfl]

theorem State.settleVisit_blocked (h : s.tableState m = .blocked) :
    s.settleVisit m
      = (s.updateMove m.slot fun x => { x with state := .blocked, extending := false }).beginCheck m := by
  rw [State.settleVisit, h]

/-- What settling leaves, and the check it begins. -/
theorem State.settleVisit_shape (s : State) (m : Move) : ∃ (lanes : Vector Lane 4) (ℓ : Move → Option LaneIx), s.settleVisit m = { s with
    lanes := lanes
    moves := s.moves.map fun x =>
      if x.slot = m.slot then { x with state := s.tableState m, extending := false, lane := ℓ x } else x
    arbiter := { s.arbiter with
      check := if s.tableState m = .blocked then some ⟨[m.slot], m.seg (m.h + 1)⟩ else s.arbiter.check } } := by
  rcases s.tableState_cases m with h | ⟨h, -⟩ | ⟨h, -⟩
  · exact ⟨s.lanes, Move.lane, by rw [State.settleVisit_moving h, h]; rfl⟩
  · cases hb : s.berthOf (m.seg m.h) with
    | none => exact ⟨s.lanes, Move.lane, by rw [State.settleVisit_strays h hb, h]; rfl⟩
    | some at_ =>
      obtain ⟨l, b⟩ := at_
      obtain ⟨lanes, hlanes⟩ := State.joinList_frame
        (s.updateMove m.slot fun x => { x with state := .laneWait, extending := false, lane := some l }) l b m.slot
      exact ⟨lanes, fun _ => some l, by rw [State.settleVisit_joins h hb, hlanes, h]; rfl⟩
  · exact ⟨s.lanes, Move.lane, by rw [State.settleVisit_blocked h, h]; rfl⟩

end settle

end Sys2Proof.Machine
end


section
/-!
PROOFS. A whole visit: its grants, the settled state, the check after it (R44 to R47, R55 to R57).
-/

open Sys2Proof Sys2Proof.Machine

namespace Sys2Proof.Machine

/-! ### What the end of a check leaves (R56, R57, R60) -/

section conclude
variable {s : State} {k : SlotIx} {m : Move}

/-- A move that may not be shed is at most marked gridlocked. -/
theorem State.breakRing_kept (hslots : (s.moves.map (·.slot)).Nodup) (hm : s.move? k = some m)
    (hsafe : (m.f < m.h && !m.shed) = false) (ring : List SlotIx) :
    ∃ b, (s.breakRing ring).move? k = some { m with gridlocked := b } := by
  unfold State.breakRing
  dsimp only
  split
  · rename_i v hfind
    have hv : v ∈ s.moves := (State.mem_ringMembers.1 (List.mem_of_find?_eq_some hfind)).1
    have hne : k ≠ v.slot := by
      rintro rfl
      have hvm : v = m := Option.some.inj ((State.move?_of_mem hslots hv).symm.trans hm)
      have hshed := List.find?_some (p := fun m : Move => m.f < m.h && !m.shed) hfind
      rw [hvm] at hshed
      exact Bool.noConfusion (hsafe.symm.trans hshed)
    exact ⟨m.gridlocked, State.updateMove_move_other (s := s.restore v.slot)
      (w := fun x => { x with shed := true, yield := .beforePass, state := .blocked, silence := .stopped })
      (State.restore_move_other hm hne) hne fun _ => rfl⟩
  · rw [State.move?_of_map (s.reportRing_frame ring _).2.2 (fun x => by split <;> rfl), hm, Option.map_some]
    split
    · exact ⟨true, rfl⟩
    · exact ⟨m.gridlocked, rfl⟩

theorem State.breakRing_unheld (s : State) (ring : List SlotIx) :
    (s.breakRing ring).segs.map Segment.unheld = s.segs.map Segment.unheld := by
  unfold State.breakRing
  dsimp only
  split
  · rw [(s.shedMove_frame _ _).2.2]
    exact s.restore_unheld _
  · rw [(s.reportRing_frame ring _).2.1]

theorem State.concludeCheck_kept (hslots : (s.moves.map (·.slot)).Nodup) (hm : s.move? k = some m)
    (hsafe : (m.f < m.h && !m.shed) = false) : ∀ r, ∃ b, (s.concludeCheck r).move? k = some { m with gridlocked := b }
  | none => ⟨m.gridlocked, hm⟩
  | some ring => State.breakRing_kept (s := s.endCheck) hslots hm hsafe ring

theorem State.concludeCheck_unheld (s : State) : ∀ r, (s.concludeCheck r).segs.map Segment.unheld = s.segs.map Segment.unheld
  | none => rfl
  | some ring => s.endCheck.breakRing_unheld ring

theorem State.concludeCheck_arbiter (s : State) : ∀ r, (s.concludeCheck r).arbiter = { s.arbiter with check := none }
  | none => rfl
  | some ring => s.endCheck.breakRing_arbiter ring

end conclude

/-! ### A visit before the end of its pass -/

/-- State w is s after a visit of move m with n grants, but for the end of its pass (R44 to R47, R55 to R57). -/
structure State.Visited (s : State) (m : Move) (n : Nat) (rest : List SlotIx) (w : State) : Prop where
  arbiter : w.arbiter = { s.arbiter with pass := some rest, check := none }
  unheld : w.segs.map Segment.unheld = s.segs.map Segment.unheld
  held : ∀ i, m.h < i → i ≤ m.h + n → w.holder (m.seg i) = some m.slot
  move : ∃ b ℓ, w.move? m.slot = some { m.reached s.silenceFull n with
      state := s.tableState { m with h := m.h + n }, extending := false, gridlocked := b, lane := ℓ }
    ∧ (n ≠ 0 → b = false)
  others : ∀ i x, i ≠ m.slot → s.move? i = some x → (x.f < x.h && !x.shed) = false →
    ∃ b, w.move? i = some { x with gridlocked := b }
  joins : ∀ l b, s.berthOf (m.seg m.h) = some (l, b) → s.tableState { m with h := m.h + n } = .laneWait →
    ∀ ln : Lane, ln = { s.lanes[l] with lists := s.lanes[l].lists.set b (s.lanes[l].lists[b] ++ [m.slot]) } →
    (∃ m', w.move? m.slot = some m' ∧ m'.lane = some l)
    ∧ (s.lanes[l].state ≠ .quiet → w.lanes = s.lanes.set l ln)
    ∧ (∀ j, s.lanes[l].state = .quiet → ln.nextBerth 0 = some j →
        w.lanes = s.lanes.set l { ln with
          state := .offering, berth := j, offered := true, crossed := false, runCounter := 0
          offerTimer := .running (s.offerFull l) })

section visited
variable {s : State} {k : SlotIx} {rest : List SlotIx} {m : Move} {n : Nat}

theorem State.tableState_of_cells {v : State} (h : v.isCell = s.isCell) (m : Move) : v.tableState m = s.tableState m := by
  unfold State.tableState
  rw [h]

theorem State.granted_table (s : State) (m : Move) (n : Nat) :
    (s.granted m n).tableState (m.reached s.silenceFull n) = s.tableState { m with h := m.h + n } :=
  (State.tableState_of_cells (State.isCell_of_config (s.granted_config m n)) _).trans (s.reached_congr m _ n)

/-- The turn of the visited move is over, its grants made. -/
theorem State.granted_dropTurn (hpass : s.arbiter.pass = some (k :: rest)) (m : Move) (n : Nat) :
    (s.granted m n).dropTurn = { s.granted m n with arbiter := { s.arbiter with pass := some rest } } :=
  State.dropTurn_eq hpass

/-- A move settled LANE_WAIT joins the list of its berth (R47). -/
theorem State.settles_joined {v : State} {l : LaneIx} {b : BerthIx} (hmode : v.mode = .running) (hm : v.move? m.slot = some m)
    (hb : v.berthOf (m.seg m.h) = some (l, b)) (h : v.tableState m = .laneWait) {ln : Lane}
    (hln : ln = { v.lanes[l] with lists := v.lanes[l].lists.set b (v.lanes[l].lists[b] ++ [m.slot]) }) :
    (∃ m', (v.settleVisit m).move? m.slot = some m' ∧ m'.lane = some l)
    ∧ (v.lanes[l].state ≠ .quiet → (v.settleVisit m).lanes = v.lanes.set l ln)
    ∧ (∀ j, v.lanes[l].state = .quiet → ln.nextBerth 0 = some j →
        (v.settleVisit m).lanes = v.lanes.set l { ln with
          state := .offering, berth := j, offered := true, crossed := false, runCounter := 0
          offerTimer := .running (v.offerFull l) }) := by
  rw [State.settleVisit_joins h hb]
  refine ⟨?_, State.joinList_kept (s := v.updateMove m.slot _) hln,
    fun j => State.joinList_starts (s := v.updateMove m.slot _) hln hmode⟩
  obtain ⟨lanes, hframe⟩ := State.joinList_frame
    (v.updateMove m.slot fun x => { x with state := .laneWait, extending := false, lane := some l }) l b m.slot
  rw [hframe]
  exact ⟨_, State.updateMove_move (w := fun x => { x with state := .laneWait, extending := false, lane := some l }) hm
    fun _ => rfl, rfl⟩

/-- A visit that does not settle its move BLOCKED. -/
theorem State.visited_settled (hrun : s.RunLaw) (hmode : s.mode = .running) (hpass : s.arbiter.pass = some (k :: rest))
    (hcheck : s.arbiter.check = none) (hm : s.move? k = some m)
    (hmay : ∀ i, m.h < i → i ≤ m.h + n → s.mayExtend m i = true)
    (htable : s.tableState { m with h := m.h + n } ≠ .blocked) :
    s.Visited m n rest ((s.granted m n).dropTurn.settleVisit (m.reached s.silenceFull n)) := by
  obtain ⟨hslot, hmem⟩ := State.move?_some hm
  obtain ⟨-, ⟨-, hfh, -⟩, -⟩ := hrun.of_move hm
  obtain ⟨-, hslots, -⟩ := hrun
  have hdrop := State.granted_dropTurn hpass m n
  have htab : (s.granted m n).dropTurn.tableState (m.reached s.silenceFull n) = s.tableState { m with h := m.h + n } := by
    rw [hdrop]
    exact s.granted_table m n
  obtain ⟨lanes, ℓ, hshape⟩ := (s.granted m n).dropTurn.settleVisit_shape (m.reached s.silenceFull n)
  rw [htab, if_neg htable, Move.reached_slot] at hshape
  have hlook : ∀ i, ((s.granted m n).dropTurn.settleVisit (m.reached s.silenceFull n)).move? i
      = ((s.granted m n).move? i).map fun x =>
        if x.slot = m.slot then { x with state := s.tableState { m with h := m.h + n }, extending := false, lane := ℓ x } else x := by
    intro i
    refine State.move?_of_map (s := s.granted m n) ?_ (fun x => by split <;> rfl) i
    rw [hshape, hdrop]
  have hsegs : ((s.granted m n).dropTurn.settleVisit (m.reached s.silenceFull n)).segs = (s.granted m n).segs := by
    rw [hshape, hdrop]
  refine ⟨?_, ?_, fun i hlo hhi => ?_, ?_, fun i x hi hx _ => ⟨x.gridlocked, ?_⟩, fun l b hb hlane ln hln => ?_⟩
  · rw [hshape, hdrop]
    show ({ s.arbiter with pass := some rest, check := s.arbiter.check } : Arbiter) = _
    rw [hcheck]
  · rw [hsegs]
    exact s.granted_unheld m n
  · obtain ⟨hlt, -, -, hfree⟩ := (s.mayExtend_iff _ _).1 (hmay i hlo hhi)
    rw [State.holder, State.seg?, hsegs]
    exact State.granted_holder (Move.mem_span.2 ⟨i, hlo, hhi, hlt, rfl⟩) (State.seg?_of_grantable hfree)
  · refine ⟨(m.reached s.silenceFull n).gridlocked, ℓ (m.reached s.silenceFull n), ?_, fun hn => ?_⟩
    · rw [hlook, hslot, State.granted_move hm, Option.map_some, if_pos ((m.reached_slot _ _).trans hslot)]
    · rw [Move.reached, if_neg hn]
  · rw [hlook, State.granted_move_other hx hi, Option.map_some, if_neg fun he => hi ((State.move?_some hx).1.symm.trans he)]
  · have hn : n = 0 := by
      rcases s.tableState_cases { m with h := m.h + n } with h | ⟨-, h⟩ | ⟨-, h⟩
      · rw [h] at hlane
        cases hlane
      all_goals
        have hge : m.h + n ≤ m.f := Nat.not_lt.1 h
        omega
    subst hn
    rw [hdrop, State.granted_zero (List.nodup_append.1 hslots).1 hmem]
    exact State.settles_joined (v := { s with arbiter := { s.arbiter with pass := some rest } }) hmode (hslot ▸ hm) hb hlane hln

/-- A visit that settles its move BLOCKED grants nothing. -/
theorem State.visited_blocked (hrun : s.RunLaw) (hm : s.move? k = some m) (htable : s.tableState m = .blocked)
    (hfront : ¬m.f < m.h) (g : Nat) (r : Option (List SlotIx)) :
    s.Visited m 0 rest ((s.blockedTurn k rest g).concludeCheck r) := by
  obtain ⟨hslot, -⟩ := State.move?_some hm
  obtain ⟨-, hslots, -⟩ := hrun
  have hslots : ((s.blockedTurn k rest g).moves.map (·.slot)).Nodup :=
    (List.nodup_append.1 (State.blockedTurn_slots hslots g)).1
  refine ⟨State.concludeCheck_arbiter _ r, State.concludeCheck_unheld _ r, fun i hlo hhi => by omega, ?_,
    fun i x hi hx hsafe => ?_, fun l b _ hlane => ?_⟩
  · obtain ⟨b, hb⟩ := State.concludeCheck_kept hslots (State.blockedTurn_move hm g) (by simp [hfront]) r
    refine ⟨b, m.lane, ?_, fun h => absurd rfl h⟩
    have htab : s.tableState { m with h := m.h + 0 } = .blocked := htable
    rw [htab, hslot]
    exact hb
  · rw [hslot] at hi
    exact State.concludeCheck_kept hslots (State.updateMove_move_other (s := s)
      (w := fun x => { x with state := .blocked, extending := false }) hx hi fun _ => rfl) hsafe r
  · have htab : s.tableState { m with h := m.h + 0 } = .blocked := htable
    rw [htab] at hlane
    cases hlane

end visited

end Sys2Proof.Machine
end


section
/-!
PROOFS. A visit grants every position in reach and settles its move (R42 to R47, R50, R58).
-/

open Sys2Proof Sys2Proof.Machine

namespace Sys2Proof.Machine

section visit
variable {s t w : State} {k : SlotIx} {rest : List SlotIx} {m : Move} {n : Nat}

theorem State.settled_still (hvisit : s.VisitLaw) (hpass : s.arbiter.pass = some (k :: rest)) (hm : s.move? k = some m) (n : Nat) :
    ((s.granted m n).dropTurn.settleVisit (m.reached s.silenceFull n)).Still := by
  obtain ⟨hslot, -⟩ := State.move?_some hm
  obtain ⟨lanes, ℓ, hshape⟩ := (s.granted m n).dropTurn.settleVisit_shape (m.reached s.silenceFull n)
  intro x hx
  rw [hshape, State.granted_dropTurn hpass, Move.reached_slot] at hx
  obtain ⟨y, hy, rfl⟩ := List.mem_map.1 hx
  by_cases hk : y.slot = m.slot
  · rw [if_pos hk]
  · rw [if_neg hk]
    obtain ⟨z, hz, rfl⟩ := List.mem_map.1 hy
    by_cases hzk : z.slot = m.slot
    · rw [if_pos hzk, Move.reached_slot] at hk
      exact absurd rfl hk
    · rw [if_neg hzk]
      exact State.VisitLaw.not_extending hvisit hpass hz (hslot ▸ hzk)

theorem State.Visited.closes (h : s.Visited m n rest w) : w.Closes w.closePass :=
  State.closePass_closes (by rw [h.arbiter])

/-- The whole visit of an eligible move whose turn it is (R44 to R47, R55 to R57). -/
theorem State.visit_visited (hrun : s.RunLaw) (hvisit : s.VisitLaw) (hmode : s.mode = .running)
    (hpass : s.arbiter.pass = some (k :: rest)) (hcheck : s.arbiter.check = none) (hm : s.move? k = some m)
    (helig : m.eligible = true) (hyield : m.yield = .clear) :
    ∃ n w, (∀ i, m.h < i → i ≤ m.h + n → s.mayExtend m i = true) ∧ s.mayExtend m (m.h + n + 1) = false
      ∧ s.visit = w.closePass ∧ s.Visited m n rest w := by
  obtain ⟨hroute, ⟨-, hfh, -⟩, -⟩ := hrun.of_move hm
  obtain ⟨-, hlen, -⟩ := hroute.bounds
  obtain ⟨n, hmay, hno⟩ := s.reach_exists m
  have hn : n ≤ 36 := by
    by_contra hlong
    have hlt := ((s.mayExtend_iff _ _).1 (hmay (m.h + n) (by omega) le_rfl)).1
    omega
  refine ⟨n, ?_⟩
  by_cases htable : s.tableState { m with h := m.h + n } = .blocked
  · obtain ⟨hzero, hfront⟩ : n = 0 ∧ ¬m.f < m.h := by
      rcases s.tableState_cases { m with h := m.h + n } with h | ⟨h, -⟩ | ⟨-, h⟩
      · rw [h] at htable
        cases htable
      · rw [h] at htable
        cases htable
      · have hge : m.h + n ≤ m.f := Nat.not_lt.1 h
        omega
    subst hzero
    exact ⟨_, hmay, hno, State.visit_blocked hvisit hmode hpass hcheck hm helig hyield hno htable,
      State.visited_blocked hrun hm htable hfront _ _⟩
  · have hsettled := State.visited_settled hrun hmode hpass hcheck hm hmay htable
    obtain ⟨-, -, -, -, hh, -, hstate, hyield'⟩ := m.reached_kept s.silenceFull n
    have helig' : (m.reached s.silenceFull n).eligible = true := by
      rw [Move.eligible, hstate]
      exact helig
    have hno' : (s.granted m n).mayExtend (m.reached s.silenceFull n) ((m.reached s.silenceFull n).h + 1) = false := by
      rw [hh, State.granted_mayExtend hroute.nodup (Nat.lt_succ_self _), hno]
    refine ⟨_, hmay, hno, ?_, hsettled⟩
    rw [State.visit_granted hrun hmode hpass hcheck hm helig hyield n hn hmay,
      State.request_settles (s := s.granted m n) hmode hpass hcheck (State.granted_move hm n) helig' (hyield'.trans hyield) hno']
    exact State.finishVisit_over _ _ ((hsettled.closes.still (State.settled_still hvisit hpass hm n)).over hsettled.closes.check)

end visit

end Sys2Proof.Machine
end


section
/-!
PROOFS. What a visit does, whole and request by request, and the pass that ends with it (R42 to R47, R50, R58).
-/

open Sys2Proof Sys2Proof.Machine

namespace Sys2Proof.Machine

section visit
variable {s t w : State} {k : SlotIx} {rest : List SlotIx} {m : Move} {n : Nat}

/-- The record of segments but for the holds is kept. -/
theorem map_places_of_unheld {a b : List Segment} (h : a.map Segment.unheld = b.map Segment.unheld) :
    a.map (fun r => (r.surveyed, r.fence, r.occupant)) = b.map fun r => (r.surveyed, r.fence, r.occupant) := by
  have hmap := congrArg (List.map fun r : Segment => (r.surveyed, r.fence, r.occupant)) h
  rwa [List.map_map, List.map_map] at hmap

theorem State.Visited.pass_kept (h : s.Visited m n rest w) (hrest : rest ≠ []) : w.closePass.arbiter.pass = some rest := by
  rw [State.closePass_open]
  · rw [h.arbiter]
  · rw [h.arbiter]
    exact fun he => hrest (Option.some.inj he)

/-! ### The whole visit -/

theorem State.exec_visit_extends (hrun : s.RunLaw) (hvisit : s.VisitLaw) (hmode : s.mode = .running)
    (hpass : s.arbiter.pass = some (k :: rest)) (hcheck : s.arbiter.check = none) (hm : s.move? k = some m)
    (helig : m.eligible = true) (hyield : m.yield = .clear) :
    ∃ t n, exec .extensionVisit s = .next t
      ∧ (∀ i, m.h < i → i ≤ m.h + n → s.mayExtend m i = true) ∧ s.mayExtend m (m.h + n + 1) = false
      ∧ (∃ m', t.move? k = some m' ∧ m'.h = m.h + n ∧ m'.t = m.t ∧ m'.f = m.f ∧ m'.route = m.route
          ∧ m'.stack
            = (if n = 0 then m.stack else if m.extending = true then addTop n m.stack else pushEntry n m.stack)
          ∧ m'.state = s.tableState { m with h := m.h + n } ∧ m'.extending = false
          ∧ (n ≠ 0 → m.h = m.f → m'.silence = .running s.silenceFull) ∧ (n ≠ 0 → m'.gridlocked = false))
      ∧ (∀ i, m.h < i → i ≤ m.h + n → t.holder (m.seg i) = some k)
      ∧ (rest ≠ [] → t.arbiter.pass = some rest) ∧ t.arbiter.check = none
      ∧ t.orders = s.orders ∧ t.queue = s.queue ∧ t.tokens = s.tokens ∧ t.mem = s.mem ∧ t.reports = s.reports
      ∧ t.enable = s.enable ∧ t.mode = s.mode ∧ s.SameFrame t
      ∧ t.segs.map (fun r => (r.surveyed, r.fence, r.occupant))
          = s.segs.map (fun r => (r.surveyed, r.fence, r.occupant))
      ∧ (∀ l b, s.berthOf (m.seg m.h) = some (l, b) → s.tableState { m with h := m.h + n } = .laneWait →
          ∀ ln : Lane, ln = { s.lanes[l] with lists := s.lanes[l].lists.set b (s.lanes[l].lists[b] ++ [k]) } →
          (∃ m', t.move? k = some m' ∧ m'.lane = some l)
          ∧ (s.lanes[l].state ≠ .quiet → t.lanes = s.lanes.set l ln)
          ∧ (∀ j, s.lanes[l].state = .quiet → ln.nextBerth 0 = some j →
              t.lanes = s.lanes.set l { ln with
                state := .offering, berth := j, offered := true, crossed := false, runCounter := 0
                offerTimer := .running (s.offerFull l) })) := by
  obtain ⟨hslot, -⟩ := State.move?_some hm
  subst hslot
  obtain ⟨n, w, hmay, hno, hvisited, hw⟩ := State.visit_visited hrun hvisit hmode hpass hcheck hm helig hyield
  have hcloses := hw.closes.announce s
  have hsteady := (State.announce_steady s s.visit).after s.visit_steady
  rw [hvisited] at hsteady
  obtain ⟨hpassed, -, -⟩ := State.announce_asks_pass s w.closePass
  obtain ⟨-, ht, hf, hroute, hh, -⟩ := m.reached_kept s.silenceFull n
  obtain ⟨b, ℓ, hmove, hfree⟩ := hw.move
  obtain ⟨y, hy, -⟩ := hcloses.move hmove
  refine ⟨_, n, congrArg (fun x => Host.Outcome.next (s.announce x)) hvisited, hmay, hno,
    ⟨_, hy, hh, ht, hf, hroute, ?_, rfl, rfl, fun hn hfront => ?_, hfree⟩, fun i hlo hhi => ?_,
    fun hrest => hpassed.trans (hw.pass_kept hrest), hcloses.check, hsteady.orders, hsteady.queue, hsteady.tokens, hsteady.mem,
    hsteady.reports, hsteady.enable, hsteady.mode, hsteady.toKept.sameFrame, ?_, fun l b hb hlane ln hln => ?_⟩
  · show (m.reached s.silenceFull n).stack = _
    unfold Move.reached
    split <;> rfl
  · show (m.reached s.silenceFull n).silence = _
    rw [Move.reached, if_neg hn]
    exact if_pos hfront
  · rw [hcloses.holder]
    exact hw.held i hlo hhi
  · rw [hcloses.segs]
    exact map_places_of_unheld hw.unheld
  · obtain ⟨⟨m', hm', hlane'⟩, hkept, hstarts⟩ := hw.joins l b hb hlane ln hln
    obtain ⟨y, hy, -⟩ := hcloses.move hm'
    rw [hcloses.lanes]
    exact ⟨⟨_, hy, hlane'⟩, hkept, hstarts⟩

/-! ### The requests of a visit as steps of the part's own -/

theorem State.requestStep_grants (hrun : s.RunLaw) (hmode : s.mode = .running) (hpass : s.arbiter.pass = some (k :: rest))
    (hcheck : s.arbiter.check = none) (hm : s.move? k = some m) (helig : m.eligible = true) (hyield : m.yield = .clear)
    (hmay : s.mayExtend m (m.h + 1) = true) :
    ∃ t, s.requestStep = .next t
      ∧ t = { s with
          segs := s.segs.map fun (g : Segment) =>
            if g.id = m.seg (m.h + 1) then { g with holder := some k } else g
          moves := s.moves.map fun (x : Move) =>
            if x.slot = k then
              { x with
                stack := if x.extending = true then addTop 1 x.stack else pushEntry 1 x.stack
                h := x.h + 1
                gridlocked := false
                extending := true
                silence := if x.h = x.f then .running s.silenceFull else x.silence }
            else x }
      ∧ t.holder (m.seg (m.h + 1)) = some k ∧ t.authority k = .go (m.h + 1) (m.seg (m.h + 1)) := by
  obtain ⟨hslot, hmem⟩ := State.move?_some hm
  subst hslot
  obtain ⟨hroute, ⟨-, hfh, -⟩, -⟩ := hrun.of_move hm
  obtain ⟨-, hslots, -⟩ := hrun
  have hslots := (List.nodup_append.1 hslots).1
  obtain ⟨hlt, -, -, hfree⟩ := (s.mayExtend_iff _ _).1 hmay
  have hone : s.grantNext m = s.granted m 1 := by
    have hnext := State.granted_grantNext (s := s) (m := m) (n := 0) hmode hfh hlt
    rwa [State.granted_zero hslots hmem] at hnext
  refine ⟨s.granted m 1, ?_, ?_, ?_, ?_⟩
  · rw [State.requestStep, State.request_grants hmode hpass hcheck hm helig hyield hmay, hone]
    exact congrArg Host.Outcome.next (State.announce_of_none (announced_hold s.segs _ m.slot))
  · have hmoves : (s.granted m 1).moves = s.moves.map fun (x : Move) => if x.slot = m.slot then
        { x with
          stack := if x.extending = true then addTop 1 x.stack else pushEntry 1 x.stack
          h := x.h + 1
          gridlocked := false
          extending := true
          silence := if x.h = x.f then .running s.silenceFull else x.silence }
        else x := by
      refine List.map_congr_left fun x hx => ?_
      by_cases hk : x.slot = m.slot
      · rw [if_pos hk, if_pos hk, List.inj_on_of_nodup_map hslots hx hmem hk]
        rfl
      · rw [if_neg hk, if_neg hk]
    have hsegs : (s.granted m 1).segs
        = s.segs.map fun g => if g.id = m.seg (m.h + 1) then { g with holder := some m.slot } else g := by
      show (s.segs.map fun g => if g.id ∈ m.span (m.h + 1) (m.h + 1) then { g with holder := some m.slot } else g) = _
      rw [Move.span_one hlt]
      simp only [List.mem_singleton]
    rw [← hmoves, ← hsegs]
    rfl
  · exact State.granted_holder (Move.mem_span.2 ⟨m.h + 1, le_rfl, le_rfl, hlt, rfl⟩) (State.seg?_of_grantable hfree)
  · have hmove := State.granted_move hm 1
    have hstate : (m.reached s.silenceFull 1).state = m.state := rfl
    have hmode' : (s.granted m 1).mode = .running := hmode
    rw [State.authority, State.link_of_move hmove]
    dsimp only
    rw [hmode', Move.authority_running, Move.reached_seg, Move.reached_h]
    all_goals
      intro he
      rw [Move.eligible, ← hstate, he] at helig
      exact absurd helig (by decide)

theorem State.requestStep_settles (hmode : s.mode = .running) (hpass : s.arbiter.pass = some (k :: rest))
    (hcheck : s.arbiter.check = none) (hm : s.move? k = some m) (helig : m.eligible = true) (hyield : m.yield = .clear)
    (hno : s.mayExtend m (m.h + 1) = false) :
    ∃ t, s.requestStep = .next t
      ∧ t.segs = s.segs ∧ t.gridlock = s.gridlock ∧ (rest ≠ [] → t.arbiter.pass = some rest)
      ∧ (∃ m', t.move? k = some m' ∧ m'.h = m.h ∧ m'.f = m.f ∧ m'.stack = m.stack ∧ m'.silence = m.silence
          ∧ m'.state = s.tableState m ∧ m'.extending = false)
      ∧ t.arbiter.check = (if s.tableState m = .blocked then some ⟨[k], m.seg (m.h + 1)⟩ else none) := by
  obtain ⟨hslot, -⟩ := State.move?_some hm
  subst hslot
  obtain ⟨lanes, ℓ, hshape⟩ := s.dropTurn.settleVisit_shape m
  have hdrop := State.dropTurn_eq hpass
  have htab : s.dropTurn.tableState m = s.tableState m := by rw [hdrop]; rfl
  rw [htab, hdrop] at hshape
  rw [State.requestStep, State.request_settles hmode hpass hcheck hm helig hyield hno, hdrop]
  generalize { s with arbiter := { s.arbiter with pass := some rest } }.settleVisit m = w at hshape ⊢
  have hlook : w.move? m.slot = some { m with state := s.tableState m, extending := false, lane := ℓ m } := by
    rw [State.move?_of_map (s := s) (v := w) (by rw [hshape]) (fun x => by split <;> rfl), hm, Option.map_some, if_pos rfl]
  have hsegs : w.segs = s.segs := by rw [hshape]
  have hgridlock : w.gridlock = s.gridlock := by rw [hshape]
  have hpassed : w.arbiter.pass = some rest := by rw [hshape]
  have hchecked : w.arbiter.check = if s.tableState m = .blocked then some ⟨[m.slot], m.seg (m.h + 1)⟩ else none := by
    rw [hshape]
    dsimp only
    rw [hcheck]
  refine ⟨_, rfl, ?_⟩
  by_cases hblocked : s.tableState m = .blocked
  · rw [if_pos hblocked] at hchecked ⊢
    rw [State.closePass_checking (by rw [hchecked]; exact Option.some_ne_none _), State.announce_of_same_segs hsegs]
    exact ⟨hsegs, hgridlock, fun _ => hpassed, ⟨_, hlook, rfl, rfl, rfl, rfl, rfl, rfl⟩, hchecked⟩
  · rw [if_neg hblocked] at hchecked ⊢
    have hcloses := (State.closePass_closes hchecked).announce s
    obtain ⟨y, hy, -⟩ := hcloses.move hlook
    refine ⟨hcloses.segs.trans hsegs, hcloses.gridlock.trans hgridlock, fun hrest => ?_,
      ⟨_, hy, rfl, rfl, rfl, rfl, rfl, rfl⟩, hcloses.check⟩
    rw [(s.announce_asks_pass _).1, State.closePass_open]
    · exact hpassed
    · rw [hpassed]
      exact fun he => hrest (Option.some.inj he)

/-! ### The end of the pass (R41, R42, R58) -/

theorem Yield.onPassEnd_ne (y : Yield) : y.onPassEnd ≠ .inPass := by
  cases y <;> exact Yield.noConfusion

/-- A pass that ends clears the marks of the pass, which asks for another. -/
theorem State.endPass_ends (hmode : w.mode = .running) (before : State) :
    (before.announce w.endPass).arbiter.pass = none ∧ (∀ m ∈ (before.announce w.endPass).moves, m.yield ≠ .inPass)
    ∧ ((w.arbiter.further = true ∨ ∃ m ∈ w.moves, m.yield = .inPass) → (before.announce w.endPass).arbiter.due = true) := by
  obtain ⟨hpass, -, hdue⟩ := State.announce_asks_pass before w.endPass
  obtain ⟨-, -, hmoves, -⟩ := before.announced_fields w.endPass
  have hend := State.endPass_running hmode
  refine ⟨?_, fun m hm => ?_, fun hasked => hdue ?_⟩
  · rw [hpass, hend]
  · rw [hmoves, hend] at hm
    obtain ⟨y, -, rfl⟩ := List.mem_map.1 hm
    exact y.yield.onPassEnd_ne
  · rw [hend]
    dsimp only
    rcases hasked with hfurther | ⟨m, hm, hy⟩
    · rw [hfurther, Bool.or_true, Bool.true_or]
    · rw [List.any_eq_true.2 ⟨m, hm, decide_eq_true hy⟩, Bool.or_true]

/-- The visit of the last turn of a pass (R42, R58). -/
theorem State.exec_visit_ends (hrun : s.RunLaw) (harb : s.ArbiterLaw) (hmode : s.mode = .running)
    (hpass : s.arbiter.pass = some [k]) (hcheck : s.arbiter.check = none) (ht : exec .extensionVisit s = .next t) :
    t.arbiter.pass = none ∧ (∀ m ∈ t.moves, m.yield ≠ .inPass)
    ∧ ((s.arbiter.further = true ∨ ∃ m ∈ s.moves, m.yield = .inPass) → t.arbiter.due = true) := by
  obtain ⟨hyields, hvisit, -⟩ := harb
  by_cases hvisited : ∃ m, s.move? k = some m ∧ m.eligible = true ∧ m.yield = .clear
  · obtain ⟨m, hm, helig, hyield⟩ := hvisited
    obtain ⟨n, w, -, -, hv, hw⟩ := State.visit_visited hrun hvisit hmode hpass hcheck hm helig hyield
    have hover : s.visit = w.endPass := hv.trans (State.closePass_over (by rw [hw.arbiter]) (by rw [hw.arbiter]))
    have hmode' : w.mode = .running := by
      rw [← w.closePass_steady.mode, ← hv, s.visit_steady.mode, hmode]
    have hts : t = s.announce w.endPass := by
      rw [← hover]
      exact (Host.Outcome.next.inj ht).symm
    rw [hts]
    obtain ⟨hnone, hclear, hdue⟩ := State.endPass_ends hmode' s
    refine ⟨hnone, hclear, fun hasked => hdue ?_⟩
    rcases hasked with hfurther | ⟨x, hx, hxy⟩
    · rw [hw.arbiter]
      exact .inl hfurther
    · obtain ⟨-, hslots, -⟩ := hrun
      have hslots := (List.nodup_append.1 hslots).1
      have hne : x.slot ≠ m.slot := by
        intro he
        rw [List.inj_on_of_nodup_map hslots hx (State.move?_some hm).2 he, hyield] at hxy
        cases hxy
      obtain ⟨hshed, -⟩ := hyields x hx (by rw [hxy]; exact Yield.noConfusion)
      obtain ⟨b, hb⟩ := hw.others x.slot x hne (State.move?_of_mem hslots hx) (by rw [hshed]; exact Bool.and_false _)
      exact .inr ⟨_, (State.move?_some hb).2, hxy⟩
  · rw [State.exec_visit_last hmode hpass hcheck (.inr ⟨k, rfl, fun m hm => ?_⟩)] at ht
    · rw [← Host.Outcome.next.inj ht]
      refine ⟨rfl, fun m hm => ?_, fun hasked => ?_⟩
      · obtain ⟨y, -, rfl⟩ := List.mem_map.1 hm
        rw [← y.onPassEnd_eq]
        exact y.yield.onPassEnd_ne
      · rcases hasked with hfurther | ⟨x, hx, hxy⟩
        · rw [hfurther, Bool.or_true, Bool.true_or]
        · rw [List.any_eq_true.2 ⟨x, hx, decide_eq_true hxy⟩, Bool.or_true]
    · by_contra hc
      rw [not_or, Bool.not_eq_false, not_not] at hc
      exact hvisited ⟨m, hm, hc⟩

/-- Settles O44: the whole visit from its grants and its settled state; its requests, the turns passed over and the end of
the pass each from the request that makes them. -/
theorem extensionVisitExtendsOneMove : Obligations.ExtensionVisitExtendsOneMove := by
  refine ⟨fun s k rest m hrun harb hmode hpass hcheck hm helig hyield => ⟨?_, fun hmay => ?_, fun hno => ?_⟩,
    fun s k rest harb hmode hpass hcheck hrest hover => ?_, fun s p hpass hmode hcheck hp => ?_,
    fun s p hpass hmode => ?_, fun s t k hrun harb hmode hpass hcheck ht => ?_⟩
  · obtain ⟨-, hvisit, -⟩ := harb
    exact State.exec_visit_extends hrun hvisit hmode hpass hcheck hm helig hyield
  · exact State.requestStep_grants hrun hmode hpass hcheck hm helig hyield hmay
  · exact State.requestStep_settles hmode hpass hcheck hm helig hyield hno
  · exact State.exec_visit_passed harb hmode hpass hcheck hrest hover
  · exact State.exec_visit_last hmode hpass hcheck hp
  · exact State.exec_visit_halted hmode hpass
  · exact State.exec_visit_ends hrun harb hmode hpass hcheck ht

end visit

end Sys2Proof.Machine
end


section
/-!
PROOFS. The laws of the lanes move by move and lane by lane (R47, R49, R64, R66, R71, R73, R77, R78), so that a change of
one move and one lane is judged by them alone.
-/

open Sys2Proof Sys2Proof.Machine

namespace Sys2Proof.Machine

/-! ### One move and one lane -/

/-- What the laws of the lanes and of the arbiter read of a move. -/
abbrev Move.face (m : Move) : SlotIx × Nat × List Nat × (Nat × Nat × Nat) × MoveState × Option LaneIx × Bool × Yield × Bool :=
  (m.slot, m.bench, m.route, (m.t, m.f, m.h), m.state, m.lane, m.shed, m.yield, m.extending)

/-- What they read of a lane, but for its release timer. -/
abbrev Lane.face (ln : Lane) : LaneState × BerthIx × Option CrossingRecord × Vector (List SlotIx) 8 :=
  (ln.state, ln.berth, ln.crossing, ln.lists)

/-- The laws of the lanes hold of one lane if they hold of the other: the faces agree, and no release timer starts. -/
structure Lane.Like (ln' ln : Lane) : Prop where
  face : ln'.face = ln.face
  release : ln.releaseTimer = .stopped → ln'.releaseTimer = .stopped

/-- A move waits for a crossing at berth b of lane l (R47). -/
structure State.Waits (s : State) (m : Move) (l : LaneIx) (b : BerthIx) : Prop where
  state : m.state = .laneWait
  lane : m.lane = some l
  front : m.h = m.f
  berth : s.AtBerth m l b

/-- A move is the crossing move of lane l, which has berth b (R64, R71, R73, R78). -/
structure State.Crosses (s : State) (m : Move) (l : LaneIx) (b : BerthIx) (entered : Bool) : Prop where
  lane : m.lane = some l
  cells : ∀ g ∈ m.span m.t m.h, ∀ x ∈ s.cellLane g, x = l
  granted : entered = false → m.state = .crossing ∧ m.f < m.h ∧ s.AtBerth m l b
  entered : entered = true → (m.state = .crossing ∨ m.state = .stalled ∨ m.state = .stopping)
    ∧ (s.isCell (m.seg m.t) = true ∨ s.isCell (m.seg m.f) = true) ∧ (s.isCell (m.seg m.f) = false → m.h = m.f)
  ahead : m.f < m.h → s.isCell (m.seg m.h) = false ∧ ∀ i < m.h, m.f < i → s.isCell (m.seg i) = true

/-- What the laws say of a live move. -/
structure State.MoveSound (s : State) (m : Move) : Prop where
  waits : m.state = .laneWait → ∃ (l : LaneIx) (b : BerthIx), m.lane = some l ∧ m.slot ∈ s.lanes[l].lists[b]
  crossing : m.state = .crossing → m.lane ≠ none
  named : ∀ l : LaneIx, m.lane = some l → m.state = .laneWait ∨ s.lanes[l].crosses m.slot = true
  cells : ∀ g ∈ m.span m.t m.h, ∀ l ∈ s.cellLane g, s.lanes[l].crosses m.slot = true
  bench : m.bench ≠ 0
  place : ∀ g, s.occupant g = some (.bench m.bench) ↔ g ∈ m.span m.t m.f
  yields : m.YieldLaw
  visited : m.extending = true → m.eligible = true ∧ m.yield = .clear

/-- What they say of lane l, if its record is ln and the move in slot x is ending. -/
structure State.LaneSound (x : Option SlotIx) (s : State) (l : LaneIx) (ln : Lane) : Prop where
  timer : ln.state ≠ .faulted → ln.releaseTimer = .stopped
  record : ∀ c ∈ ln.crossing,
    (ln.state = .crossing ∨ (ln.state = .faulted ∧ c.entered = true)) ∧ ln.releaseTimer = .stopped
  nodup : ∀ b : BerthIx, ln.lists[b].Nodup
  listed : ∀ b : BerthIx, ∀ k ∈ ln.lists[b], x ≠ some k ∧ ∃ m, s.move? k = some m ∧ s.Waits m l b
  crosser : ∀ c ∈ ln.crossing, x ≠ some c.slot ∧ ∃ m, s.move? c.slot = some m ∧ s.Crosses m l ln.berth c.entered

/-- The laws of the lanes and of the marks on the moves, but for the move in slot x, if there is one, that is ending. -/
structure State.Laid (x : Option SlotIx) (s : State) : Prop where
  moves : ∀ m ∈ s.moves, x ≠ some m.slot → s.MoveSound m
  lanes : ∀ l : LaneIx, s.LaneSound x l s.lanes[l]
  queue : ∀ q ∈ s.queue, q.bench ≠ 0
  benches : (s.moves.map (·.bench)).Nodup

section congr
variable {s t : State} {m m' : Move} {l : LaneIx} {b : BerthIx} {e : Bool} {x : Option SlotIx} {ln ln' : Lane}

theorem Move.face_fields (h : m'.face = m.face) : m'.slot = m.slot ∧ m'.bench = m.bench ∧ m'.route = m.route ∧ m'.t = m.t
    ∧ m'.f = m.f ∧ m'.h = m.h ∧ m'.state = m.state ∧ m'.lane = m.lane ∧ m'.shed = m.shed ∧ m'.yield = m.yield
    ∧ m'.extending = m.extending := by
  simp only [Prod.mk.injEq] at h
  obtain ⟨h1, h2, h3, ⟨h4, h5, h6⟩, h7, h8, h9, h10, h11⟩ := h
  exact ⟨h1, h2, h3, h4, h5, h6, h7, h8, h9, h10, h11⟩

/-- A lane's place for a move depends on the layout of the rail and the face of the move. -/
theorem State.AtBerth.congr (h : s.AtBerth m l b) (hconfig : t.segs.map Segment.config = s.segs.map Segment.config)
    (hroute : m'.route = m.route) (ht : m'.t = m.t) (hf : m'.f = m.f) : t.AtBerth m' l b := by
  obtain ⟨h1, h2, h3⟩ := h
  refine ⟨by rw [ht, hf, h1], ?_, ?_⟩
  · rw [State.berthOf_config hconfig, Move.seg_congr hroute, hf]
    exact h2
  · rw [State.isCell_config hconfig, Move.seg_congr hroute, hf]
    exact h3

theorem State.Waits.congr (h : s.Waits m l b) (hconfig : t.segs.map Segment.config = s.segs.map Segment.config)
    (hface : m'.face = m.face) : t.Waits m' l b := by
  obtain ⟨-, -, hroute, ht, hf, hh, hstate, hlane, -⟩ := Move.face_fields hface
  exact ⟨hstate.trans h.state, hlane.trans h.lane, by rw [hh, hf, h.front], h.berth.congr hconfig hroute ht hf⟩

theorem State.Crosses.congr (h : s.Crosses m l b e) (hconfig : t.segs.map Segment.config = s.segs.map Segment.config)
    (hface : m'.face = m.face) : t.Crosses m' l b e := by
  obtain ⟨-, -, hroute, ht, hf, hh, hstate, hlane, -⟩ := Move.face_fields hface
  have hseg := Move.seg_congr hroute
  refine ⟨hlane.trans h.lane, ?_, fun he => ?_, fun he => ?_, ?_⟩
  · rw [Move.span_congr hroute, ht, hh, State.cellLane_config hconfig]
    exact h.cells
  · obtain ⟨h1, h2, h3⟩ := h.granted he
    exact ⟨hstate.trans h1, by rw [hf, hh]; exact h2, h3.congr hconfig hroute ht hf⟩
  · rw [hstate, hseg, hseg, ht, hf, hh, State.isCell_config hconfig]
    exact h.entered he
  · rw [hf, hh, hseg, State.isCell_config hconfig]
    intro hlt
    obtain ⟨h1, h2⟩ := h.ahead hlt
    exact ⟨h1, fun i => by rw [hseg]; exact h2 i⟩

theorem Move.eligible_congr (h : m'.state = m.state) : m'.eligible = m.eligible := by rw [Move.eligible, Move.eligible, h]

theorem State.MoveSound.congr (h : s.MoveSound m) (hconfig : t.segs.map Segment.config = s.segs.map Segment.config)
    (hface : m'.face = m.face)
    (hlists : ∀ l : LaneIx, ∀ b : BerthIx, m.slot ∈ s.lanes[l].lists[b] → ∃ b : BerthIx, m.slot ∈ t.lanes[l].lists[b])
    (hcross : ∀ l : LaneIx, s.lanes[l].crosses m.slot = true → t.lanes[l].crosses m.slot = true)
    (hplace : ∀ g, t.occupant g = some (.bench m.bench) ↔ s.occupant g = some (.bench m.bench)) : t.MoveSound m' := by
  obtain ⟨hslot, hbench, hroute, ht, hf, hh, hstate, hlane, hshed, hyield, hext⟩ := Move.face_fields hface
  refine ⟨fun hw => ?_, fun hc => ?_, fun l hl => ?_, fun g hg l hl => ?_, by rw [hbench]; exact h.bench, fun g => ?_, fun hy => ?_,
    fun he => ?_⟩
  · obtain ⟨l, b, hl, hb⟩ := h.waits (hstate ▸ hw)
    obtain ⟨b', hb'⟩ := hlists l b hb
    exact ⟨l, b', hlane.trans hl, hslot ▸ hb'⟩
  · rw [hlane]
    exact h.crossing (hstate ▸ hc)
  · rw [hstate, hslot]
    exact (h.named l (hlane ▸ hl)).imp_right (hcross l)
  · rw [Move.span_congr hroute, ht, hh] at hg
    rw [State.cellLane_config hconfig] at hl
    rw [hslot]
    exact hcross l (h.cells g hg l hl)
  · rw [hbench, hplace, Move.span_congr hroute, ht, hf]
    exact h.place g
  · rw [hyield] at hy
    rw [hshed, Move.eligible_congr hstate, hh, hf]
    exact h.yields hy
  · rw [Move.eligible_congr hstate, hyield]
    exact h.visited (hext ▸ he)

theorem Lane.Like.fields (h : ln'.Like ln) : ln'.state = ln.state ∧ ln'.berth = ln.berth ∧ ln'.crossing = ln.crossing
    ∧ ln'.lists = ln.lists := by
  have hface := h.face
  simp only [Prod.mk.injEq] at hface
  exact hface

theorem Lane.Like.refl (ln : Lane) : ln.Like ln := ⟨rfl, id⟩

theorem Lane.Like.of_eq (h : ln' = ln) : ln'.Like ln := h ▸ .refl _

/-- A lane's part depends on its face and on the faces of the moves it names. -/
theorem State.LaneSound.congr (h : s.LaneSound x l ln) (hconfig : t.segs.map Segment.config = s.segs.map Segment.config)
    (hlike : ln'.Like ln)
    (hmoves : ∀ k m, s.move? k = some m → m.lane = some l → ∃ m', t.move? k = some m' ∧ m'.face = m.face) :
    t.LaneSound x l ln' := by
  obtain ⟨hstate, hberth, hcross, hlists⟩ := hlike.fields
  refine ⟨fun hs => hlike.release (h.timer (hstate ▸ hs)), fun c hc => ?_, by rw [hlists]; exact h.nodup, fun b k hk => ?_,
    fun c hc => ?_⟩
  · obtain ⟨hs, htimer⟩ := h.record c (hcross ▸ hc)
    exact ⟨by rw [hstate]; exact hs, hlike.release htimer⟩
  · rw [hlists] at hk
    obtain ⟨hx, m, hm, hw⟩ := h.listed b k hk
    obtain ⟨m', hm', he⟩ := hmoves k m hm hw.lane
    exact ⟨hx, m', hm', hw.congr hconfig he⟩
  · rw [hcross] at hc
    obtain ⟨hx, m, hm, hw⟩ := h.crosser c hc
    obtain ⟨m', hm', he⟩ := hmoves c.slot m hm hw.lane
    exact ⟨hx, m', hm', hberth ▸ hw.congr hconfig he⟩

end congr

end Sys2Proof.Machine
end


section
/-!
PROOFS. The laws of the lanes as laws of single moves and lanes, and what a change of one move and one lane has to keep.
-/

open Sys2Proof Sys2Proof.Machine

namespace Sys2Proof.Machine

/-! ### The laws, and the laws one by one -/

section laws
variable {s : State} {k : SlotIx} {l : LaneIx} {b : BerthIx} {m : Move} {x : Option SlotIx}

theorem State.mem_waiting : k ∈ s.waiting ↔ ∃ (l : LaneIx) (b : BerthIx), k ∈ s.lanes[l].lists[b] := by
  unfold State.waiting
  simp only [List.mem_flatten, List.mem_flatMap, Vector.mem_toList_iff, Vector.mem_iff_getElem]
  constructor
  · rintro ⟨q, ⟨ln, ⟨i, hi, rfl⟩, j, hj, rfl⟩, hk⟩
    exact ⟨⟨i, hi⟩, ⟨j, hj⟩, hk⟩
  · rintro ⟨l, b, hk⟩
    exact ⟨_, ⟨_, ⟨l.val, l.isLt, rfl⟩, b.val, b.isLt, rfl⟩, hk⟩

/-- Every list of waiting moves lists each once. -/
theorem State.ListLaw.nodup (h : s.ListLaw) (l : LaneIx) (b : BerthIx) : s.lanes[l].lists[b].Nodup := by
  obtain ⟨hnodup, -⟩ := h
  unfold State.waiting at hnodup
  refine (List.nodup_flatten.1 hnodup).1 _ (List.mem_flatMap.2 ⟨s.lanes[l], ?_, ?_⟩)
  · exact Vector.mem_toList_iff.2 (Vector.getElem_mem _)
  · exact Vector.mem_toList_iff.2 (Vector.getElem_mem _)

/-- Lists that list each move once, and none in two of them, list every waiting move once. -/
theorem State.waiting_nodup (hnodup : ∀ (l : LaneIx) (b : BerthIx), s.lanes[l].lists[b].Nodup)
    (hone : ∀ (l l' : LaneIx) (b b' : BerthIx) (k : SlotIx), k ∈ s.lanes[l].lists[b] → k ∈ s.lanes[l'].lists[b'] → l = l' ∧ b = b') :
    s.waiting.Nodup := by
  unfold State.waiting
  refine List.nodup_flatten.2 ⟨fun q hq => ?_, List.pairwise_flatMap.2 ⟨fun ln hln => ?_, ?_⟩⟩
  · obtain ⟨ln, hln, hq⟩ := List.mem_flatMap.1 hq
    obtain ⟨i, hi, rfl⟩ := Vector.mem_iff_getElem.1 (Vector.mem_toList_iff.1 hln)
    obtain ⟨j, hj, rfl⟩ := Vector.mem_iff_getElem.1 (Vector.mem_toList_iff.1 hq)
    exact hnodup ⟨i, hi⟩ ⟨j, hj⟩
  · obtain ⟨i, hi, rfl⟩ := Vector.mem_iff_getElem.1 (Vector.mem_toList_iff.1 hln)
    refine List.pairwise_iff_getElem.2 fun j j' hj hj' hlt k hk hk' => ?_
    rw [Vector.length_toList] at hj hj'
    rw [Vector.getElem_toList] at hk hk'
    obtain ⟨-, he⟩ := hone ⟨i, hi⟩ ⟨i, hi⟩ ⟨j, hj⟩ ⟨j', hj'⟩ k hk hk'
    exact hlt.ne (congrArg Fin.val he)
  · refine List.pairwise_iff_getElem.2 fun i i' hi hi' hlt q hq q' hq' k hk hk' => ?_
    rw [Vector.length_toList] at hi hi'
    rw [Vector.getElem_toList] at hq hq'
    obtain ⟨j, hj, rfl⟩ := Vector.mem_iff_getElem.1 (Vector.mem_toList_iff.1 hq)
    obtain ⟨j', hj', rfl⟩ := Vector.mem_iff_getElem.1 (Vector.mem_toList_iff.1 hq')
    obtain ⟨he, -⟩ := hone ⟨i, hi⟩ ⟨i', hi'⟩ ⟨j, hj⟩ ⟨j', hj'⟩ k hk hk'
    exact hlt.ne (congrArg Fin.val he)

/-- Where a bench stands, by the occupants of the records or by look-up. -/
theorem State.place_iff (hrun : s.RunBut x) (hroute : s.RouteLaw m.route) :
    (∀ g ∈ s.segs, g.occupant = some (.bench m.bench) ↔ g.id ∈ m.span m.t m.f)
      ↔ ∀ g, s.occupant g = some (.bench m.bench) ↔ g ∈ m.span m.t m.f := by
  constructor
  · intro h g
    cases hseg : s.seg? g with
    | none =>
      refine ⟨fun ho => ?_, fun hin => ?_⟩
      · rw [State.occupant, hseg] at ho
        cases ho
      · obtain ⟨p, -, -, hlt, he⟩ := Move.mem_span.1 hin
        obtain ⟨-, -, hconf⟩ := hroute.bounds
        have hsome := hconf _ (Move.seg_mem_route hlt)
        rw [he, State.configured, hseg] at hsome
        cases hsome
    | some r =>
      obtain ⟨hid, hr⟩ := State.seg?_some hseg
      rw [State.occupant, hseg, ← hid]
      exact h r hr
  · intro h g hg
    rw [← h g.id, State.occupant, State.seg?_of_mem hrun.segs hg]
    rfl

theorem State.laid_of_laws (htable : s.TableLaw) (hrun : s.RunLaw) (hlane : s.LaneLaw) (harb : s.ArbiterLaw) : s.Laid none := by
  have hbut := State.runBut_none.2 hrun
  obtain ⟨-, hbench, -⟩ := htable
  obtain ⟨hlist, hberth, hrecord, hcrosser, hname, hcell, hnozero, hqueue, hplace⟩ := hlane
  obtain ⟨hyield, hvisit, -⟩ := harb
  refine ⟨fun m hm _ => ?_, fun l => ?_, hqueue, (List.nodup_append.1 hbench).1⟩
  · have hslot := State.move?_of_mem hbut.slots.moves hm
    obtain ⟨hroute, -, -⟩ := hbut.runs m hm
    obtain ⟨hcross, hnamed⟩ := hname m hm
    refine ⟨fun hs => ?_, hcross, hnamed, fun g hg l hl => ?_, hnozero m hm, (State.place_iff hbut hroute).1 (hplace m hm),
      hyield m hm, fun he => ?_⟩
    · obtain ⟨l, b, hk⟩ := State.mem_waiting.1 ((hlist.2 m.slot).2 ⟨m, hm, rfl, hs⟩)
      exact ⟨l, b, (hberth l b m.slot hk m hm rfl).1, hk⟩
    · obtain ⟨p, htp, hph, -, rfl⟩ := Move.mem_span.1 hg
      obtain ⟨r, hr, hheld⟩ := Option.bind_eq_some_iff.1 (hrun.holder_seg hslot htp hph)
      obtain ⟨hid, hmem⟩ := State.seg?_some hr
      exact hcell r hmem m.slot hheld l (hid ▸ hl)
    · obtain ⟨helig, hclear, -⟩ := hvisit m hm he
      exact ⟨helig, hclear⟩
  · obtain ⟨htimer, hrec⟩ := hrecord l
    refine ⟨htimer, hrec, hlist.nodup l, fun b k hk => ?_, fun c hc => ?_⟩
    · obtain ⟨m, hm, hslot, hstate⟩ := (hlist.2 k).1 (State.mem_waiting.2 ⟨l, b, hk⟩)
      obtain ⟨hl, hfront, hat⟩ := hberth l b k hk m hm hslot
      exact ⟨(Option.some_ne_none _).symm, m, hslot ▸ State.move?_of_mem hbut.slots.moves hm, hstate, hl, hfront, hat⟩
    · obtain ⟨m, hm, hslot, hl, hcells, hgranted, hentered, hahead⟩ := hcrosser l c hc
      exact ⟨(Option.some_ne_none _).symm, m, hslot ▸ State.move?_of_mem hbut.slots.moves hm, hl, hcells, hgranted, hentered, hahead⟩

theorem State.Laid.laneLaw (h : s.Laid none) (hrun : s.RunLaw) : s.LaneLaw := by
  have hbut := State.runBut_none.2 hrun
  have hof : ∀ m ∈ s.moves, s.MoveSound m := fun m hm => h.moves m hm (Option.some_ne_none _).symm
  have hfound : ∀ {k m}, s.move? k = some m → m.slot = k ∧ m ∈ s.moves := fun hm => State.move?_some hm
  refine ⟨⟨State.waiting_nodup (fun l => (h.lanes l).nodup) fun l l' b b' k hk hk' => ?_, fun k => ⟨fun hk => ?_, ?_⟩⟩,
    fun l b k hk m hm hslot => ?_, fun l => ⟨(h.lanes l).timer, (h.lanes l).record⟩, fun l c hc => ?_,
    fun m hm => ⟨(hof m hm).crossing, (hof m hm).named⟩, fun g hg k hk l hl => ?_, fun m hm => (hof m hm).bench, h.queue,
    fun m hm => (State.place_iff hbut (hbut.runs m hm).1).2 (hof m hm).place⟩
  · obtain ⟨-, m, hm, hw⟩ := (h.lanes l).listed b k hk
    obtain ⟨-, m', hm', hw'⟩ := (h.lanes l').listed b' k hk'
    have he : m' = m := Option.some.inj (hm'.symm.trans hm)
    subst he
    obtain ⟨-, hb, -⟩ := hw.berth
    obtain ⟨-, hb', -⟩ := hw'.berth
    exact Prod.mk.inj (Option.some.inj (hb.symm.trans hb'))
  · obtain ⟨l, b, hk⟩ := State.mem_waiting.1 hk
    obtain ⟨-, m, hm, hw⟩ := (h.lanes l).listed b k hk
    obtain ⟨hslot, hmem⟩ := hfound hm
    exact ⟨m, hmem, hslot, hw.state⟩
  · rintro ⟨m, hm, rfl, hstate⟩
    obtain ⟨l, b, -, hk⟩ := (hof m hm).waits hstate
    exact State.mem_waiting.2 ⟨l, b, hk⟩
  · obtain ⟨-, y, hy, hw⟩ := (h.lanes l).listed b k hk
    have he : y = m := Option.some.inj (hy.symm.trans (hslot ▸ State.move?_of_mem hbut.slots.moves hm))
    subst he
    exact ⟨hw.lane, hw.front, hw.berth⟩
  · obtain ⟨-, m, hm, hw⟩ := (h.lanes l).crosser c hc
    obtain ⟨hslot, hmem⟩ := hfound hm
    exact ⟨m, hmem, hslot, hw.lane, hw.cells, hw.granted, hw.entered, hw.ahead⟩
  · obtain ⟨-, -, -, -, hhold⟩ := hrun
    obtain ⟨m, hm, rfl, hin⟩ := (hhold g hg k).1 hk
    exact (hof m hm).cells g.id hin l hl

end laws

end Sys2Proof.Machine
end


section
/-!
PROOFS. A change of one move and one lane keeps the laws of the rest (R47, R49, R71).
-/

open Sys2Proof Sys2Proof.Machine

namespace Sys2Proof.Machine

/-- From s to t, no more than the move in slot k and lane l change of what the laws of the lanes read, and no lane but l
names that move. -/
structure State.Local (s t : State) (k : Option SlotIx) (l : Option LaneIx) : Prop where
  config : t.segs.map Segment.config = s.segs.map Segment.config
  names : t.moves.map (fun m => (m.slot, m.bench)) = s.moves.map fun m => (m.slot, m.bench)
  queue : ∀ q ∈ t.queue, q ∈ s.queue
  other : ∀ i, k ≠ some i → (t.move? i).map Move.face = (s.move? i).map Move.face
  lane : ∀ y : LaneIx, l ≠ some y → t.lanes[y].Like s.lanes[y]
  listed : ∀ y : LaneIx, l = some y → ∀ i, k ≠ some i → ∀ b : BerthIx, i ∈ s.lanes[y].lists[b] →
    ∃ b : BerthIx, i ∈ t.lanes[y].lists[b]
  crossed : ∀ y : LaneIx, l = some y → ∀ i, k ≠ some i → s.lanes[y].crosses i = true → t.lanes[y].crosses i = true
  home : ∀ i m, k = some i → s.move? i = some m → m.lane = none ∨ m.lane = l
  place : ∀ i m, k ≠ some i → s.move? i = some m →
    ∀ g, t.occupant g = some (.bench m.bench) ↔ s.occupant g = some (.bench m.bench)

section local_
variable {s t : State} {k : SlotIx} {i : SlotIx} {l : LaneIx} {ko : Option SlotIx} {lo : Option LaneIx} {x x' : Option SlotIx}
  {m m' : Move} {u : Move → Move} {ln : Lane}

theorem Lane.crosses_congr {a b : Lane} (h : a.crossing = b.crossing) (k : SlotIx) : a.crosses k = b.crosses k := by
  rw [Lane.crosses, Lane.crosses, h]

theorem State.Local.slots (hl : s.Local t ko lo) (h : (s.moves.map (·.slot)).Nodup) : (t.moves.map (·.slot)).Nodup := by
  have hmap := congrArg (List.map Prod.fst) hl.names
  rw [List.map_map, List.map_map] at hmap
  exact hmap ▸ h

theorem State.Local.back (hl : s.Local t ko lo) (hi : ko ≠ some i) (hm : t.move? i = some m') :
    ∃ m, s.move? i = some m ∧ m'.face = m.face := by
  have hother := hl.other i hi
  rw [hm, Option.map_some] at hother
  obtain ⟨m, hm, he⟩ := Option.map_eq_some_iff.1 hother.symm
  exact ⟨m, hm, he.symm⟩

theorem State.Local.forth (hl : s.Local t ko lo) (hi : ko ≠ some i) (hm : s.move? i = some m) :
    ∃ m', t.move? i = some m' ∧ m'.face = m.face := by
  have hother := hl.other i hi
  rw [hm, Option.map_some] at hother
  exact Option.map_eq_some_iff.1 hother

/-- A lane that does not name the move in slot k is sound while that move is ending. -/
theorem State.LaneSound.ending (h : s.LaneSound none l ln) (hno : ∀ m, s.move? k = some m → m.lane ≠ some l) :
    s.LaneSound (some k) l ln := by
  refine ⟨h.timer, h.record, h.nodup, fun b i hi => ?_, fun c hc => ?_⟩
  · obtain ⟨-, m, hm, hw⟩ := h.listed b i hi
    exact ⟨fun e => hno m (Option.some.inj e ▸ hm) hw.lane, m, hm, hw⟩
  · obtain ⟨-, m, hm, hw⟩ := h.crosser c hc
    exact ⟨fun e => hno m (Option.some.inj e ▸ hm) hw.lane, m, hm, hw⟩

/-- What is judged is the one lane and the one move, which may be ending. -/
theorem State.Laid.of_local (h : s.Laid x) (hslots : (s.moves.map (·.slot)).Nodup) (hl : s.Local t ko lo)
    (hx : x' = x ∨ (x = none ∧ x' = ko)) (hlane : ∀ y, lo = some y → t.LaneSound x' y t.lanes[y])
    (hmove : ∀ i m', ko = some i → x' ≠ some i → t.move? i = some m' → t.MoveSound m') : t.Laid x' := by
  refine ⟨fun m' hm' hx' => ?_, fun y => ?_, fun q hq => h.queue q (hl.queue q hq), ?_⟩
  · have hfound := State.move?_of_mem (hl.slots hslots) hm'
    by_cases hk : ko = some m'.slot
    · exact hmove _ m' hk hx' hfound
    · have hxs : x ≠ some m'.slot := by
        rcases hx with rfl | ⟨rfl, -⟩
        · exact hx'
        · exact (Option.some_ne_none _).symm
      obtain ⟨m, hm, hface⟩ := hl.back hk hfound
      obtain ⟨hslot, hmem⟩ := State.move?_some hm
      rw [← hslot] at hk hxs
      refine (h.moves m hmem hxs).congr hl.config hface (fun y b hb => ?_) (fun y hc => ?_) (hl.place _ m hk (hslot ▸ hm))
      · by_cases hy : lo = some y
        · exact hl.listed y hy _ hk b hb
        · obtain ⟨-, -, -, hlists⟩ := (hl.lane y hy).fields
          exact ⟨b, by rw [hlists]; exact hb⟩
      · by_cases hy : lo = some y
        · exact hl.crossed y hy _ hk hc
        · obtain ⟨-, -, hcross, -⟩ := (hl.lane y hy).fields
          rw [Lane.crosses_congr hcross]
          exact hc
  · by_cases hy : lo = some y
    · exact hlane y hy
    · have hhome : ∀ i m, ko = some i → s.move? i = some m → m.lane ≠ some y := by
        intro i m hk hm hmy
        rcases hl.home i m hk hm with hn | hn
        · rw [hn] at hmy
          cases hmy
        · exact hy (hn.symm.trans hmy)
      have hs : s.LaneSound x' y s.lanes[y] := by
        rcases hx with rfl | ⟨rfl, rfl⟩
        · exact h.lanes y
        · cases x' with
          | none => exact h.lanes y
          | some i => exact (h.lanes y).ending fun m hm => hhome i m rfl hm
      refine hs.congr hl.config (hl.lane y hy) fun i m hm hmy => ?_
      by_cases hk : ko = some i
      · exact absurd hmy (hhome i m hk hm)
      · exact hl.forth hk hm
  · have hmap := congrArg (List.map Prod.snd) hl.names
    rw [List.map_map, List.map_map] at hmap
    exact hmap ▸ h.benches

/-! ### How such changes are written -/

theorem State.names_of_updateMove (hmoves : t.moves = (s.updateMove k u).moves) (hu : ∀ y, (u y).slot = y.slot ∧ (u y).bench = y.bench) :
    t.moves.map (fun m => (m.slot, m.bench)) = s.moves.map fun m => (m.slot, m.bench) := by
  rw [hmoves, State.updateMove_moves, List.map_map]
  refine List.map_congr_left fun y _ => ?_
  obtain ⟨hslot, hbench⟩ := hu y
  by_cases hy : y.slot = k
  · simp only [Function.comp, if_pos hy, hslot, hbench]
  · simp only [Function.comp, if_neg hy]

theorem State.move?_of_updateMove (hmoves : t.moves = (s.updateMove k u).moves) (hu : ∀ y, (u y).slot = y.slot) (i : SlotIx) :
    t.move? i = if i = k then (s.move? i).map u else s.move? i := by
  have hlook : t.move? i = (s.updateMove k u).move? i := by rw [State.move?, State.move?, hmoves]
  rw [hlook, State.move?_updateMove _ _ _ _ hu]
  by_cases hi : i = k
  · simp only [if_pos hi]
  · simp only [if_neg hi]
    exact congrFun Option.map_id _

theorem State.other_of_updateMove (hmoves : t.moves = (s.updateMove k u).moves) (hu : ∀ y, (u y).slot = y.slot) (i : SlotIx)
    (hi : some k ≠ some i) : (t.move? i).map Move.face = (s.move? i).map Move.face := by
  rw [State.move?_of_updateMove hmoves hu, if_neg fun he => hi (congrArg some he.symm)]

theorem State.like_of_set (hlanes : t.lanes = s.lanes.set l ln) (y : LaneIx) (hy : some l ≠ some y) :
    t.lanes[y].Like s.lanes[y] := by
  refine .of_eq ?_
  rw [hlanes, lanes_set_get, if_neg fun he => hy (congrArg some he.symm)]

end local_

end Sys2Proof.Machine
end


section
/-!
PROOFS. What a change leaves to the arbiter (R41, R42, R44, R55): the changes of the other blocks grant nothing in a visit,
put no move on a lane, and ask for a pass as a trigger does.
-/

open Sys2Proof Sys2Proof.Machine

namespace Sys2Proof.Machine

/-! ### The arbiter's order -/

/-- The arbiter's marks name live moves: those of a visit, of a check and of a pass (R41, R42, R45, R55). -/
structure State.Ordered (s : State) : Prop where
  visit : ∀ m ∈ s.moves, m.extending = true → s.arbiter.check = none ∧ s.arbiter.pass.bind List.head? = some m.slot
  check : s.CheckLaw
  pass : s.PassLaw

/-- From s to t, no visit grants anything, no free move gets a lane, and a pass is asked for as by a trigger. -/
structure State.Calm (s t : State) : Prop where
  mode : t.mode = s.mode
  pass : t.arbiter.pass = s.arbiter.pass
  check : t.arbiter.check = s.arbiter.check
  further : t.arbiter.further = true → s.arbiter.further = true ∨ (s.arbiter.pass ≠ none ∧ s.mode = .running)
  due : t.arbiter.due = true → s.arbiter.due = true ∨ (s.arbiter.pass = none ∧ s.mode = .running)
  stays : ∀ m ∈ s.moves, ∃ m' ∈ t.moves, m'.slot = m.slot ∧ (m.lane = none → m'.lane = none)
  grants : ∀ m' ∈ t.moves, m'.extending = true → ∃ m ∈ s.moves, m.slot = m'.slot ∧ m.extending = true

/-- A change of one move that grants nothing in a visit and gives no lane. -/
def Move.CalmBy (u : Move → Move) : Prop :=
  ∀ m, (u m).slot = m.slot ∧ ((u m).extending = true → m.extending = true) ∧ (m.lane = none → (u m).lane = none)

section calm
variable {s t v : State} {k : SlotIx} {l : LaneIx} {u : Move → Move}

theorem State.Calm.beside (hmoves : t.moves = s.moves) (harb : t.arbiter = s.arbiter) (hmode : t.mode = s.mode) : s.Calm t :=
  ⟨hmode, by rw [harb], by rw [harb], fun h => .inl (harb ▸ h), fun h => .inl (harb ▸ h),
    fun m hm => ⟨m, hmoves ▸ hm, rfl, id⟩, fun m hm he => ⟨m, hmoves ▸ hm, rfl, he⟩⟩

theorem State.Calm.refl (s : State) : s.Calm s := .beside rfl rfl rfl

theorem State.Calm.after (h' : v.Calm t) (h : s.Calm v) : s.Calm t := by
  refine ⟨h'.mode.trans h.mode, h'.pass.trans h.pass, h'.check.trans h.check, fun hf => ?_, fun hd => ?_, fun m hm => ?_,
    fun m hm he => ?_⟩
  · rcases h'.further hf with hf | ⟨hp, hm⟩
    · exact h.further hf
    · exact .inr ⟨h.pass ▸ hp, h.mode ▸ hm⟩
  · rcases h'.due hd with hd | ⟨hp, hm⟩
    · exact h.due hd
    · exact .inr ⟨h.pass ▸ hp, h.mode ▸ hm⟩
  · obtain ⟨y, hy, hslot, hlane⟩ := h.stays m hm
    obtain ⟨z, hz, hslot', hlane'⟩ := h'.stays y hy
    exact ⟨z, hz, hslot'.trans hslot, fun hn => hlane' (hlane hn)⟩
  · obtain ⟨y, hy, hslot, hext⟩ := h'.grants m hm he
    obtain ⟨z, hz, hslot', hext'⟩ := h.grants y hy hext
    exact ⟨z, hz, hslot'.trans hslot, hext'⟩

theorem State.Calm.map (hmoves : t.moves = s.moves.map u) (hu : Move.CalmBy u) (harb : t.arbiter = s.arbiter)
    (hmode : t.mode = s.mode) : s.Calm t :=
  ⟨hmode, by rw [harb], by rw [harb], fun h => .inl (harb ▸ h), fun h => .inl (harb ▸ h),
    fun m hm => ⟨u m, hmoves ▸ List.mem_map_of_mem hm, (hu m).1, (hu m).2.2⟩, fun m hm he => by
      rw [hmoves] at hm
      obtain ⟨y, hy, rfl⟩ := List.mem_map.1 hm
      exact ⟨y, hy, (hu y).1.symm, (hu y).2.1 he⟩⟩

theorem State.Calm.updateMove (s : State) (k : SlotIx) (hu : Move.CalmBy u) : s.Calm (s.updateMove k u) :=
  .map rfl (fun m => by
    split
    · exact hu m
    · exact ⟨rfl, id, id⟩) rfl rfl

theorem State.Calm.then (h : s.Calm v) (hmoves : t.moves = v.moves) (harb : t.arbiter = s.arbiter) (hmode : t.mode = s.mode) :
    s.Calm t :=
  ⟨hmode, by rw [harb], by rw [harb], fun h => .inl (harb ▸ h), fun h => .inl (harb ▸ h), by rw [hmoves]; exact h.stays,
    by rw [hmoves]; exact h.grants⟩

theorem State.Calm.oneLane (h : OneLane l s t) : s.Calm t := by
  have hmoves : t.moves = s.moves := by rw [h.only]
  have harb : t.arbiter = s.arbiter := by rw [h.only]
  have hmode : t.mode = s.mode := by rw [h.only]
  exact .beside hmoves harb hmode

theorem State.Calm.trigger (s : State) : s.Calm s.trigger := by
  unfold State.trigger
  split
  · rename_i hmode
    split
    · rename_i p hp
      exact ⟨rfl, rfl, rfl, fun _ => .inr ⟨by rw [hp]; exact Option.some_ne_none p, hmode⟩, fun h => .inl h,
        fun m hm => ⟨m, hm, rfl, id⟩, fun m hm he => ⟨m, hm, rfl, he⟩⟩
    · rename_i hp
      exact ⟨rfl, rfl, rfl, fun h => .inl h, fun _ => .inr ⟨hp, hmode⟩, fun m hm => ⟨m, hm, rfl, id⟩,
        fun m hm he => ⟨m, hm, rfl, he⟩⟩
  all_goals exact .refl s

/-- The marks of the arbiter stay in order. -/
theorem State.Calm.ordered (h : s.Calm t) (hs : s.Ordered) : t.Ordered := by
  have hlive : ∀ {k : SlotIx}, (∃ m ∈ s.moves, m.slot = k) → ∃ m ∈ t.moves, m.slot = k := by
    rintro k ⟨m, hm, rfl⟩
    obtain ⟨y, hy, hslot, -⟩ := h.stays m hm
    exact ⟨y, hy, hslot⟩
  obtain ⟨hturns, hfurther, hdue⟩ := hs.pass
  refine ⟨fun m hm he => ?_, fun c hc => ?_, fun p hp => ?_, fun hf => ?_, fun hd => ?_⟩
  · obtain ⟨y, hy, hslot, hext⟩ := h.grants m hm he
    rw [h.check, h.pass, ← hslot]
    exact hs.visit y hy hext
  · rw [h.check] at hc
    obtain ⟨hp, h1, h24, hnodup, hmem⟩ := hs.check c hc
    refine ⟨h.pass ▸ hp, h1, h24, hnodup, fun k hk => ?_⟩
    obtain ⟨m, hm, hslot, hlane⟩ := hmem k hk
    obtain ⟨y, hy, hslot', hlane'⟩ := h.stays m hm
    exact ⟨y, hy, hslot'.trans hslot, hlane' hlane⟩
  · rw [h.pass] at hp
    obtain ⟨hnodup, hmem⟩ := hturns p hp
    exact ⟨hnodup, fun k hk => hlive (hmem k hk)⟩
  · rw [h.pass, h.mode]
    rcases h.further hf with hf | hf
    · exact hfurther hf
    · exact hf
  · rw [h.pass, h.mode]
    rcases h.due hd with hd | hd
    · exact hdue hd
    · exact hd

end calm

end Sys2Proof.Machine
end


section
/-!
PROOFS. The laws of the runs, the lanes and the arbiter together, and the changes of one lane alone that keep them (R66, R67,
R69, R71, R72, R84, R85, R88).
-/

open Sys2Proof Sys2Proof.Machine

namespace Sys2Proof.Machine

/-- The laws of the runs, of the lanes and of the arbiter's marks, but for the move in slot x, if there is one, that is
ending. -/
structure State.Sound (x : Option SlotIx) (s : State) : Prop where
  run : s.RunBut x
  laid : s.Laid x
  order : s.Ordered

section sound
variable {s t v : State} {k : SlotIx} {l : LaneIx} {x x' ko : Option SlotIx} {ln ln' : Lane} {b : BerthIx}

theorem State.RunBut.of_edits (h : s.RunBut x) (e : Edits x s t) : t.RunBut x := e.keeps (fun e hs => hs.of_edit e) h

/-- A change that leaves the arbiter's marks in order. -/
theorem State.Sound.of (h : s.Sound x) (e : Edits x s t) (calm : s.Calm t) (hlaid : t.Laid x) : t.Sound x :=
  ⟨h.run.of_edits e, hlaid, calm.ordered h.order⟩

/-! ### Changes that the laws of the lanes do not see -/

theorem State.other_of_faces (h : t.moves.map Move.face = s.moves.map Move.face) (i : SlotIx) :
    (t.move? i).map Move.face = (s.move? i).map Move.face := by
  have hlook : ∀ v : State, (v.move? i).map Move.face = (v.moves.map Move.face).find? fun y => y.1 == i := by
    intro v
    rw [List.find?_map]
    rfl
  rw [hlook, hlook, h]

theorem State.names_of_faces (h : t.moves.map Move.face = s.moves.map Move.face) :
    t.moves.map (fun m => (m.slot, m.bench)) = s.moves.map fun m => (m.slot, m.bench) := by
  have hmap := congrArg (List.map fun y : SlotIx × Nat × List Nat × (Nat × Nat × Nat) × MoveState × Option LaneIx × Bool × Yield × Bool =>
    (y.1, y.2.1)) h
  rwa [List.map_map, List.map_map] at hmap

/-- Moves with the same faces, lanes that are alike, and the same benches in the same places. -/
theorem State.Laid.of_alike (h : s.Laid x) (hrun : s.RunBut x) (hmoves : t.moves.map Move.face = s.moves.map Move.face)
    (hlanes : ∀ y : LaneIx, t.lanes[y].Like s.lanes[y]) (hconfig : t.segs.map Segment.config = s.segs.map Segment.config)
    (hqueue : ∀ q ∈ t.queue, q ∈ s.queue)
    (hplace : ∀ i m, s.move? i = some m → ∀ g, t.occupant g = some (.bench m.bench) ↔ s.occupant g = some (.bench m.bench)) :
    t.Laid x := by
  have hlocal : s.Local t none none := ⟨hconfig, State.names_of_faces hmoves, hqueue, fun i _ => State.other_of_faces hmoves i,
    fun y _ => hlanes y, fun _ hy => absurd hy (Option.some_ne_none _).symm, fun _ hy => absurd hy (Option.some_ne_none _).symm,
    fun _ _ hi => absurd hi (Option.some_ne_none _).symm, fun i m _ => hplace i m⟩
  exact h.of_local hrun.slots.moves hlocal (.inl rfl) (fun _ hy => absurd hy (Option.some_ne_none _).symm)
    fun _ _ hi => absurd hi (Option.some_ne_none _).symm

theorem State.Sound.alike (h : s.Sound x) (edits : Edits x s t) (calm : s.Calm t)
    (hmoves : t.moves.map Move.face = s.moves.map Move.face) (hlanes : ∀ y : LaneIx, t.lanes[y].Like s.lanes[y])
    (hsegs : t.segs = s.segs) (hqueue : ∀ q ∈ t.queue, q ∈ s.queue) : t.Sound x :=
  h.of edits calm (h.laid.of_alike h.run hmoves hlanes (by rw [hsegs]) hqueue fun _ _ _ g => by
    rw [State.occupant, State.occupant, State.seg?, State.seg?, hsegs])

/-- A change beside the rail and the arbiter. -/
theorem State.Sound.beside (h : s.Sound x)
    (hsame : (t.mode, t.segs, t.moves, t.queue, t.tokens, t.admissionCounter, t.lanes, t.crossingAsks)
      = (s.mode, s.segs, s.moves, s.queue, s.tokens, s.admissionCounter, s.lanes, s.crossingAsks))
    (harb : t.arbiter = s.arbiter) : t.Sound x := by
  have hedits : Edits x s t := .beside hsame
  simp only [Prod.mk.injEq] at hsame
  obtain ⟨hmode, hsegs, hmoves, hqueue, -, -, hlanes, -⟩ := hsame
  exact h.alike hedits (.beside hmoves harb hmode) (by rw [hmoves]) (fun y => .of_eq (by rw [hlanes])) hsegs
    fun q hq => hqueue ▸ hq

theorem State.Sound.notify (h : s.Sound x) (n : Notice) : (s.notify n).Sound x := h.beside rfl rfl

theorem State.Sound.setVerdict (h : s.Sound x) (k : SlotIx) (v : Verdict) : (s.setVerdict k v).Sound x := h.beside rfl rfl

theorem State.Sound.refuse (h : s.Sound x) (k : SlotIx) (r : RefuseReason) : (s.refuse k r).Sound x := h.beside rfl rfl

theorem State.Sound.applied (h : s.Sound x) (k : SlotIx) : (s.applied k).Sound x := h.beside rfl rfl

theorem State.Sound.trigger (h : s.Sound x) : s.trigger.Sound x := by
  have hcalm := State.Calm.trigger s
  obtain ⟨a, ha⟩ := s.trigger_eq
  have hedits : Edits x s s.trigger := .trigger s
  rw [ha] at hcalm hedits ⊢
  exact h.alike hedits hcalm rfl (fun y => .refl _) rfl fun _ hq => hq

theorem State.Sound.askRest (h : s.Sound x) (l : LaneIx) : (s.askRest l).Sound x := by
  have hedits : Edits x s (s.askRest l) := .askRest s l
  rw [State.askRest_eq] at hedits ⊢
  exact h.alike hedits (.beside rfl rfl rfl) rfl (fun _ => .refl _) rfl fun _ hq => hq

theorem State.Sound.announceLane (h : s.Sound x) (a : List Segment) (l : LaneIx) : (s.announceLane a l).Sound x := by
  unfold State.announceLane
  split
  · exact h.askRest l
  · exact h

/-- The announcements of a change (R9). -/
theorem State.Sound.announce (h : s.Sound x) (before : State) : (before.announce s).Sound x := by
  by_cases hnone : announced before.segs s.segs = []
  · rwa [State.announce_of_none hnone]
  · rw [State.announce_of_some hnone]
    exact ((((h.announceLane _ 0).announceLane _ 1).announceLane _ 2).announceLane _ 3).trigger

/-! ### One lane alone -/

/-- The part of a lane whose lists and record are made of those of another. -/
theorem State.LaneSound.rebuild (h : s.LaneSound x l ln) (hx : x' = x ∨ (x = none ∧ x' = ko))
    (hconfig : t.segs.map Segment.config = s.segs.map Segment.config)
    (hother : ∀ i, ko ≠ some i → (t.move? i).map Move.face = (s.move? i).map Move.face)
    (htimer : ln'.state ≠ .faulted → ln'.releaseTimer = .stopped)
    (hrecord : ∀ c ∈ ln'.crossing,
      (ln'.state = .crossing ∨ (ln'.state = .faulted ∧ c.entered = true)) ∧ ln'.releaseTimer = .stopped)
    (hnodup : ∀ b : BerthIx, ln'.lists[b].Nodup)
    (hlisted : ∀ b : BerthIx, ∀ i ∈ ln'.lists[b], (ko ≠ some i ∧ i ∈ ln.lists[b])
      ∨ (x' ≠ some i ∧ ∃ m, t.move? i = some m ∧ t.Waits m l b))
    (hcrosser : ∀ c ∈ ln'.crossing, (ko ≠ some c.slot ∧ c ∈ ln.crossing ∧ (ln'.berth = ln.berth ∨ c.entered = true))
      ∨ (x' ≠ some c.slot ∧ ∃ m, t.move? c.slot = some m ∧ t.Crosses m l ln'.berth c.entered)) :
    t.LaneSound x' l ln' := by
  have hforth : ∀ {i m}, ko ≠ some i → s.move? i = some m → ∃ m', t.move? i = some m' ∧ m'.face = m.face := by
    intro i m hi hm
    have he := hother i hi
    rw [hm, Option.map_some] at he
    exact Option.map_eq_some_iff.1 he
  have hstill : ∀ {i : SlotIx}, ko ≠ some i → x ≠ some i → x' ≠ some i := by
    intro i hi hxi
    rcases hx with rfl | ⟨-, rfl⟩
    · exact hxi
    · exact hi
  refine ⟨htimer, hrecord, hnodup, fun b i hi => ?_, fun c hc => ?_⟩
  · rcases hlisted b i hi with ⟨hk, hin⟩ | hnew
    · obtain ⟨hxi, m, hm, hw⟩ := h.listed b i hin
      obtain ⟨m', hm', hface⟩ := hforth hk hm
      exact ⟨hstill hk hxi, m', hm', hw.congr hconfig hface⟩
    · exact hnew
  · rcases hcrosser c hc with ⟨hk, hin, hberth⟩ | hnew
    · obtain ⟨hxi, m, hm, hw⟩ := h.crosser c hin
      obtain ⟨m', hm', hface⟩ := hforth hk hm
      have hw' := hw.congr hconfig hface
      refine ⟨hstill hk hxi, m', hm', hw'.lane, hw'.cells, fun he => ?_, hw'.entered, hw'.ahead⟩
      rcases hberth with hb | hb
      · rw [hb]
        exact hw'.granted he
      · rw [hb] at he
        cases he
    · exact hnew

/-- A change of lane l alone, seen by the lane. -/
theorem State.Laid.of_lane (h : s.Laid x) (hrun : s.RunBut x) (hone : OneLane l s t) (hlane : s.LaneSound x l t.lanes[l])
    (hlisted : ∀ (i : SlotIx) (b : BerthIx), i ∈ s.lanes[l].lists[b] → ∃ b : BerthIx, i ∈ t.lanes[l].lists[b])
    (hcrossed : ∀ i, s.lanes[l].crosses i = true → t.lanes[l].crosses i = true) : t.Laid x := by
  have hmoves : t.moves = s.moves := by rw [hone.only]
  have hsegs : t.segs = s.segs := by rw [hone.only]
  have hqueue : t.queue = s.queue := by rw [hone.only]
  have hconfig : t.segs.map Segment.config = s.segs.map Segment.config := by rw [hsegs]
  have hother : ∀ i, (t.move? i).map Move.face = (s.move? i).map Move.face := State.other_of_faces (by rw [hmoves])
  have hlocal : s.Local t none (some l) := by
    refine ⟨hconfig, by rw [hmoves], fun q hq => hqueue ▸ hq, fun i _ => hother i,
      fun y hy => .of_eq (hone.others y fun e => hy (congrArg some e.symm)), fun y hy i _ b hi => ?_, fun y hy i _ hi => ?_,
      fun _ _ hi => absurd hi (Option.some_ne_none _).symm, fun _ _ _ _ g => ?_⟩
    · obtain rfl := Option.some.inj hy
      exact hlisted i b hi
    · obtain rfl := Option.some.inj hy
      exact hcrossed i hi
    · rw [State.occupant, State.occupant, State.seg?, State.seg?, hsegs]
  refine h.of_local hrun.slots.moves hlocal (.inl rfl) (fun y hy => ?_) fun _ _ hi => absurd hi (Option.some_ne_none _).symm
  obtain rfl := Option.some.inj hy
  refine hlane.congr hconfig (.refl _) fun i m hm _ => ?_
  rw [State.move?, hmoves]
  exact ⟨m, hm, rfl⟩

theorem Lane.no_record (h : ln.crossing = none) {c : CrossingRecord} {p : Prop} (hc : c ∈ ln.crossing) : p := by
  rw [h] at hc
  cases hc

/-- Lane ln' has the moves of lane ln, waiting and crossing, in the same places or others, and keeps to the timer law. -/
structure Lane.Regular (ln' ln : Lane) : Prop where
  nodup : ∀ b : BerthIx, ln'.lists[b].Nodup
  listed : ∀ (b : BerthIx) (i : SlotIx), i ∈ ln'.lists[b] ↔ i ∈ ln.lists[b]
  crossing : ln'.crossing = ln.crossing
  berth : ∀ c ∈ ln.crossing, ln'.berth = ln.berth
  timer : ln'.state ≠ .faulted → ln'.releaseTimer = .stopped
  record : ∀ c ∈ ln.crossing,
    (ln'.state = .crossing ∨ (ln'.state = .faulted ∧ c.entered = true)) ∧ ln'.releaseTimer = .stopped

/-- A lane that is regular by a lawful one. -/
theorem State.Sound.oneLane (h : s.Sound x) (edits : Edits x s t) (hone : OneLane l s t) (hln : t.lanes[l].Regular s.lanes[l]) :
    t.Sound x := by
  refine h.of edits (.oneLane hone) (h.laid.of_lane h.run hone ?_ (fun i b hi => ⟨b, (hln.listed b i).2 hi⟩) fun i hi => ?_)
  · exact (h.laid.lanes l).rebuild (ko := none) (.inl rfl) rfl (fun _ _ => rfl) hln.timer
      (fun c hc => hln.record c (hln.crossing ▸ hc)) hln.nodup
      (fun b i hi => .inl ⟨(Option.some_ne_none i).symm, (hln.listed b i).1 hi⟩)
      fun c hc => .inl ⟨(Option.some_ne_none _).symm, hln.crossing ▸ hc, .inl (hln.berth c (hln.crossing ▸ hc))⟩
  · rw [Lane.crosses_congr hln.crossing]
    exact hi

/-- A lane is open: it has no record, and its release timer does not run. -/
structure Lane.Open (ln : Lane) : Prop where
  crossing : ln.crossing = none
  timer : ln.releaseTimer = .stopped

/-- An open lane in any state. -/
theorem Lane.Regular.of_open (hnodup : ∀ b : BerthIx, ln.lists[b].Nodup) (hopen : ln.Open)
    (h : (ln'.lists, ln'.crossing, ln'.releaseTimer) = (ln.lists, ln.crossing, ln.releaseTimer)) : ln'.Regular ln := by
  simp only [Prod.mk.injEq] at h
  obtain ⟨hlists, hcross, htimer⟩ := h
  exact ⟨fun b => by rw [hlists]; exact hnodup b, fun b i => by rw [hlists], hcross, fun c => Lane.no_record hopen.crossing,
    fun _ => htimer.trans hopen.timer, fun c => Lane.no_record hopen.crossing⟩

theorem State.Laid.nodup (h : s.Laid x) (l : LaneIx) (b : BerthIx) : s.lanes[l].lists[b].Nodup := (h.lanes l).nodup b

theorem State.Laid.quiet_open (h : s.Laid x) (hc : s.lanes[l].state ≠ .crossing) (hf : s.lanes[l].state ≠ .faulted) :
    s.lanes[l].Open := by
  refine ⟨?_, (h.lanes l).timer hf⟩
  cases hrec : s.lanes[l].crossing with
  | none => rfl
  | some c =>
    obtain ⟨hstate, -⟩ := (h.lanes l).record c hrec
    rcases hstate with hstate | ⟨hstate, -⟩
    · exact absurd hstate hc
    · exact absurd hstate hf

/-- An open lane that does as an open lane may: it is offered, falls quiet or settles. -/
theorem State.Sound.opened (h : s.Sound x) (edits : Edits x s t) (hone : OneLane l s t) (hopen : s.lanes[l].Open)
    (hln : (t.lanes[l].lists, t.lanes[l].crossing, t.lanes[l].releaseTimer)
      = (s.lanes[l].lists, s.lanes[l].crossing, s.lanes[l].releaseTimer)) : t.Sound x :=
  h.oneLane edits hone (.of_open (h.laid.nodup l) hopen hln)

theorem State.advanced_shape (s : State) (l : LaneIx) (ln : Lane) :
    ((s.advanced l ln).lists, (s.advanced l ln).crossing, (s.advanced l ln).releaseTimer)
      = (ln.lists, ln.crossing, ln.releaseTimer) := by
  unfold State.advanced
  split
  · split
    · split <;> rfl
    · rfl
  · split
    · rfl
    · split <;> rfl

theorem State.Sound.advanceLane (h : s.Sound x) (hopen : s.lanes[l].Open) : (s.advanceLane l).Sound x := by
  refine h.opened (.advanceLane s l) (s.advanceLane_oneLane l) hopen ?_
  rw [State.advanceLane_lane]
  exact s.advanced_shape l _

theorem State.startRound_shape (s : State) (l : LaneIx) :
    ((s.startRound l).lanes[l].lists, (s.startRound l).lanes[l].crossing, (s.startRound l).lanes[l].releaseTimer)
      = (s.lanes[l].lists, s.lanes[l].crossing, s.lanes[l].releaseTimer) := by
  unfold State.startRound
  split
  · simp only [State.enterOffering, State.clearRound, State.updateLane_get_same]
  · simp only [State.enterQuiet, State.clearRound, State.updateLane_get_same]

theorem State.Sound.startRound (h : s.Sound x) (hopen : s.lanes[l].Open) : (s.startRound l).Sound x :=
  h.opened (.startRound s l) (s.startRound_oneLane l) hopen (s.startRound_shape l)

theorem State.Sound.settleLane (h : s.Sound x) (hopen : s.lanes[l].Open) : (s.settleLane l).Sound x := by
  refine h.opened (.settleLane s l) (s.updateLane_oneLane l _) hopen ?_
  rw [State.settleLane, State.updateLane_get_same]

/-- The next offer of a lane whose crossing has ended (R76). -/
theorem State.Sound.offerNext (h : s.Sound x) (hopen : s.lanes[l].Open) : (s.offerNext l).Sound x := by
  have hedits : Edits x s (s.offerNext l) := .offerNext s l
  unfold State.offerNext at hedits ⊢
  dsimp only at hedits ⊢
  split
  · rename_i hcond
    rw [if_pos hcond] at hedits
    refine h.opened hedits ((State.updateLane_oneLane _ l _).trans (State.updateLane_oneLane _ l _)) hopen ?_
    simp only [State.enterOffering, State.updateLane_get_same]
  · exact h.advanceLane hopen

theorem State.Sound.leaveSettling (h : s.Sound x) (hopen : s.lanes[l].Open) : (s.leaveSettling l).Sound x := by
  unfold State.leaveSettling
  have hset : (s.updateLane l fun ln => { ln with settleTimer := .stopped }).Sound x := by
    refine h.opened (.updateLane s l _ fun _ _ hln => ⟨hln.1, hln.2.1, rfl, hln.2.2.2⟩) (s.updateLane_oneLane l _) hopen ?_
    rw [State.updateLane_get_same]
  refine hset.startRound ?_
  rw [State.updateLane_get_same]
  exact ⟨hopen.crossing, hopen.timer⟩

/-- A lane with no record leaves its fault (R88, R89). -/
theorem State.Sound.leaveFault (h : s.Sound x) (hnone : s.lanes[l].crossing = none) : (s.leaveFault l).Sound x := by
  unfold State.leaveFault
  have hset : (s.updateLane l fun ln => { ln with cause := none, releaseTimer := .stopped }).Sound x := by
    refine h.oneLane (.updateLane s l _ fun _ _ hln => ⟨hln.1, hln.2.1, hln.2.2.1, rfl⟩) (s.updateLane_oneLane l _) ?_
    rw [State.updateLane_get_same]
    exact ⟨h.laid.nodup l, fun _ _ => Iff.rfl, rfl, fun c => Lane.no_record hnone, fun _ => rfl, fun c => Lane.no_record hnone⟩
  refine hset.startRound ?_
  rw [State.updateLane_get_same]
  exact ⟨hnone, rfl⟩

/-- A lane with a record takes up its crossing again (R89). -/
theorem State.Sound.laneToCrossing (h : s.Sound x) (htimer : s.lanes[l].releaseTimer = .stopped) :
    (s.laneToCrossing l).Sound x := by
  refine h.oneLane (.updateLane s l _ fun hm _ hln => ⟨hln.1, State.startTimer_halted hm _, hln.2.2⟩)
    (s.updateLane_oneLane l _) ?_
  rw [State.laneToCrossing, State.updateLane_get_same]
  exact ⟨h.laid.nodup l, fun _ _ => Iff.rfl, rfl, fun _ _ => rfl, fun _ => htimer, fun _ _ => ⟨.inl rfl, htimer⟩⟩

theorem State.Sound.changeCause (h : s.Sound x) (l : LaneIx) (c : FaultCause) : (s.changeCause l c).Sound x := by
  refine h.oneLane (.changeCause s l c) (s.updateLane_oneLane l _) ?_
  rw [State.changeCause, State.updateLane_get_same]
  exact ⟨h.laid.nodup l, fun _ _ => Iff.rfl, rfl, fun _ _ => rfl, fun _ => rfl,
    fun r hr => ⟨((h.laid.lanes l).record r hr).1, rfl⟩⟩

/-- A faulted lane without a record may start its release timer (R88). -/
theorem State.Sound.releaseAfterFault (h : s.Sound x) (hnone : s.lanes[l].crossing = none) (hstate : s.lanes[l].state = .faulted) :
    (s.releaseAfterFault l).Sound x := by
  have hedits : Edits x s (s.releaseAfterFault l) := .releaseAfterFault s l
  unfold State.releaseAfterFault at hedits ⊢
  split
  · rename_i hcond
    rw [if_pos hcond] at hedits
    refine h.oneLane hedits (s.updateLane_oneLane l _) ?_
    rw [State.updateLane_get_same]
    exact ⟨h.laid.nodup l, fun _ _ => Iff.rfl, rfl, fun c => Lane.no_record hnone, fun hno => absurd hstate hno,
      fun c => Lane.no_record hnone⟩
  · exact h

theorem rotateHead_perm : ∀ q : List SlotIx, (rotateHead q).Perm q
  | [] => .nil
  | _ :: _ => List.perm_append_singleton _ _

theorem getElem_set_berth (v : Vector (List SlotIx) 8) (b b' : BerthIx) (q : List SlotIx) :
    (v.set b q)[b'] = if b' = b then q else v[b'] := by
  by_cases hb : b' = b
  · subst hb
    simp
  · rw [if_neg hb]
    have hne : (b : Nat) ≠ b' := fun e => hb (Fin.ext e.symm)
    simp [Vector.getElem_set_ne _ _ hne]

theorem State.Sound.offerLapse (h : s.Sound none) (l : LaneIx) : (s.offerLapse l).Sound none := by
  unfold State.offerLapse
  split
  · rename_i hcond
    have hopen : s.lanes[l].Open := h.laid.quiet_open (by rw [hcond.1]; decide) (by rw [hcond.1]; decide)
    have hperm : ∀ b : BerthIx, ((s.lanes[l].lists.set s.lanes[l].berth (rotateHead s.lanes[l].lists[s.lanes[l].berth]))[b]).Perm
        s.lanes[l].lists[b] := by
      intro b
      rw [getElem_set_berth]
      split
      · rename_i hb
        rw [hb]
        exact rotateHead_perm _
      · exact List.Perm.refl _
    have hset : (s.updateLane l fun ln =>
        { ln with offerTimer := .stopped, lists := ln.lists.set ln.berth (rotateHead ln.lists[ln.berth]) }).Sound none := by
      refine h.oneLane (.stopOffer s l _ fun _ => rfl) (s.updateLane_oneLane l _) ?_
      rw [State.updateLane_get_same]
      exact ⟨fun b => (hperm b).nodup_iff.2 (h.laid.nodup l b), fun b i => (hperm b).mem_iff, rfl,
        fun c => Lane.no_record hopen.crossing, fun _ => hopen.timer, fun c => Lane.no_record hopen.crossing⟩
    refine hset.advanceLane ?_
    rw [State.updateLane_get_same]
    exact ⟨hopen.crossing, hopen.timer⟩
  · exact h

theorem State.Sound.settleExpiry (h : s.Sound none) (l : LaneIx) : (s.settleExpiry l).Sound none := by
  unfold State.settleExpiry
  split
  · rename_i hcond
    exact h.leaveSettling (h.laid.quiet_open (by rw [hcond.1]; decide) (by rw [hcond.1]; decide))
  · exact h

theorem State.Sound.releaseExpiry (h : s.Sound none) (l : LaneIx) : (s.releaseExpiry l).Sound none := by
  unfold State.releaseExpiry
  split
  · rename_i hcond
    refine h.leaveFault ?_
    cases hrec : s.lanes[l].crossing with
    | none => rfl
    | some c =>
      obtain ⟨-, htimer⟩ := (h.laid.lanes l).record c hrec
      rw [htimer] at hcond
      exact absurd hcond.2 (by decide)
  · exact h

end sound

end Sys2Proof.Machine
end


section
/-!
PROOFS. A change of one move and of the lane it is on keeps the laws, if the move and the lane do (R47, R49, R71).
-/

open Sys2Proof Sys2Proof.Machine

namespace Sys2Proof.Machine

/-- From s to t the move in slot k is changed by u; of the lanes no more than lane lo changes, and the benches of the
other moves keep their places. -/
structure State.Deed (s t : State) (k : SlotIx) (u : Move → Move) (lo : Option LaneIx) : Prop where
  moves : t.moves = (s.updateMove k u).moves
  kept : ∀ y, (u y).slot = y.slot ∧ (u y).bench = y.bench
  config : t.segs.map Segment.config = s.segs.map Segment.config
  queue : t.queue = s.queue
  arbiter : t.arbiter = s.arbiter
  mode : t.mode = s.mode
  lanes : ∀ y : LaneIx, lo ≠ some y → t.lanes[y] = s.lanes[y]
  place : ∀ i m, i ≠ k → s.move? i = some m → ∀ g, t.occupant g = some (.bench m.bench) ↔ s.occupant g = some (.bench m.bench)

/-- Lane ln' differs from lane ln by what it says of the move in slot k, and keeps to the timer law. -/
structure Lane.Beside (k : SlotIx) (ln' ln : Lane) : Prop where
  listed : ∀ (b : BerthIx) (i : SlotIx), i ≠ k → (i ∈ ln'.lists[b] ↔ i ∈ ln.lists[b])
  nodup : ∀ b : BerthIx, ln'.lists[b].Nodup
  crossed : ∀ c : CrossingRecord, c.slot ≠ k → (c ∈ ln'.crossing ↔ c ∈ ln.crossing)
  berth : ln'.berth = ln.berth
  timer : ln'.state ≠ .faulted → ln'.releaseTimer = .stopped
  record : ∀ c ∈ ln'.crossing,
    (ln'.state = .crossing ∨ (ln'.state = .faulted ∧ c.entered = true)) ∧ ln'.releaseTimer = .stopped

/-- Lane l of t says of the move in slot k, which is m, what is so, and nothing if it is ending. -/
structure State.Names (t : State) (x : Option SlotIx) (l : LaneIx) (k : SlotIx) (m : Move) : Prop where
  listed : ∀ b : BerthIx, k ∈ t.lanes[l].lists[b] → x ≠ some k ∧ t.Waits m l b
  crossed : ∀ c ∈ t.lanes[l].crossing, c.slot = k → x ≠ some k ∧ t.Crosses m l t.lanes[l].berth c.entered

section deed
variable {s t v : State} {k i : SlotIx} {l : LaneIx} {b : BerthIx} {lo : Option LaneIx} {x x' : Option SlotIx}
  {m m' : Move} {u : Move → Move} {ln ln' : Lane}

theorem Segment.unheld_config {a b : List Segment} (h : a.map Segment.unheld = b.map Segment.unheld) :
    a.map Segment.config = b.map Segment.config := by
  have hmap := congrArg (List.map Segment.config) h
  rwa [List.map_map, List.map_map] at hmap

/-- A change that leaves all of the rail but who holds what. -/
theorem State.Deed.of_unheld (hmoves : t.moves = (s.updateMove k u).moves) (hkept : ∀ y, (u y).slot = y.slot ∧ (u y).bench = y.bench)
    (hunheld : t.segs.map Segment.unheld = s.segs.map Segment.unheld) (hqueue : t.queue = s.queue)
    (harb : t.arbiter = s.arbiter) (hmode : t.mode = s.mode)
    (hlanes : ∀ y : LaneIx, lo ≠ some y → t.lanes[y] = s.lanes[y]) : s.Deed t k u lo :=
  ⟨hmoves, hkept, Segment.unheld_config hunheld, hqueue, harb, hmode, hlanes, fun _ _ _ _ g => by
    rw [State.occupant_congr (State.place_of_unheld hunheld)]⟩

/-! ### How a deed is put together -/

theorem State.Deed.updateMove {w : Move → Move} (d : s.Deed t k u lo) (hw : ∀ y, (w y).slot = y.slot ∧ (w y).bench = y.bench) :
    s.Deed (t.updateMove k w) k (fun y => w (u y)) lo := by
  have hmoves : (t.updateMove k w).moves = (s.updateMove k fun y => w (u y)).moves := by
    rw [← State.updateMove_updateMove s k (u := u) (w := w) fun y => (d.kept y).1, State.updateMove_moves,
      State.updateMove_moves, d.moves]
  exact ⟨hmoves, fun y => ⟨(hw _).1.trans (d.kept y).1, (hw _).2.trans (d.kept y).2⟩, d.config, d.queue, d.arbiter, d.mode, d.lanes,
    d.place⟩

theorem State.Deed.oneLane (d : s.Deed v k u none) (hone : OneLane l v t) : s.Deed t k u (some l) := by
  have hmoves : t.moves = v.moves := by rw [hone.only]
  have hsegs : t.segs = v.segs := by rw [hone.only]
  have hqueue : t.queue = v.queue := by rw [hone.only]
  have harb : t.arbiter = v.arbiter := by rw [hone.only]
  have hmode : t.mode = v.mode := by rw [hone.only]
  refine ⟨hmoves.trans d.moves, d.kept, by rw [hsegs]; exact d.config, hqueue.trans d.queue, harb.trans d.arbiter,
    hmode.trans d.mode, fun y hy => ?_, fun i m hi hm g => ?_⟩
  · rw [hone.others y fun e => hy (congrArg some e.symm)]
    exact d.lanes y (Option.some_ne_none _).symm
  · rw [State.occupant, State.seg?, hsegs]
    exact d.place i m hi hm g

/-- Nothing said of a lane that did not change. -/
theorem State.Deed.weaken (d : s.Deed t k u none) : s.Deed t k u lo :=
  ⟨d.moves, d.kept, d.config, d.queue, d.arbiter, d.mode, fun y _ => d.lanes y (Option.some_ne_none _).symm, d.place⟩

theorem State.Deed.of_updateMove (s : State) (k : SlotIx) (hu : ∀ y, (u y).slot = y.slot ∧ (u y).bench = y.bench) :
    s.Deed (s.updateMove k u) k u lo :=
  .of_unheld rfl hu rfl rfl rfl rfl fun _ _ => rfl

theorem State.Deed.restore (s : State) (k : SlotIx) (hm : s.move? k = some m) : s.Deed (s.restore k) k Move.restored lo := by
  have hunheld := s.restore_unheld k
  have hkept : ∀ y : Move, y.restored.slot = y.slot ∧ y.restored.bench = y.bench := fun y => by
    obtain ⟨hfixed, -, -⟩ := y.restored_fixed
    simp only [Move.fixed, Prod.mk.injEq] at hfixed
    exact ⟨hfixed.1, hfixed.2.2.1⟩
  rw [State.restore_of_move hm] at hunheld ⊢
  exact .of_unheld rfl hkept hunheld rfl rfl rfl fun _ _ => rfl

theorem State.Deed.hold (s : State) (k : SlotIx) (ids : List Nat) (hu : ∀ y, (u y).slot = y.slot ∧ (u y).bench = y.bench) :
    s.Deed ((s.hold k ids).updateMove k u) k u lo := by
  refine .of_unheld rfl hu ?_ rfl rfl rfl fun _ _ => rfl
  show (s.segs.map _).map _ = _
  rw [List.map_map]
  refine List.map_congr_left fun g _ => ?_
  show (if g.id ∈ ids then { g with holder := some k } else g).unheld = g.unheld
  split <;> rfl

/-! ### Lanes and their moves -/

theorem Lane.crosses_iff_mem : ln.crosses k = true ↔ ∃ c ∈ ln.crossing, c.slot = k := by
  unfold Lane.crosses
  cases ln.crossing with
  | none => simp
  | some c => simp

theorem State.Deed.local (d : s.Deed t k u lo) (hm : s.move? k = some m) (hhome : m.lane = none ∨ m.lane = lo)
    (hlane : ∀ l, lo = some l → t.lanes[l].Beside k s.lanes[l]) : s.Local t (some k) lo := by
  refine ⟨d.config, State.names_of_updateMove d.moves d.kept, fun q hq => d.queue ▸ hq,
    fun i hi => State.other_of_updateMove d.moves (fun y => (d.kept y).1) i hi, fun y hy => .of_eq (d.lanes y hy),
    fun y hy i hi b hb => ⟨b, ((hlane y hy).listed b i fun e => hi (congrArg some e.symm)).2 hb⟩, fun y hy i hi hc => ?_,
    fun i y hi hy => ?_, fun i y hi hy => d.place i y (fun e => hi (congrArg some e.symm)) hy⟩
  · obtain ⟨c, hc, hslot⟩ := Lane.crosses_iff_mem.1 hc
    have hne : c.slot ≠ k := fun e => hi (congrArg some (e.symm.trans hslot))
    exact Lane.crosses_iff_mem.2 ⟨c, ((hlane y hy).crossed c hne).2 hc, hslot⟩
  · obtain rfl := Option.some.inj hi
    obtain rfl := Option.some.inj (hm.symm.trans hy)
    exact hhome

/-- What is judged is the move and what its lane says of it. -/
theorem State.Laid.of_deed (h : s.Laid x) (hslots : (s.moves.map (·.slot)).Nodup) (d : s.Deed t k u lo)
    (hm : s.move? k = some m) (hhome : m.lane = none ∨ m.lane = lo) (hx : x' = x ∨ (x = none ∧ x' = some k))
    (hlane : ∀ l, lo = some l → t.lanes[l].Beside k s.lanes[l] ∧ t.Names x' l k (u m))
    (hmove : x' ≠ some k → t.MoveSound (u m)) : t.Laid x' := by
  have hlocal := d.local hm hhome fun l hl => (hlane l hl).1
  have hfound : t.move? k = some (u m) := by
    rw [State.move?_of_updateMove d.moves (fun y => (d.kept y).1), if_pos rfl, hm]
    rfl
  refine h.of_local hslots hlocal hx (fun l hl => ?_) fun i m' hi hxi hm' => ?_
  · obtain ⟨hbeside, hnames⟩ := hlane l hl
    refine (h.lanes l).rebuild hx d.config hlocal.other hbeside.timer hbeside.record hbeside.nodup (fun b i hi => ?_)
      fun c hc => ?_
    · by_cases hik : i = k
      · subst hik
        obtain ⟨hxk, hw⟩ := hnames.listed b hi
        exact .inr ⟨hxk, u m, hfound, hw⟩
      · exact .inl ⟨fun e => hik (Option.some.inj e).symm, (hbeside.listed b i hik).1 hi⟩
    · by_cases hck : c.slot = k
      · obtain ⟨hxk, hw⟩ := hnames.crossed c hc hck
        exact .inr ⟨hck ▸ hxk, u m, hck ▸ hfound, hw⟩
      · exact .inl ⟨fun e => hck (Option.some.inj e).symm, (hbeside.crossed c hck).1 hc, .inl hbeside.berth⟩
  · obtain rfl := Option.some.inj hi
    obtain rfl := Option.some.inj (hfound.symm.trans hm')
    exact hmove hxi

/-- The same change by the laws together. -/
theorem State.Sound.of_deed (h : s.Sound x) (e : Edits x s t) (d : s.Deed t k u lo)
    (hcalm : Move.CalmBy u) (hm : s.move? k = some m) (hhome : m.lane = none ∨ m.lane = lo)
    (hlane : ∀ l, lo = some l → t.lanes[l].Beside k s.lanes[l] ∧ t.Names x l k (u m))
    (hmove : x ≠ some k → t.MoveSound (u m)) : t.Sound x :=
  h.of e ((State.Calm.updateMove s k hcalm).then d.moves d.arbiter d.mode)
    (h.laid.of_deed h.run.slots.moves d hm hhome (.inl rfl) hlane hmove)

/-! ### What the laws say of the move in a slot -/

theorem State.Sound.move (h : s.Sound none) (hm : s.move? k = some m) : s.MoveSound m :=
  h.laid.moves m (State.move?_some hm).2 (Option.some_ne_none _).symm

theorem State.Laid.waits (h : s.Laid x) (hb : k ∈ s.lanes[l].lists[b]) (hm : s.move? k = some m) : s.Waits m l b := by
  obtain ⟨-, y, hy, hw⟩ := (h.lanes l).listed b k hb
  obtain rfl := Option.some.inj (hm.symm.trans hy)
  exact hw

theorem State.Laid.crosses {c : CrossingRecord} (h : s.Laid x) (hc : c ∈ s.lanes[l].crossing) (hm : s.move? c.slot = some m) :
    s.Crosses m l s.lanes[l].berth c.entered := by
  obtain ⟨-, y, hy, hw⟩ := (h.lanes l).crosser c hc
  obtain rfl := Option.some.inj (hm.symm.trans hy)
  exact hw

/-- A crossing move is in CROSSING, STALLED or STOPPING. -/
theorem State.Crosses.state {e : Bool} (h : s.Crosses m l b e) : m.state = .crossing ∨ m.state = .stalled ∨ m.state = .stopping := by
  cases e with
  | false => exact .inl (h.granted rfl).1
  | true => exact (h.entered rfl).1

/-- A move off the lanes is named by none. -/
theorem State.Laid.not_named (h : s.Laid x) (hm : s.move? k = some m) (hl : m.lane ≠ some l) :
    (∀ b : BerthIx, k ∉ s.lanes[l].lists[b]) ∧ ∀ c ∈ s.lanes[l].crossing, c.slot ≠ k :=
  ⟨fun _ hb => hl (h.waits hb hm).lane, fun _ hc hk => hl (h.crosses hc (hk.symm ▸ hm)).lane⟩

/-- A move in MOVING or BLOCKED is off the lanes. -/
theorem State.MoveSound.lane_of_eligible (h : s.MoveSound m) (hlaid : s.Laid x) (hm : s.move? m.slot = some m)
    (helig : m.eligible = true) : m.lane = none := by
  cases hl : m.lane with
  | none => rfl
  | some l =>
    have hstate : m.state = .moving ∨ m.state = .blocked := by simpa [Move.eligible] using helig
    rcases h.named l hl with hw | hc
    · rcases hstate with hs | hs <;> rw [hs] at hw <;> cases hw
    · obtain ⟨c, hc, hslot⟩ := Lane.crosses_iff_mem.1 hc
      rcases (hlaid.crosses hc (hslot.symm ▸ hm)).state with hx | hx | hx <;>
        rcases hstate with hs | hs <;> rw [hs] at hx <;> cases hx

/-- A bench that stays where it is. -/
theorem State.MoveSound.place_of (h : s.MoveSound m) (hbench : m'.bench = m.bench) (hroute : m'.route = m.route) (ht : m'.t = m.t)
    (hf : m'.f = m.f) (hocc : ∀ g, t.occupant g = s.occupant g) (g : Nat) :
    t.occupant g = some (.bench m'.bench) ↔ g ∈ m'.span m'.t m'.f := by
  rw [hbench, hocc, Move.span_congr hroute, ht, hf]
  exact h.place g

end deed

end Sys2Proof.Machine
end


section
/-!
PROOFS. A move that stalls or stops keeps the laws: it gives up what it holds ahead, and its lane unless it has entered it
(R35, R69, R77, R120).
-/

open Sys2Proof Sys2Proof.Machine

namespace Sys2Proof.Machine

/-- A change of a move that stalls it or stops it: it holds nothing ahead, and its marks are cleared (R35, R52, R120). -/
structure Move.Halts (u : Move → Move) : Prop where
  kept : ∀ y, ((u y).slot, (u y).bench, (u y).route, ((u y).t, (u y).f, (u y).h), (u y).lane)
    = (y.slot, y.bench, y.route, (y.t, y.f, y.f), y.lane)
  state : ∀ y, (u y).state = .stalled ∨ (u y).state = .stopping
  marks : ∀ y, (u y).yield = .clear ∧ (u y).extending = false

section quit
variable {s t v : State} {k i : SlotIx} {l : LaneIx} {b b' : BerthIx} {x : Option SlotIx} {m m' : Move} {u w : Move → Move}
  {g : Nat} {e : Bool}

theorem Move.Halts.fields (hu : Move.Halts u) (y : Move) : (u y).slot = y.slot ∧ (u y).bench = y.bench
    ∧ (u y).route = y.route ∧ (u y).t = y.t ∧ (u y).f = y.f ∧ (u y).h = y.f ∧ (u y).lane = y.lane := by
  have h := hu.kept y
  simp only [Prod.mk.injEq] at h
  obtain ⟨h1, h2, h3, ⟨h4, h5, h6⟩, h7⟩ := h
  exact ⟨h1, h2, h3, h4, h5, h6, h7⟩

theorem Move.Halts.calm (hu : Move.Halts u) (hl : ∀ y, (w y).lane = (u y).lane ∨ (w y).lane = none)
    (hw : ∀ y, (w y).slot = (u y).slot ∧ (w y).extending = (u y).extending) : Move.CalmBy w := fun y => by
  obtain ⟨h1, -, -, -, -, -, h7⟩ := hu.fields y
  obtain ⟨-, hext⟩ := hu.marks y
  obtain ⟨hs, he⟩ := hw y
  refine ⟨hs.trans h1, fun he' => ?_, fun hn => ?_⟩
  · rw [he, hext] at he'
    cases he'
  · rcases hl y with hy | hy
    · exact hy.trans (h7.trans hn)
    · exact hy

theorem Move.restored_face (m : Move) : m.restored.slot = m.slot ∧ m.restored.bench = m.bench ∧ m.restored.route = m.route
    ∧ m.restored.t = m.t ∧ m.restored.f = m.f ∧ m.restored.h = m.f ∧ m.restored.lane = m.lane ∧ m.restored.state = m.state
    ∧ m.restored.shed = m.shed ∧ m.restored.yield = m.yield ∧ m.restored.extending = m.extending := by
  unfold Move.restored
  split
  · rename_i h
    exact ⟨rfl, rfl, rfl, rfl, rfl, h, rfl, rfl, rfl, rfl, rfl⟩
  · exact ⟨rfl, rfl, rfl, rfl, rfl, rfl, rfl, rfl, rfl, rfl, rfl⟩

theorem Move.span_mono {m : Move} {i j j' : Nat} (h : j ≤ j') (hg : g ∈ m.span i j) : g ∈ m.span i j' := by
  obtain ⟨p, hi, hj, hlt, he⟩ := Move.mem_span.1 hg
  exact Move.mem_span.2 ⟨p, hi, hj.trans h, hlt, he⟩

/-- A berth is no cell. -/
theorem State.cellLane_of_berth (h : s.berthOf g = some (l, b)) : s.cellLane g = none := by
  unfold State.berthOf at h
  unfold State.cellLane
  cases hseg : s.seg? g with
  | none => rfl
  | some r =>
    rw [hseg] at h
    dsimp only at h ⊢
    cases hkind : r.kind with
    | laneCell y j =>
      rw [hkind] at h
      cases h
    | berth y j => rfl
    | plain => rfl

/-- A move at a berth stands on no cell. -/
theorem State.AtBerth.no_cell (h : s.AtBerth m l b) (hg : g ∈ m.span m.t m.f) : s.cellLane g = none := by
  obtain ⟨htf, hberth, -⟩ := h
  obtain ⟨p, htp, hpf, -, rfl⟩ := Move.mem_span.1 hg
  obtain rfl : p = m.f := by omega
  exact State.cellLane_of_berth hberth

theorem State.RunBut.index (h : s.RunBut x) (hm : s.move? k = some m) : m.IndexLaw := (h.runs m (State.move?_some hm).2).2.1

/-- A move stalled or stopped, if its lane names it still and the lanes of the cells it stands on too. -/
theorem State.MoveSound.halted (h : s.MoveSound m) (hu : Move.Halts u) (lo : Option LaneIx)
    (hunheld : t.segs.map Segment.unheld = s.segs.map Segment.unheld)
    (hnamed : ∀ l : LaneIx, lo = some l → t.lanes[l].crosses m.slot = true)
    (hcells : ∀ g ∈ m.span m.t m.f, ∀ l ∈ s.cellLane g, t.lanes[l].crosses m.slot = true) :
    t.MoveSound { u m with lane := lo } := by
  obtain ⟨hslot, hbench, hroute, ht, hf, hh, -⟩ := hu.fields m
  obtain ⟨hyield, hext⟩ := hu.marks m
  have hocc : ∀ g, t.occupant g = s.occupant g := fun g => State.occupant_congr (State.place_of_unheld hunheld) g
  refine ⟨fun hw => ?_, fun hc => ?_, fun l hl => .inr ?_, fun g hg l hl => ?_, hbench ▸ h.bench,
    h.place_of (m' := { u m with lane := lo }) hbench hroute ht hf hocc, fun hy => absurd hyield hy, fun he => ?_⟩
  · rcases hu.state m with hs | hs <;> rw [hs] at hw <;> cases hw
  · rcases hu.state m with hs | hs <;> rw [hs] at hc <;> cases hc
  · show t.lanes[l].crosses (u m).slot = true
    rw [hslot]
    exact hnamed l hl
  · have hg' : g ∈ (u m).span (u m).t (u m).h := hg
    rw [Move.span_congr hroute, ht, hh] at hg'
    rw [State.cellLane_config (Segment.unheld_config hunheld)] at hl
    show t.lanes[l].crosses (u m).slot = true
    rw [hslot]
    exact hcells g hg' l hl
  · have he' : (u m).extending = true := he
    rw [hext] at he'
    cases he'

/-- A lane unchanged, beside a move that it names still. -/
theorem State.Laid.beside_self (h : s.Laid x) (l : LaneIx) (k : SlotIx) (hsame : t.lanes[l] = s.lanes[l]) :
    t.lanes[l].Beside k s.lanes[l] := by
  rw [hsame]
  exact ⟨fun _ _ _ => Iff.rfl, (h.lanes l).nodup, fun _ _ => Iff.rfl, rfl, (h.lanes l).timer, (h.lanes l).record⟩

/-- The record of a lane that a move crosses. -/
theorem Lane.record_of_crosses {ln : Lane} (h : ln.crosses k = true) : ln.crossing = some ⟨k, ln.entered k⟩ := by
  unfold Lane.crosses at h
  unfold Lane.entered
  cases hc : ln.crossing with
  | none => rw [hc] at h; cases h
  | some c =>
    rw [hc] at h
    obtain ⟨j, e⟩ := c
    simp only [decide_eq_true_eq] at h
    subst h
    simp

theorem Lane.crosses_of_entered {ln : Lane} (h : ln.entered k = true) : ln.crosses k = true := by
  unfold Lane.entered at h
  unfold Lane.crosses
  cases hc : ln.crossing with
  | none => rw [hc] at h; cases h
  | some c =>
    rw [hc] at h
    simp only [Bool.and_eq_true] at h
    exact h.1

/-- A lane without its record, as it is given back by the move in slot k. -/
theorem State.Laid.beside_withdrawn (h : s.Laid x) (hc : s.lanes[l].crosses k = true) {ln : Lane}
    (hln : (ln.lists, ln.berth, ln.crossing, ln.releaseTimer) = (s.lanes[l].lists, s.lanes[l].berth, none, s.lanes[l].releaseTimer)) :
    ln.Beside k s.lanes[l] ∧ ln.Open := by
  simp only [Prod.mk.injEq] at hln
  obtain ⟨hlists, hberth, hcross, htimer⟩ := hln
  have hrec := Lane.record_of_crosses hc
  have hstopped : ln.releaseTimer = .stopped := htimer.trans ((h.lanes l).record _ hrec).2
  refine ⟨⟨fun b i _ => by rw [hlists], fun b => by rw [hlists]; exact h.nodup l b, fun c hck => ?_, hberth, fun _ => hstopped,
    fun c => Lane.no_record hcross⟩, hcross, hstopped⟩
  rw [hcross, hrec]
  refine ⟨fun h => (by cases h), fun h => ?_⟩
  obtain rfl := Option.some.inj h
  exact absurd rfl hck

/-- A lane with the move in slot k off its lists. -/
theorem State.Laid.beside_left (h : s.Laid x) {ln : Lane}
    (hln : (ln.lists, ln.state, ln.berth, ln.crossing, ln.releaseTimer)
      = (s.lanes[l].lists.map fun q => q.filter (· ≠ k), s.lanes[l].state, s.lanes[l].berth, s.lanes[l].crossing,
        s.lanes[l].releaseTimer)) :
    ln.Beside k s.lanes[l] ∧ ∀ b : BerthIx, k ∉ ln.lists[b] := by
  simp only [Prod.mk.injEq] at hln
  obtain ⟨hlists, hstate, hberth, hcross, htimer⟩ := hln
  have hget : ∀ b : BerthIx, ln.lists[b] = s.lanes[l].lists[b].filter (· ≠ k) := fun b => by
    rw [hlists, Fin.getElem_fin, Vector.getElem_map]
    rfl
  refine ⟨⟨fun b i hi => ?_, fun b => ?_, fun c _ => by rw [hcross], hberth, ?_, ?_⟩, fun b => ?_⟩
  · rw [hget]
    simp [hi]
  · rw [hget]
    exact (h.nodup l b).filter _
  · rw [hstate, htimer]
    exact (h.lanes l).timer
  · rw [hstate, htimer, hcross]
    exact (h.lanes l).record
  · rw [hget]
    simp

/-- The waiting move of a lane is not its crossing move. -/
theorem State.Waits.not_crosses (h : s.Waits m l b) : ¬ s.Crosses m l b' e := by
  intro hc
  have hstate := h.state
  rcases hc.state with hs | hs | hs <;> rw [hs] at hstate <;> cases hstate

/-- A move that is on a lane and does not cross it waits in one of its lists. -/
theorem State.MoveSound.waiting (h : s.MoveSound m) (hl : m.lane = some l) (hc : s.lanes[l].crosses m.slot = false) :
    m.state = .laneWait ∧ ∃ b : BerthIx, m.slot ∈ s.lanes[l].lists[b] := by
  rcases h.named l hl with hw | hcross
  · obtain ⟨l', b, hl', hb⟩ := h.waits hw
    obtain rfl := Option.some.inj (hl.symm.trans hl')
    exact ⟨hw, b, hb⟩
  · rw [hc] at hcross
    cases hcross

theorem State.MoveSound.cells_stood (h : s.MoveSound m) (hfh : m.f ≤ m.h) (hg : g ∈ m.span m.t m.f) (hl : l ∈ s.cellLane g) :
    s.lanes[l].crosses m.slot = true := h.cells g (Move.span_mono hfh hg) l hl

/-- A move off the lanes, or one that has entered its crossing, keeps its place when it stalls or stops (R35, R120). -/
theorem State.Sound.halt_kept (h : s.Sound none) (hu : Move.Halts u) (d : s.Deed v k u none) (he : Edits none s v)
    (hunheld : v.segs.map Segment.unheld = s.segs.map Segment.unheld) (hm : s.move? k = some m)
    (hlane : ∀ l, m.lane = some l → s.lanes[l].entered k = true) : v.Sound none := by
  obtain ⟨rfl, -⟩ := State.move?_some hm
  have hsound := h.move hm
  obtain ⟨-, -, hroute, ht, hf, hh, hl⟩ := hu.fields m
  have hsame : ∀ y : LaneIx, v.lanes[y] = s.lanes[y] := fun y => d.lanes y (Option.some_ne_none _).symm
  have hconfig := Segment.unheld_config hunheld
  have hcells : ∀ g ∈ m.span m.t m.f, ∀ y ∈ s.cellLane g, v.lanes[y].crosses m.slot = true := fun g hg y hy => by
    rw [hsame]
    exact hsound.cells_stood (h.run.index hm).2.1 hg hy
  refine h.of_deed (lo := m.lane) he d.weaken (hu.calm (fun _ => .inl rfl) fun _ => ⟨rfl, rfl⟩) hm (.inr rfl) (fun l hml => ?_)
    fun _ => ?_
  · have hentered := hlane l hml
    have hrec := Lane.record_of_crosses (Lane.crosses_of_entered hentered)
    have hcross := h.laid.crosses hrec hm
    refine ⟨h.laid.beside_self l m.slot (hsame l), fun b hb => ?_, fun c hc hck => ?_⟩
    · rw [hsame] at hb
      exact absurd hcross (h.laid.waits hb hm).not_crosses
    · rw [hsame] at hc ⊢
      obtain rfl := Option.some.inj (hrec.symm.trans hc)
      refine ⟨(Option.some_ne_none _).symm, hl.trans hml, ?_, fun hno => ?_, fun _ => ⟨?_, ?_, fun _ => by rw [hh, hf]⟩, fun hlt => ?_⟩
      · rw [Move.span_congr hroute, ht, hh, State.cellLane_config hconfig]
        exact fun g hg => hcross.cells g (Move.span_mono (h.run.index hm).2.1 hg)
      · rw [hentered] at hno
        cases hno
      · rcases hu.state m with hs | hs
        · exact .inr (.inl hs)
        · exact .inr (.inr hs)
      · rw [Move.seg_congr hroute, Move.seg_congr hroute, ht, hf, State.isCell_config hconfig]
        exact (hcross.entered hentered).2.1
      · rw [hh, hf] at hlt
        exact absurd hlt (lt_irrefl _)
  · have hkept : u m = { u m with lane := m.lane } := by rw [← hl]
    rw [hkept]
    refine hsound.halted hu m.lane hunheld (fun l hml => ?_) hcells
    rw [hsame]
    exact Lane.crosses_of_entered (hlane l hml)

/-- A move whose grant is withdrawn as it stalls or stops: its lane is open (R77). -/
theorem State.Sound.halt_withdrawn (h : s.Sound none) (hu : Move.Halts u)
    (d : s.Deed v k (fun y => { u y with lane := none }) none) (he : Edits none s v)
    (hunheld : v.segs.map Segment.unheld = s.segs.map Segment.unheld) (hm : s.move? k = some m) (hl : m.lane = some l)
    (hc : s.lanes[l].crosses k = true) (hentered : s.lanes[l].entered k = false) : (v.withdrawGrant l).Sound none := by
  obtain ⟨rfl, -⟩ := State.move?_some hm
  have hrec := Lane.record_of_crosses hc
  have hcross := h.laid.crosses hrec hm
  obtain ⟨-, -, hberth⟩ := hcross.granted hentered
  have hsame : ∀ y : LaneIx, v.lanes[y] = s.lanes[y] := fun y => d.lanes y (Option.some_ne_none _).symm
  have hlane : (v.updateLane l fun ln => { ln with offerTimer := .stopped, crossing := none }).lanes[l]
      = { s.lanes[l] with offerTimer := .stopped, crossing := none } := by
    rw [State.updateLane_get_same, hsame]
  obtain ⟨hbeside, hopen⟩ := h.laid.beside_withdrawn hc (ln := { s.lanes[l] with offerTimer := .stopped, crossing := none }) rfl
  have hset : (v.updateLane l fun ln => { ln with offerTimer := .stopped, crossing := none }).Sound none := by
    refine h.of_deed (Edits.after (.stopOffer v l _ fun _ => rfl) he) (d.oneLane (v.updateLane_oneLane l _))
      (hu.calm (fun _ => .inr rfl) fun _ => ⟨rfl, rfl⟩) hm (.inr hl) (fun y hy => ?_) fun _ => ?_
    · obtain rfl := Option.some.inj hy
      rw [hlane]
      refine ⟨hbeside, fun b hb => ?_, fun c => ?_⟩
      · rw [hlane] at hb
        exact absurd hcross (h.laid.waits hb hm).not_crosses
      · rw [hlane]
        exact Lane.no_record rfl
    · refine (h.move hm).halted hu none hunheld (fun _ hno => absurd hno (Option.some_ne_none _).symm) fun g hg y hy => ?_
      rw [hberth.no_cell hg] at hy
      cases hy
  refine hset.advanceLane ?_
  rw [hlane]
  exact hopen

/-- A list that is left, and with the last move of an offer the offer (R69). -/
theorem State.Sound.leaveList_of
    (hset : (v.updateLane l fun ln => { ln with lists := ln.lists.map fun q => q.filter (· ≠ k) }).Sound x) :
    (v.leaveList l k).Sound x := by
  have hlane := v.updateLane_get_same l fun ln => { ln with lists := ln.lists.map fun q => q.filter (· ≠ k) }
  unfold State.leaveList
  dsimp only
  split
  · rename_i hcond
    obtain ⟨hoffer, -⟩ := hcond
    generalize v.updateLane l (fun ln => { ln with lists := ln.lists.map fun q => q.filter (· ≠ k) }) = z at hset hlane ⊢
    have hstate : z.lanes[l].state = .offering := by
      rw [hlane]
      exact hoffer
    have hopen : z.lanes[l].Open := hset.laid.quiet_open (by rw [hstate]; decide) (by rw [hstate]; decide)
    have hstop : (z.updateLane l fun ln => { ln with offerTimer := .stopped }).Sound x := by
      refine hset.opened (.stopOffer z l _ fun _ => rfl) (z.updateLane_oneLane l _) hopen ?_
      rw [State.updateLane_get_same]
    refine hstop.advanceLane ?_
    rw [State.updateLane_get_same]
    exact ⟨hopen.crossing, hopen.timer⟩
  · exact hset

/-- A waiting move that stalls or stops leaves its list, and with the last of an offer the offer ends (R69). -/
theorem State.Sound.halt_left (h : s.Sound none) (hu : Move.Halts u)
    (d : s.Deed v k (fun y => { u y with lane := none }) none) (he : Edits none s v)
    (hunheld : v.segs.map Segment.unheld = s.segs.map Segment.unheld) (hm : s.move? k = some m) (hl : m.lane = some l)
    (hc : s.lanes[l].crosses k = false) : (v.leaveList l k).Sound none := by
  obtain ⟨rfl, -⟩ := State.move?_some hm
  obtain ⟨-, b, hb⟩ := (h.move hm).waiting hl hc
  have hwaits := h.laid.waits hb hm
  have hsame : ∀ y : LaneIx, v.lanes[y] = s.lanes[y] := fun y => d.lanes y (Option.some_ne_none _).symm
  have hlane : (v.updateLane l fun ln => { ln with lists := ln.lists.map fun q => q.filter (· ≠ m.slot) }).lanes[l]
      = { s.lanes[l] with lists := s.lanes[l].lists.map fun q => q.filter (· ≠ m.slot) } := by
    rw [State.updateLane_get_same, hsame]
  obtain ⟨hbeside, hnone⟩ := h.laid.beside_left (k := m.slot)
    (ln := { s.lanes[l] with lists := s.lanes[l].lists.map fun q => q.filter (· ≠ m.slot) }) rfl
  refine State.Sound.leaveList_of (h.of_deed (Edits.after (.updateLane_plain v l _ fun _ => rfl) he) (d.oneLane (v.updateLane_oneLane l _))
      (hu.calm (fun _ => .inr rfl) fun _ => ⟨rfl, rfl⟩) hm (.inr hl) (fun y hy => ?_) fun _ => ?_)
  · obtain rfl := Option.some.inj hy
    rw [hlane]
    refine ⟨hbeside, fun b hb => ?_, fun c hcr hck => ?_⟩
    · rw [hlane] at hb
      exact absurd hb (hnone b)
    · rw [hlane] at hcr
      have hcross : s.lanes[l].crosses m.slot = true := Lane.crosses_iff_mem.2 ⟨c, hcr, hck⟩
      rw [hc] at hcross
      cases hcross
  · refine (h.move hm).halted hu none hunheld (fun _ hno => absurd hno (Option.some_ne_none _).symm) fun g hg y hy => ?_
    rw [hwaits.berth.no_cell hg] at hy
    cases hy

/-- A move that stalls or stops keeps no place on a lane it has not entered (R35, R77, R120). -/
theorem State.Sound.quit (h : s.Sound none) (hm : s.move? k = some m) (hu : Move.Halts fun y => w y.restored)
    (hw : ∀ y, (w y).slot = y.slot ∧ (w y).bench = y.bench ∧ (w y).run = y.run) (hupd : (s.restore k).Updates w) :
    (s.quit k w).Sound none := by
  have hrest : s.Deed (s.restore k) k Move.restored none := .restore s k hm
  have hdeed := hrest.updateMove (w := w) fun y => ⟨(hw y).1, (hw y).2.1⟩
  have hedits : Edits none s ((s.restore k).updateMove k w) :=
    Edits.after (.updateMove _ _ hupd fun y => (hw y).2.2) (.restore s k)
  have hunheld : ((s.restore k).updateMove k w).segs.map Segment.unheld = s.segs.map Segment.unheld := s.restore_unheld k
  have hmove : ((s.restore k).updateMove k w).move? k = some (w m.restored) :=
    State.updateMove_move (s.restore_move k m hm) fun y => (hw y).1
  have hl : (w m.restored).lane = m.lane := (hu.fields m).2.2.2.2.2.2
  unfold State.quit
  generalize (s.restore k).updateMove k w = v at hdeed hedits hunheld hmove ⊢
  have hsame : ∀ y : LaneIx, v.lanes[y] = s.lanes[y] := fun y => hdeed.lanes y (Option.some_ne_none _).symm
  unfold State.leaveLane
  rw [hmove, Option.bind_some, hl]
  cases hml : m.lane with
  | none => exact h.halt_kept hu hdeed hedits hunheld hm fun l hno => by rw [hml] at hno; cases hno
  | some l =>
    dsimp only
    rw [hsame]
    split
    · rename_i hentered
      refine h.halt_kept hu hdeed hedits hunheld hm fun y hy => ?_
      obtain rfl := Option.some.inj (hml.symm.trans hy)
      exact hentered
    · rename_i hentered
      rw [Bool.not_eq_true] at hentered
      have hleft := hdeed.updateMove (w := fun y => { y with lane := none }) fun _ => ⟨rfl, rfl⟩
      have hedits' : Edits none s (v.updateMove k fun y => { y with lane := none }) :=
        Edits.after (.updateMove v k (.plain (fun _ => rfl) fun _ => rfl) fun _ => rfl) hedits
      split
      · rename_i hc
        exact h.halt_withdrawn hu hleft hedits' hunheld hm hml hc hentered
      · rename_i hc
        rw [Bool.not_eq_true] at hc
        exact h.halt_left hu hleft hedits' hunheld hm hml hc

theorem State.Sound.enterStopping (h : s.Sound none) (k : SlotIx) (r : EndReason) : (s.enterStopping k r).Sound none := by
  cases hm : s.move? k with
  | none =>
    rw [State.enterStopping, hm]
    exact h
  | some m =>
    by_cases hs : m.state = .stopping
    · rw [State.enterStopping_again s k r m hm hs]
      exact h
    · rw [State.enterStopping_eq hm hs]
      refine h.quit hm ⟨fun y => ?_, fun _ => .inr rfl, fun _ => ⟨rfl, rfl⟩⟩ (fun _ => ⟨rfl, rfl, rfl⟩)
        ⟨fun _ => rfl, fun hmode _ _ => ⟨?_, rfl⟩⟩
      · obtain ⟨h1, h2, h3, h4, h5, h6, h7, -⟩ := y.restored_face
        show (y.restored.slot, y.restored.bench, y.restored.route, (y.restored.t, y.restored.f, y.restored.h), y.restored.lane) = _
        rw [h1, h2, h3, h4, h5, h6, h7]
      · exact State.startTimer_halted (s := s) ((s.restore_steady k).mode ▸ hmode) _

theorem State.Sound.stallMove (h : s.Sound none) (hm : s.move? k = some m) : (s.stallMove k).Sound none := by
  have hquit : (s.quit k s.stalled).Sound none := by
    refine h.quit hm ⟨fun y => ?_, fun _ => .inl rfl, fun _ => ⟨rfl, rfl⟩⟩ (fun _ => ⟨rfl, rfl, rfl⟩)
      ⟨fun _ => rfl, fun hmode _ _ => ⟨rfl, ?_⟩⟩
    · obtain ⟨h1, h2, h3, h4, h5, h6, h7, -⟩ := y.restored_face
      show (y.restored.slot, y.restored.bench, y.restored.route, (y.restored.t, y.restored.f, y.restored.h), y.restored.lane) = _
      rw [h1, h2, h3, h4, h5, h6, h7]
    · exact State.startTimer_halted (s := s) ((s.restore_steady k).mode ▸ hmode) _
  rw [State.stallMove_eq]
  exact hquit.notify _

end quit

end Sys2Proof.Machine
end


section
/-!
PROOFS. Grants taken back, faults, intrusions on a lane and the lane business of a move that ends keep the laws (R39, R74,
R77, R79, R81 to R88).
-/

open Sys2Proof Sys2Proof.Machine

namespace Sys2Proof.Machine

section revoke
variable {s t v : State} {k i : SlotIx} {l : LaneIx} {b : BerthIx} {x : Option SlotIx} {m m' : Move} {u : Move → Move}
  {g : Nat}

theorem State.Deed.revokeGrant (hc : s.lanes[l].crossing = some ⟨k, false⟩) (hm : s.move? k = some m) :
    s.Deed (s.revokeGrant l) k (fun y => { y.restored with state := .laneWait }) (some l) := by
  have hrest : s.Deed (s.restore k) k Move.restored none := .restore s k hm
  have hdeed := hrest.updateMove (w := fun y => { y with state := .laneWait }) fun _ => ⟨rfl, rfl⟩
  rw [State.revokeGrant_eq hc]
  exact hdeed.oneLane (State.updateLane_oneLane _ l _)

/-- The lane of a grant taken back (R74). -/
theorem State.Laid.beside_revoked (h : s.Laid x) (hc : s.lanes[l].crossing = some ⟨k, false⟩) (hm : s.move? k = some m) {ln : Lane}
    (hln : (ln.lists, ln.berth, ln.crossing, ln.releaseTimer)
      = (s.lanes[l].lists.set s.lanes[l].berth (s.lanes[l].lists[s.lanes[l].berth] ++ [k]), s.lanes[l].berth, none,
        s.lanes[l].releaseTimer)) :
    ln.Beside k s.lanes[l] ∧ ∀ b : BerthIx, k ∈ ln.lists[b] ↔ b = s.lanes[l].berth := by
  simp only [Prod.mk.injEq] at hln
  obtain ⟨hlists, hberth, hcross, htimer⟩ := hln
  have hstopped : ln.releaseTimer = .stopped := htimer.trans ((h.lanes l).record _ hc).2
  have hout : ∀ b : BerthIx, k ∉ s.lanes[l].lists[b] := fun b hb => (h.waits hb hm).not_crosses (h.crosses hc hm)
  have hget : ∀ b : BerthIx, ln.lists[b]
      = if b = s.lanes[l].berth then s.lanes[l].lists[s.lanes[l].berth] ++ [k] else s.lanes[l].lists[b] := fun b => by
    rw [hlists, getElem_set_berth]
  refine ⟨⟨fun b i hi => ?_, fun b => ?_, fun c hck => ?_, hberth, fun _ => hstopped, fun c => Lane.no_record hcross⟩, fun b => ?_⟩
  · rw [hget]
    split
    · rename_i hb
      rw [hb]
      simp [hi]
    · exact Iff.rfl
  · rw [hget]
    split
    · exact List.nodup_append.2 ⟨h.nodup l _, List.nodup_singleton k, fun i hi j hj e =>
        hout _ (List.mem_singleton.1 hj ▸ e ▸ hi)⟩
    · exact h.nodup l b
  · rw [hcross, hc]
    refine ⟨fun h => (by cases h), fun h => ?_⟩
    obtain rfl := Option.some.inj h
    exact absurd rfl hck
  · rw [hget]
    split
    · rename_i hb
      simp [hb]
    · rename_i hb
      exact ⟨fun hin => absurd hin (hout b), fun hin => absurd hin hb⟩

theorem Move.not_eligible_of_crossing (h : m.state = .crossing) : m.eligible = false := by
  rw [Move.eligible, h]
  rfl

theorem State.Sound.revokeGrant (h : s.Sound x) (l : LaneIx) : (s.revokeGrant l).Sound x := by
  cases hc : s.lanes[l].crossing with
  | none => rwa [State.revokeGrant_none hc]
  | some c =>
    obtain ⟨k, e⟩ := c
    cases e with
    | true => rwa [State.revokeGrant_entered hc]
    | false =>
      obtain ⟨hxk, m, hm, hcross⟩ := (h.laid.lanes l).crosser _ hc
      obtain ⟨hslot, hmem⟩ := State.move?_some hm
      have hsound : s.MoveSound m := h.laid.moves m hmem (by rwa [hslot])
      obtain ⟨hstate, -, hberth⟩ := hcross.granted rfl
      obtain ⟨hrs, hrb, hrr, hrt, hrf, hrh, hrl, -, -, hry, hre⟩ := m.restored_face
      have hnot := Move.not_eligible_of_crossing hstate
      have hunheld := s.revokeGrant_unheld l
      have hconfig := Segment.unheld_config hunheld
      have hlane : (s.revokeGrant l).lanes[l] = { s.lanes[l] with
          crossing := none
          offerTimer := .stopped
          lists := s.lanes[l].lists.set s.lanes[l].berth (s.lanes[l].lists[s.lanes[l].berth] ++ [k]) } := by
        rw [State.revokeGrant_lanes hc, lanes_set_get, if_pos rfl]
      obtain ⟨hbeside, hlisted⟩ := h.laid.beside_revoked hc hm (ln := (s.revokeGrant l).lanes[l]) (by rw [hlane])
      refine h.of_deed (.revokeGrant s l) (.revokeGrant hc hm) (fun y => ?_) hm (.inr hcross.lane) (fun y hy => ?_) fun _ => ?_
      · obtain ⟨h1, -, -, -, -, -, h7, -, -, -, h11⟩ := y.restored_face
        exact ⟨h1, fun he => h11.symm.trans he, fun hn => h7.trans hn⟩
      · obtain rfl := Option.some.inj hy
        refine ⟨hbeside, fun b hb => ⟨hxk, rfl, hrl.trans hcross.lane, hrh.trans hrf.symm, ?_⟩, fun c => ?_⟩
        · rw [(hlisted b).1 hb]
          exact hberth.congr hconfig hrr hrt hrf
        · rw [hlane]
          exact Lane.no_record rfl
      · refine ⟨fun _ => ⟨l, s.lanes[l].berth, hrl.trans hcross.lane, ?_⟩, fun hno => (by cases hno), fun _ _ => .inl rfl,
          fun g hg y hy => ?_, hrb ▸ hsound.bench,
          hsound.place_of (m' := { m.restored with state := .laneWait }) hrb hrr hrt hrf
            fun g => State.occupant_congr (State.place_of_unheld hunheld) g, fun hy => ?_, fun he => ?_⟩
        · show m.restored.slot ∈ _
          rw [hrs, hslot]
          exact (hlisted _).2 rfl
        · have hg' : g ∈ m.restored.span m.restored.t m.restored.h := hg
          rw [Move.span_congr hrr, hrt, hrh] at hg'
          rw [State.cellLane_config hconfig, hberth.no_cell hg'] at hy
          cases hy
        · obtain ⟨-, helig, -⟩ := hsound.yields (hry ▸ hy)
          rw [hnot] at helig
          cases helig
        · obtain ⟨helig, -⟩ := hsound.visited (hre.symm.trans he)
          rw [hnot] at helig
          cases helig

/-- After it the record of the lane, if there is one, is of an entered crossing, and the rest of the lane as it was. -/
theorem State.revokeGrant_rest (s : State) (l : LaneIx) :
    (∀ c ∈ (s.revokeGrant l).lanes[l].crossing, c.entered = true)
      ∧ (s.lanes[l].enteredSlot = none → (s.revokeGrant l).lanes[l].crossing = none)
      ∧ (s.revokeGrant l).lanes[l].releaseTimer = s.lanes[l].releaseTimer := by
  cases hc : s.lanes[l].crossing with
  | none =>
    rw [State.revokeGrant_none hc]
    exact ⟨fun c => Lane.no_record hc, fun _ => hc, rfl⟩
  | some c =>
    obtain ⟨k, e⟩ := c
    cases e with
    | true =>
      rw [State.revokeGrant_entered hc, Lane.enteredSlot_of_entered hc, hc]
      exact ⟨fun c hc => (by cases hc; rfl), fun hno => (by cases hno), rfl⟩
    | false =>
      rw [State.revokeGrant_lanes hc, lanes_set_get, if_pos rfl]
      exact ⟨fun c => Lane.no_record rfl, fun _ => rfl, rfl⟩

theorem State.Sound.faultLane (h : s.Sound x) (l : LaneIx) (c : FaultCause) : (s.faultLane l c).Sound x := by
  have hrevoked := h.revokeGrant l
  obtain ⟨hentered, -⟩ := s.revokeGrant_rest l
  unfold State.faultLane
  refine State.Sound.notify (hrevoked.oneLane (.updateLane _ l _ fun _ _ _ => ⟨rfl, rfl, rfl, rfl⟩)
    (State.updateLane_oneLane _ l _) ?_) _
  rw [State.updateLane_get_same]
  exact ⟨hrevoked.laid.nodup l, fun _ _ => Iff.rfl, rfl, fun _ _ => rfl, fun _ => rfl, fun c hc => ⟨.inr ⟨rfl, hentered c hc⟩, rfl⟩⟩

theorem State.Sound.putInFault (h : s.Sound x) (l : LaneIx) (c : FaultCause) : (s.putInFault l c).Sound x := by
  unfold State.putInFault
  split
  · exact (h.changeCause l c).notify _
  · exact h.faultLane l c

theorem State.Sound.strandIf (h : s.Sound x) (b : Nat) (l : LaneIx) : (s.strandIf b l).Sound x := by
  unfold State.strandIf
  split
  · exact h.putInFault l _
  · exact h

theorem State.Sound.strandAll (h : s.Sound x) (b : Nat) : (s.strandAll b).Sound x :=
  (((h.strandIf b 0).strandIf b 1).strandIf b 2).strandIf b 3

theorem State.Sound.crossingLimitExpiry (h : s.Sound none) (l : LaneIx) : (s.crossingLimitExpiry l).Sound none := by
  unfold State.crossingLimitExpiry
  split
  · exact h.faultLane l _
  · exact h

/-- A lane whose grant is taken back is open, unless its crossing is entered or it is faulted. -/
theorem State.Sound.revoked_open (h : s.Sound x) (he : s.lanes[l].enteredSlot = none) (hf : s.lanes[l].state ≠ .faulted) :
    (s.revokeGrant l).lanes[l].Open := by
  obtain ⟨-, hnone, htimer⟩ := s.revokeGrant_rest l
  exact ⟨hnone he, htimer.trans ((h.laid.lanes l).timer hf)⟩

theorem State.Sound.entryDeadlineLapse (h : s.Sound none) (l : LaneIx) : (s.entryDeadlineLapse l).Sound none := by
  unfold State.entryDeadlineLapse
  split
  · rename_i hcond
    obtain ⟨hstate, -, hwaits⟩ := hcond
    refine (h.revokeGrant l).advanceLane (h.revoked_open ?_ (by rw [hstate]; decide))
    unfold Lane.awaitsEntry at hwaits
    cases hc : s.lanes[l].crossing with
    | none => exact Lane.enteredSlot_of_none hc
    | some c =>
      obtain ⟨k, e⟩ := c
      rw [hc] at hwaits
      cases e with
      | true => cases hwaits
      | false => exact Lane.enteredSlot_of_granted hc
  · exact h

/-- The lane takes an intrusion (R81 to R84). -/
theorem State.Sound.intrudeLane (h : s.Sound none) (l : LaneIx) : (s.intrudeLane l).Sound none := by
  have hrec : s.RecordLaw := fun l => ⟨(h.laid.lanes l).timer, (h.laid.lanes l).record⟩
  rcases s.lanes[l].enteredSlot_cases with ⟨he, hf⟩ | ⟨he, hf⟩ | ⟨k, hc⟩
  · rw [State.intrudeLane_settles hrec he hf]
    exact ((h.revokeGrant l).settleLane (h.revoked_open he hf)).notify _
  · rw [State.intrudeLane_faulted hf he]
    refine State.Sound.notify ?_ _
    unfold State.intrudeFaulted
    dsimp only
    split
    · exact h.changeCause l _
    · exact (h.changeCause l _).notify _
  · rw [State.intrudeLane_entered hrec hc]
    exact ((h.putInFault l _).enterStopping k _).notify _

end revoke

/-! ### The lane business of a move that ends (R39, R77, R79) -/

section ending
variable {s t : State} {k : SlotIx} {l : LaneIx} {m : Move} {ln : Lane}

/-- A lane that names the move in slot k no more, as that move ends. -/
theorem State.Laid.drop (h : s.Laid none) (hslots : (s.moves.map (·.slot)).Nodup) (hm : s.move? k = some m) (hl : m.lane = some l)
    (hone : OneLane l s t) (hbeside : t.lanes[l].Beside k s.lanes[l]) (hlists : ∀ b : BerthIx, k ∉ t.lanes[l].lists[b])
    (hcross : ∀ c ∈ t.lanes[l].crossing, c.slot ≠ k) : t.Laid (some k) := by
  have hid : s.moves = (s.updateMove k id).moves := by
    rw [State.updateMove_moves]
    simp
  have hself : s.Deed s k id none := .of_unheld hid (fun _ => ⟨rfl, rfl⟩) rfl rfl rfl rfl fun _ _ => rfl
  refine h.of_deed hslots (hself.oneLane hone) hm (.inr hl) (.inr ⟨rfl, rfl⟩) (fun y hy => ?_) fun hno => absurd rfl hno
  obtain rfl := Option.some.inj hy
  exact ⟨hbeside, fun b hb => absurd hb (hlists b), fun c hc hck => absurd hck (hcross c hc)⟩

/-- A move off the lanes has no lane business when it ends. -/
theorem State.Laid.ending (h : s.Laid none) (hm : s.move? k = some m) (hl : m.lane = none) : s.Laid (some k) :=
  ⟨fun y hy _ => h.moves y hy (Option.some_ne_none _).symm,
    fun l => (h.lanes l).ending fun y hy hyl => (by
      obtain rfl := Option.some.inj (hm.symm.trans hy)
      rw [hl] at hyl
      cases hyl),
    h.queue, h.benches⟩

/-- The lane business of a move that ends leaves no trace of it on the lanes (R39 step 3, R77, R79). -/
theorem State.Sound.endLane (hrun : s.RunBut (some k)) (hlaid : s.Laid none) (hord : s.Ordered) (hm : s.move? k = some m) :
    (s.endLane k).Sound (some k) := by
  obtain ⟨rfl, hmem⟩ := State.move?_some hm
  unfold State.endLane
  rw [hm, Option.bind_some]
  cases hl : m.lane with
  | none => exact ⟨hrun, hlaid.ending hm hl, hord⟩
  | some l =>
    have hdrop : ∀ {t : State}, Edits (some m.slot) s t → OneLane l s t → t.lanes[l].Beside m.slot s.lanes[l] →
        (∀ b : BerthIx, m.slot ∉ t.lanes[l].lists[b]) → (∀ c ∈ t.lanes[l].crossing, c.slot ≠ m.slot) → t.Sound (some m.slot) :=
      fun he hone hbeside hlists hcross => ⟨hrun.of_edits he, hlaid.drop hrun.slots.moves hm hl hone hbeside hlists hcross,
        (State.Calm.oneLane hone).ordered hord⟩
    have hunlisted : s.lanes[l].crosses m.slot = true → ∀ b : BerthIx, m.slot ∉ s.lanes[l].lists[b] := fun hc b hb =>
      (hlaid.waits hb hm).not_crosses (hlaid.crosses (Lane.record_of_crosses hc) hm)
    dsimp only
    split
    · rename_i hentered
      have hc := Lane.crosses_of_entered hentered
      have hlane := s.updateLane_get_same l fun ln => { ln with crossing := none, crossingTimer := .stopped }
      obtain ⟨hbeside, -⟩ := hlaid.beside_withdrawn hc (ln := { s.lanes[l] with crossing := none, crossingTimer := .stopped }) rfl
      refine hdrop (.stopCrossing s l _ fun _ => rfl) (s.updateLane_oneLane l _) ?_ (fun b => ?_) fun c => ?_
      · rw [hlane]
        exact hbeside
      · rw [hlane]
        exact hunlisted hc b
      · rw [hlane]
        exact Lane.no_record rfl
    · split
      · rename_i hc
        have hlane := s.updateLane_get_same l fun ln => { ln with offerTimer := .stopped, crossing := none }
        obtain ⟨hbeside, hopen⟩ := hlaid.beside_withdrawn hc (ln := { s.lanes[l] with offerTimer := .stopped, crossing := none }) rfl
        have hset : (s.updateLane l fun ln => { ln with offerTimer := .stopped, crossing := none }).Sound (some m.slot) := by
          refine hdrop (.stopOffer s l _ fun _ => rfl) (s.updateLane_oneLane l _) ?_ (fun b => ?_) fun c => ?_
          · rw [hlane]
            exact hbeside
          · rw [hlane]
            exact hunlisted hc b
          · rw [hlane]
            exact Lane.no_record rfl
        refine hset.advanceLane ?_
        rw [hlane]
        exact hopen
      · rename_i hc
        have hlane := s.updateLane_get_same l fun ln => { ln with lists := ln.lists.map fun q => q.filter (· ≠ m.slot) }
        obtain ⟨hbeside, hnone⟩ := hlaid.beside_left (k := m.slot)
          (ln := { s.lanes[l] with lists := s.lanes[l].lists.map fun q => q.filter (· ≠ m.slot) }) rfl
        refine State.Sound.leaveList_of (hdrop (.updateLane_plain s l _ fun _ => rfl) (s.updateLane_oneLane l _) ?_ (fun b => ?_)
          fun c hcr hck => hc ?_)
        · rw [hlane]
          exact hbeside
        · rw [hlane]
          exact hnone b
        · rw [hlane] at hcr
          exact Lane.crosses_iff_mem.2 ⟨c, hcr, hck⟩

end ending

end Sys2Proof.Machine
end


section
/-!
PROOFS. Changes of a move off the lanes, and of a lane's crossing move (R48, R49, R71, R73, R78).
-/

open Sys2Proof Sys2Proof.Machine

namespace Sys2Proof.Machine

section touch
variable {s t v : State} {k i : SlotIx} {l : LaneIx} {b : BerthIx} {x : Option SlotIx} {m m' : Move} {u : Move → Move}
  {g : Nat} {e : Bool}

/-! ### A move off the lanes -/

/-- A move off the lanes holds no cell. -/
theorem State.Laid.off_cells (h : s.Laid x) (hm : s.move? m.slot = some m) (hsound : s.MoveSound m) (hl : m.lane = none)
    (hg : g ∈ m.span m.t m.h) : s.cellLane g = none := by
  cases hc : s.cellLane g with
  | none => rfl
  | some l =>
    have hrec := Lane.record_of_crosses (hsound.cells g hg l hc)
    have hlane := (h.crosses hrec hm).lane
    rw [hl] at hlane
    cases hlane

theorem State.MoveSound.free (hl : m.lane = none) (hstate : m.state ≠ .laneWait ∧ m.state ≠ .crossing) (hbench : m.bench ≠ 0)
    (hcells : ∀ g ∈ m.span m.t m.h, s.cellLane g = none)
    (hplace : ∀ g, s.occupant g = some (.bench m.bench) ↔ g ∈ m.span m.t m.f) (hyields : m.YieldLaw)
    (hvisited : m.extending = true → m.eligible = true ∧ m.yield = .clear) : s.MoveSound m := by
  refine ⟨fun hw => absurd hw hstate.1, fun hc => absurd hc hstate.2, fun l hno => ?_, fun g hg l hlg => ?_, hbench, hplace,
    hyields, hvisited⟩
  · rw [hl] at hno
    cases hno
  · rw [hcells g hg] at hlg
    cases hlg

/-- A change of a move that stays off the lanes. -/
theorem State.Laid.free (h : s.Laid none) (hslots : (s.moves.map (·.slot)).Nodup) (d : s.Deed t k u none)
    (hm : s.move? k = some m) (hl : m.lane = none) (hl' : (u m).lane = none)
    (hstate : (u m).state ≠ .laneWait ∧ (u m).state ≠ .crossing)
    (hcells : ∀ g ∈ (u m).span (u m).t (u m).h, s.cellLane g = none)
    (hplace : ∀ g, t.occupant g = some (.bench m.bench) ↔ g ∈ (u m).span (u m).t (u m).f) (hyields : (u m).YieldLaw)
    (hvisited : (u m).extending = true → (u m).eligible = true ∧ (u m).yield = .clear) : t.Laid none := by
  obtain ⟨rfl, hmem⟩ := State.move?_some hm
  refine h.of_deed hslots d hm (.inl hl) (.inl rfl) (fun _ hno => absurd hno (Option.some_ne_none _).symm) fun _ => ?_
  obtain ⟨-, hbench⟩ := d.kept m
  refine .free hl' hstate (hbench ▸ (h.moves m hmem (Option.some_ne_none _).symm).bench) (fun g hg => ?_) (fun g => ?_) hyields hvisited
  · rw [State.cellLane_config d.config]
    exact hcells g hg
  · rw [hbench]
    exact hplace g

theorem State.MoveSound.marks (h : s.MoveSound m) (hno : m.eligible = false) : m.yield = .clear ∧ m.extending = false := by
  constructor
  · by_contra hy
    obtain ⟨-, helig, -⟩ := h.yields hy
    rw [hno] at helig
    cases helig
  · cases he : m.extending with
    | false => rfl
    | true =>
      obtain ⟨helig, -⟩ := h.visited he
      rw [hno] at helig
      cases helig

theorem State.indexState_cases (s : State) (m : Move) : s.indexState m = .moving ∨ s.indexState m = .blocked := by
  unfold State.indexState
  rcases s.tableState_cases m with h | ⟨h, -⟩ | ⟨h, -⟩ <;> rw [h] <;> simp

/-- A move off the lanes takes its state by its indices (R48). -/
theorem State.Sound.settleByIndices (h : s.Sound none) (hm : s.move? k = some m) (hl : m.lane = none) :
    (s.settleByIndices k).Sound none := by
  obtain ⟨rfl, hmem⟩ := State.move?_some hm
  have hsound := h.move hm
  have helig : ({ m with state := s.indexState m } : Move).eligible = true := by
    rcases s.indexState_cases m with he | he <;> simp [Move.eligible, he]
  have hd : s.Deed (s.settleByIndices m.slot) m.slot (fun y => { y with state := s.indexState y }) none :=
    .of_updateMove s m.slot fun _ => ⟨rfl, rfl⟩
  refine h.of (.settleByIndices s _) (.updateMove s m.slot fun y => ⟨rfl, id, id⟩)
    (h.laid.free h.run.slots.moves hd hm hl hl ?_ (fun g hg => h.laid.off_cells hm hsound hl hg) hsound.place (fun hy => ?_)
      fun he => ⟨helig, (hsound.visited he).2⟩)
  · show s.indexState m ≠ .laneWait ∧ s.indexState m ≠ .crossing
    rcases s.indexState_cases m with he | he <;> rw [he] <;> decide
  · obtain ⟨hshed, -, hfront⟩ := hsound.yields hy
    exact ⟨hshed, helig, hfront⟩

theorem State.Sound.settleProgress (h : s.Sound none) (k : SlotIx) : (s.settleProgress k).Sound none := by
  unfold State.settleProgress
  split
  · rename_i m hm
    split
    · rename_i helig
      obtain ⟨rfl, -⟩ := State.move?_some hm
      exact (h.settleByIndices hm ((h.move hm).lane_of_eligible h.laid hm helig)).trigger
    · exact h
  · exact h

/-! ### A lane's crossing move -/

theorem State.MoveSound.crosser (hcross : s.Crosses m l b e) (hrec : s.lanes[l].crosses m.slot = true) (hbench : m.bench ≠ 0)
    (hplace : ∀ g, s.occupant g = some (.bench m.bench) ↔ g ∈ m.span m.t m.f)
    (hmarks : m.yield = .clear ∧ m.extending = false) : s.MoveSound m := by
  refine ⟨fun hw => ?_, fun _ => ?_, fun l' hl' => .inr ?_, fun g hg l' hl' => ?_, hbench, hplace, fun hy => absurd hmarks.1 hy,
    fun he => ?_⟩
  · rcases hcross.state with hs | hs | hs <;> rw [hs] at hw <;> cases hw
  · rw [hcross.lane]
    exact Option.some_ne_none l
  · obtain rfl := Option.some.inj (hcross.lane.symm.trans hl')
    exact hrec
  · rw [hcross.cells g hg l' hl']
    exact hrec
  · rw [hmarks.2] at he
    cases he

/-- A change of a lane's crossing move, with the lane's own change. -/
theorem State.Sound.crosser (h : s.Sound none) (he : Edits none s t) (d : s.Deed t k u (some l)) (hcalm : Move.CalmBy u)
    (hm : s.move? k = some m) (hl : m.lane = some l) (hbeside : t.lanes[l].Beside k s.lanes[l])
    (hlists : ∀ b : BerthIx, k ∉ t.lanes[l].lists[b]) (hrec : t.lanes[l].crossing = some ⟨k, e⟩)
    (hcross : t.Crosses (u m) l t.lanes[l].berth e)
    (hplace : ∀ g, t.occupant g = some (.bench m.bench) ↔ g ∈ (u m).span (u m).t (u m).f)
    (hmarks : (u m).yield = .clear ∧ (u m).extending = false) : t.Sound none := by
  obtain ⟨rfl, hmem⟩ := State.move?_some hm
  obtain ⟨hslot, hbench⟩ := d.kept m
  refine h.of_deed he d hcalm hm (.inr hl) (fun y hy => ?_) fun _ => ?_
  · obtain rfl := Option.some.inj hy
    refine ⟨hbeside, fun b hb => absurd hb (hlists b), fun c hc _ => ⟨(Option.some_ne_none _).symm, ?_⟩⟩
    obtain rfl := Option.some.inj (hrec.symm.trans hc)
    exact hcross
  · refine .crosser hcross ?_ (hbench ▸ (h.move hm).bench) (fun g => hbench ▸ hplace g) hmarks
    rw [hslot]
    exact Lane.crosses_iff_mem.2 ⟨_, hrec, rfl⟩

end touch

end Sys2Proof.Machine
end


section
/-!
PROOFS. The cells of a crossing (R26, R64), and the grants of crossings and their resumption (R70, R71, R78, R123).
-/

open Sys2Proof Sys2Proof.Machine

namespace Sys2Proof.Machine

section run
variable {s t v : State} {k i : SlotIx} {l : LaneIx} {b : BerthIx} {x : Option SlotIx} {m m' : Move} {u : Move → Move}
  {g p j : Nat} {e : Bool}

/-! ### Runs of cells on a route (R26, R64) -/

/-- Two consecutive segments of a route pass the check of steps. -/
theorem State.RouteLaw.step (h : s.RouteLaw m.route) (hp : p + 1 < m.route.length) :
    s.stepOk (m.seg p) (m.seg (p + 1)) = true := by
  obtain ⟨-, -, -, -, -, -, -, hsteps⟩ := (s.routeOk_iff _ _).1 h
  refine hsteps p _ _ ?_ ?_
  · rw [List.getElem?_eq_getElem (by omega), Move.seg, List.getD_eq_getElem _ _ (by omega)]
  · rw [List.getElem?_eq_getElem hp, Move.seg, List.getD_eq_getElem _ _ hp]

theorem State.cellLane_of_isCell (h : s.isCell g = true) : ∃ l, s.cellLane g = some l := Option.isSome_iff_exists.1 h

/-- The next cell of a route is of the lane of the last, or of the lane of the berth it is entered from. -/
theorem State.RouteLaw.next_cell (h : s.RouteLaw m.route) (hp : p + 1 < m.route.length)
    (hl : s.cellLane (m.seg p) = some l ∨ s.berthOf (m.seg p) = some (l, b)) (hcell : s.isCell (m.seg (p + 1)) = true) :
    s.cellLane (m.seg (p + 1)) = some l := by
  obtain ⟨-, hinto, -⟩ := (s.stepOk_iff _ _).1 (h.step hp)
  obtain ⟨y, hy⟩ := State.cellLane_of_isCell hcell
  rw [hy]
  rcases hinto y hy with hsame | ⟨hno, j, hj⟩
  · rcases hl with hl | hl
    · exact hsame.symm.trans hl
    · rw [State.cellLane_of_berth hl] at hsame
      cases hsame
  · rcases hl with hl | hl
    · rw [State.isCell_of_cellLane hl] at hno
      cases hno
    · rw [hl] at hj
      exact congrArg some (Prod.mk.inj (Option.some.inj hj)).1.symm

/-- A run of cells that begins beyond a segment of lane l is of lane l. -/
theorem State.RouteLaw.run_lane (h : s.RouteLaw m.route)
    (hl : s.cellLane (m.seg p) = some l ∨ s.berthOf (m.seg p) = some (l, b)) :
    ∀ n, p + n + 1 < m.route.length → (∀ i, p < i → i ≤ p + n + 1 → s.isCell (m.seg i) = true) →
      s.cellLane (m.seg (p + n + 1)) = some l
  | 0, hlt, hcells => h.next_cell (b := b) hlt hl (hcells _ (Nat.lt_succ_self p) le_rfl)
  | n + 1, hlt, hcells => by
    have ih := State.RouteLaw.run_lane h hl n (by omega) fun i hi hle => hcells i hi (by omega)
    exact h.next_cell (b := b) hlt (.inl ih) (hcells _ (by omega) (by omega))

/-- The position past the cells: they are cells up to it, and it is none. -/
theorem State.pastCells_spec (s : State) (m : Move) (i : Nat) :
    (∀ j, i ≤ j → j < s.pastCells m i → s.isCell (m.seg j) = true)
      ∧ (s.pastCells m i < m.route.length → s.isCell (m.seg (s.pastCells m i)) = false) := by
  unfold State.pastCells
  have hget : ∀ (n : Nat) (hn : n < (m.route.drop i).length), m.seg (i + n) = (m.route.drop i)[n] := by
    intro n hn
    rw [List.length_drop] at hn
    rw [Move.seg, List.getD_eq_getElem _ _ (by omega), List.getElem_drop]
  constructor
  · intro j hij hj
    obtain ⟨n, rfl⟩ := Nat.exists_eq_add_of_le hij
    have hn : n < ((m.route.drop i).takeWhile s.isCell).length := by omega
    have hmem := List.getElem_mem hn
    have hin := List.mem_takeWhile_imp hmem
    rw [(List.takeWhile_prefix s.isCell).getElem hn] at hin
    rwa [hget n (hn.trans_le (List.takeWhile_prefix s.isCell).length_le)]
  · intro hlt
    have hn : ((m.route.drop i).takeWhile s.isCell).length < (m.route.drop i).length := by
      rw [List.length_drop]
      omega
    rw [hget _ hn]
    have hdrop := List.takeWhile_append_dropWhile (p := s.isCell) (l := m.route.drop i)
    have hne : (m.route.drop i).dropWhile s.isCell ≠ [] := by
      intro hnil
      rw [hnil, List.append_nil] at hdrop
      rw [hdrop] at hn
      exact absurd hn (lt_irrefl _)
    have hhead := List.head_dropWhile_not (p := s.isCell) (l := m.route.drop i) hne
    have hfirst : (m.route.drop i)[((m.route.drop i).takeWhile s.isCell).length]'hn = ((m.route.drop i).dropWhile s.isCell).head hne := by
      have hlook := congrArg (fun q : List Nat => q[((m.route.drop i).takeWhile s.isCell).length]?) hdrop
      rw [List.getElem?_append_right le_rfl, Nat.sub_self, List.getElem?_eq_getElem hn, ← List.head?_eq_getElem?,
        List.head?_eq_some_head hne] at hlook
      exact (Option.some.inj hlook).symm
    rw [hfirst]
    exact hhead

/-- What a crossing move holds ahead from its front to position e, past the cells of lane l. -/
theorem State.RouteLaw.span_lane (h : s.RouteLaw m.route) {f n : Nat}
    (hl : s.cellLane (m.seg f) = some l ∨ s.berthOf (m.seg f) = some (l, b))
    (hcells : ∀ i, f < i → i < n → s.isCell (m.seg i) = true) (hend : s.isCell (m.seg n) = false)
    (hg : g ∈ m.span (f + 1) n) {y : LaneIx} (hy : y ∈ s.cellLane g) : y = l := by
  obtain ⟨q, hlo, hhi, hlt, rfl⟩ := Move.mem_span.1 hg
  rcases Nat.lt_or_ge q n with hq | hq
  · obtain ⟨d, rfl⟩ := Nat.exists_eq_add_of_le hlo
    have hlane := h.run_lane (b := b) hl d (by omega) fun i hi hle => hcells i hi (by omega)
    rw [Nat.add_right_comm] at hy
    rw [hlane] at hy
    exact (Option.some.inj hy).symm
  · obtain rfl : q = n := by omega
    rw [State.isCell_of_cellLane hy] at hend
    cases hend

/-- What a crossing move is granted ahead: the rest of its run and the exit berth (R64, R71, R78). -/
theorem State.RouteLaw.granted_run (h : s.RouteLaw m.route) {f n : Nat}
    (hl : s.cellLane (m.seg f) = some l ∨ s.berthOf (m.seg f) = some (l, b))
    (hn : n = s.pastCells m (f + 1)) (hlt : n < m.route.length) :
    s.isCell (m.seg n) = false ∧ (∀ i < n, f < i → s.isCell (m.seg i) = true)
      ∧ ∀ g ∈ m.span (f + 1) n, ∀ y ∈ s.cellLane g, y = l := by
  obtain ⟨hcells, hend⟩ := s.pastCells_spec m (f + 1)
  rw [← hn] at hcells hend
  have hall : ∀ i < n, f < i → s.isCell (m.seg i) = true := fun i hi hf => hcells i hf hi
  exact ⟨hend hlt, hall, fun g hg y hy => h.span_lane hl (fun i hf hi => hall i hi hf) (hend hlt) hg hy⟩

theorem Move.drop_cell (hcell : s.isCell (m.seg p) = true) (hp : p < m.route.length) :
    ((m.route.drop p).takeWhile s.isCell).length = ((m.route.drop (p + 1)).takeWhile s.isCell).length + 1 := by
  have hseg : m.seg p = m.route[p] := by rw [Move.seg, List.getD_eq_getElem _ _ hp]
  rw [List.drop_eq_getElem_cons hp, List.takeWhile_cons, if_pos (hseg ▸ hcell), List.length_cons]

theorem State.hold_occupant (s : State) (k : SlotIx) (ids : List Nat) (g : Nat) : (s.hold k ids).occupant g = s.occupant g := by
  refine State.occupant_congr ?_ g
  show (s.segs.map _).map _ = _
  rw [List.map_map]
  refine List.map_congr_left fun r _ => ?_
  show (if r.id ∈ ids then { r with holder := some k } else r).place = r.place
  split <;> rfl

/-! ### The grant of a crossing (R70, R71) -/

theorem State.offerGrant_found (h : s.offerGrant l = some (m, p)) : s.lanes[l].state = .offering
    ∧ m.slot ∈ s.lanes[l].lists[s.lanes[l].berth] ∧ s.move? m.slot = some m ∧ p = s.pastCells m (m.h + 1) ∧ p < m.route.length
    ∧ ∀ g ∈ m.span (m.h + 1) p, s.grantable m.token g = true := by
  unfold State.offerGrant at h
  split at h
  · rename_i hcond
    split at h
    · rename_i k hhead
      split at h
      · rename_i y hy
        split at h
        · rename_i hgrant
          simp only [Option.some.injEq, Prod.mk.injEq] at h
          obtain ⟨rfl, rfl⟩ := h
          obtain ⟨rfl, -⟩ := State.move?_some hy
          obtain ⟨hlt, hfree⟩ := (s.grantableTo_iff _ _).1 hgrant
          exact ⟨hcond.2, List.mem_of_head? hhead, hy, rfl, hlt, hfree⟩
        · cases h
      · cases h
    · cases h
  · cases h

/-- The mark of the states that are off the arbiter's hands. -/
theorem State.MoveSound.marks_of_state (h : s.MoveSound m) (hs : m.state ≠ .moving ∧ m.state ≠ .blocked) :
    m.yield = .clear ∧ m.extending = false :=
  h.marks (by simp [Move.eligible, hs.1, hs.2])

/-- A waiting move that is granted the cells before it and the berth beyond them is a crossing move (R71). -/
theorem State.Waits.granted {c : BerthIx} (hwaits : s.Waits m l c) (hroute : s.RouteLaw m.route) (hp : p = s.pastCells m (m.h + 1))
    (hlt : p < m.route.length) (hconfig : t.segs.map Segment.config = s.segs.map Segment.config) (a : Timer) :
    t.Crosses { m.pushed p with state := .crossing, silence := a } l c false := by
  obtain ⟨htf, hberth, -⟩ := hwaits.berth
  have hfront := hwaits.front
  obtain ⟨hend, hall, hrun⟩ := hroute.granted_run (.inr hberth) (hfront ▸ hp) hlt
  have hfp : m.f < p := by
    have hle := s.le_pastCells m (m.h + 1)
    omega
  refine ⟨hwaits.lane, fun g hg y hy => ?_, fun _ => ⟨rfl, hfp, hwaits.berth.congr hconfig rfl rfl rfl⟩,
    fun hno => (by cases hno), fun _ => ?_⟩
  · rw [State.cellLane_config hconfig] at hy
    have hg' : g ∈ m.span m.t p := hg
    rcases (Move.mem_span_split (j := m.f) (by omega) hfp.le).1 hg' with hback | hahead
    · rw [hwaits.berth.no_cell hback] at hy
      cases hy
    · exact hrun g hahead y hy
  · rw [State.isCell_config hconfig]
    exact ⟨hend, hall⟩

theorem State.Sound.grantCrossing (h : s.Sound none) (hedits : Edits none s (s.grantCrossing l m p))
    (hgrant : s.offerGrant l = some (m, p)) : (s.grantCrossing l m p).Sound none := by
  obtain ⟨hoffer, hin, hm, hp, hlt, -⟩ := State.offerGrant_found hgrant
  obtain ⟨hroute, -, -⟩ := h.run.runs m (State.move?_some hm).2
  have hwaits := h.laid.waits hin hm
  have hsound := h.move hm
  have hopen : s.lanes[l].Open := h.laid.quiet_open (by rw [hoffer]; decide) (by rw [hoffer]; decide)
  have hhold : s.Deed ((s.hold m.slot (m.span (m.h + 1) p)).updateMove m.slot fun x =>
      { x.pushed p with state := .crossing, silence := s.startTimer s.silenceFull }) m.slot (fun x =>
      { x.pushed p with state := .crossing, silence := s.startTimer s.silenceFull }) none := .hold s m.slot _ fun _ => ⟨rfl, rfl⟩
  have hdeed := hhold.oneLane (t := s.grantCrossing l m p) (State.updateLane_oneLane _ l _)
  have hocc : ∀ g, (s.grantCrossing l m p).occupant g = s.occupant g := s.hold_occupant m.slot (m.span (m.h + 1) p)
  have hlane : (s.grantCrossing l m p).lanes[l] = { s.lanes[l] with
      lists := s.lanes[l].lists.map fun q => q.filter (· ≠ m.slot)
      state := .crossing
      crossing := some ⟨m.slot, false⟩
      offerTimer := s.startTimer (s.offerFull l)
      standoff := false } := State.updateLane_get_same _ l _
  obtain ⟨hleft, hnone⟩ := h.laid.beside_left (k := m.slot)
    (ln := { s.lanes[l] with lists := s.lanes[l].lists.map fun q => q.filter (· ≠ m.slot) }) rfl
  refine h.crosser (e := false) hedits hdeed (fun y => ⟨rfl, id, id⟩) hm hwaits.lane ?_ ?_ ?_ ?_ (fun g => ?_)
    (hsound.marks_of_state (by rw [hwaits.state]; decide))
  · rw [hlane]
    refine ⟨hleft.listed, hleft.nodup, fun c hc => ?_, rfl, fun _ => hopen.timer, fun c _ => ⟨.inl rfl, hopen.timer⟩⟩
    rw [hopen.crossing]
    refine ⟨fun hin => ?_, fun hin => (by cases hin)⟩
    obtain rfl := Option.some.inj hin
    exact absurd rfl hc
  · rw [hlane]
    exact hnone
  · rw [hlane]
  · rw [hlane]
    exact hwaits.granted hroute hp hlt hdeed.config _
  · rw [hocc]
    exact hsound.place g

theorem State.Sound.offerCheck (h : s.Sound none) (l : LaneIx) : (s.offerCheck l).Sound none := by
  have hedits : Edits none s (s.offerCheck l) := .offerCheck s l
  unfold State.offerCheck at hedits ⊢
  split
  · rename_i m p hgrant
    rw [hgrant] at hedits
    exact h.grantCrossing hedits hgrant
  · exact h

/-! ### The rest of a crossing (R78, R123) -/

/-- A crossing move that stands on a cell is granted the rest of its cells and the berth beyond them (R78). -/
theorem State.Crosses.grantedRest {c : BerthIx} (hcross : s.Crosses m l c true) (hroute : s.RouteLaw m.route) (hindex : m.IndexLaw)
    (hcell : s.isCell (m.seg m.f) = true) (hstate : m.state = .crossing) (hhf : m.h = m.f) (hp : p = s.pastCells m (m.f + 1))
    (hlt : p < m.route.length) (hconfig : t.segs.map Segment.config = s.segs.map Segment.config) (a : Timer) :
    t.Crosses { m.pushed p with silence := a } l c true := by
  obtain ⟨htf, hfh, hlen, -⟩ := hindex
  have hfp : m.f + 1 ≤ p := hp ▸ s.le_pastCells m (m.f + 1)
  obtain ⟨y, hy⟩ := State.cellLane_of_isCell hcell
  have hfront : m.seg m.f ∈ m.span m.t m.h := Move.mem_span.2 ⟨m.f, htf, hfh, by omega, rfl⟩
  obtain rfl := hcross.cells _ hfront y hy
  obtain ⟨hend, hall, hrun⟩ := hroute.granted_run (b := 0) (.inl hy) hp hlt
  refine ⟨hcross.lane, fun g hg z hz => ?_, fun hno => (by cases hno), fun _ => ?_, fun _ => ?_⟩
  · rw [State.cellLane_config hconfig] at hz
    have hg' : g ∈ m.span m.t p := hg
    rcases (Move.mem_span_split (j := m.f) (by omega) (by omega)).1 hg' with hback | hahead
    · exact hcross.cells g (Move.span_mono (hhf ▸ le_rfl) hback) z hz
    · exact hrun g hahead z hz
  · rw [State.isCell_config hconfig]
    obtain ⟨-, hon, -⟩ := hcross.entered rfl
    exact ⟨.inl hstate, hon, fun hno => by rw [← Bool.not_eq_true] at hno; exact absurd hcell hno⟩
  · rw [State.isCell_config hconfig]
    exact ⟨hend, hall⟩

/-- A crossing move that holds nothing ahead and has cells before it stands on a cell. -/
theorem State.exitEntered_ahead (hp : p = s.exitEntered m) (hlt : m.f < p) (hlen : m.f < m.route.length) :
    s.isCell (m.seg m.f) = true ∧ p = s.pastCells m (m.f + 1) := by
  have hcell : s.isCell (m.seg m.f) = true := by
    by_contra hno
    rw [State.exitEntered, if_neg hno] at hp
    omega
  refine ⟨hcell, ?_⟩
  rw [State.exitEntered, if_pos hcell] at hp
  rw [hp, State.pastCells, State.pastCells, Move.drop_cell hcell hlen]
  omega

theorem State.Sound.resumeCrossing (h : s.Sound none) (l : LaneIx) : (s.resumeCrossing l).Sound none := by
  have hedits : Edits none s (s.resumeCrossing l) := .resumeCrossing s l
  unfold State.resumeCrossing at hedits ⊢
  split
  · rename_i m p hwait
    rw [hwait] at hedits
    dsimp only at hedits
    split
    · rename_i hgrant
      rw [if_pos hgrant] at hedits
      obtain ⟨-, hmem, hstate, hhf, hlt, hp, hrec⟩ := State.awaitsRest_some hwait
      have hm := State.move?_of_mem h.run.slots.moves hmem
      obtain ⟨hlen, -⟩ := (s.grantableTo_iff _ _).1 hgrant
      obtain ⟨hroute, hindex, -⟩ := h.run.runs m hmem
      have hcross := h.laid.crosses hrec hm
      have hsound := h.move hm
      obtain ⟨hcell, hpast⟩ := State.exitEntered_ahead hp hlt (hlt.trans hlen)
      have hdeed : s.Deed ((s.hold m.slot (m.span (m.h + 1) p)).updateMove m.slot fun x =>
          { x.pushed p with silence := s.startTimer s.silenceFull }) m.slot (fun x =>
          { x.pushed p with silence := s.startTimer s.silenceFull }) (some l) := .hold s m.slot _ fun _ => ⟨rfl, rfl⟩
      have hocc := State.hold_occupant s m.slot (m.span (m.h + 1) p)
      refine h.crosser (e := true) hedits hdeed (fun y => ⟨rfl, id, id⟩) hm hcross.lane (h.laid.beside_self l _ rfl)
        (fun b hb => (h.laid.waits hb hm).not_crosses hcross) hrec
        (hcross.grantedRest hroute hindex hcell hstate hhf hpast hlen hdeed.config _) (fun g => ?_)
        (hsound.marks_of_state (by rw [hstate]; decide))
      rw [State.updateMove_occupant_look, hocc]
      exact hsound.place g
    · exact h
  · exact h

theorem State.Sound.makeAsk (h : s.Sound none) (l : LaneIx) : (s.makeAsk l).Sound none := by
  refine State.Sound.resumeCrossing ?_ l
  exact h.alike (.one (.asks l false (by simp))) (.beside rfl rfl rfl) rfl (fun _ => .refl _) rfl fun _ hq => hq

theorem State.enteredLane_some (h : s.enteredLane k = some l) : s.lanes[l].entered k = true := by
  unfold State.enteredLane at h
  exact List.find?_some (p := fun l : LaneIx => s.lanes[l].entered k) h

theorem State.enteredLane_none (h : s.enteredLane k = none) (l : LaneIx) : s.lanes[l].entered k = false := by
  unfold State.enteredLane at h
  have hall := List.find?_eq_none.1 h l (by revert l; decide)
  simpa using hall

/-- The entered crossing of a stalled move goes on (R123). -/
theorem State.Sound.recross (h : s.Sound none) (hm : s.move? k = some m) (hrec : s.lanes[l].crossing = some ⟨k, true⟩)
    (hmarks : m.yield = .clear ∧ m.extending = false) : (s.updateMove k fun m => { m with state := .crossing }).Sound none := by
  obtain ⟨rfl, -⟩ := State.move?_some hm
  have hcross := h.laid.crosses hrec hm
  refine h.crosser (e := true) (.updateMove s m.slot (.plain (fun _ => rfl) fun _ => rfl) fun _ => rfl)
    (.of_updateMove s m.slot fun _ => ⟨rfl, rfl⟩) (fun _ => ⟨rfl, id, id⟩) hm hcross.lane (h.laid.beside_self l _ rfl)
    (fun b hb => (h.laid.waits hb hm).not_crosses hcross) hrec ?_ (h.move hm).place hmarks
  exact ⟨hcross.lane, hcross.cells, fun hno => (by cases hno), fun he => ⟨.inl rfl, (hcross.entered he).2⟩, hcross.ahead⟩

/-- A retry puts the move back on its crossing, or off the lanes by its indices (R123). -/
theorem State.Sound.retryMove (h : s.Sound none) (hm : s.move? k = some m) (hstate : m.state = .stalled) :
    (s.retryMove k).Sound none := by
  obtain ⟨rfl, -⟩ := State.move?_some hm
  have hsound := h.move hm
  have hfirst : (s.updateMove m.slot fun m => { m with retries := m.retries - 1, backoff := .stopped }).Sound none := by
    refine h.alike (.updateMove s m.slot ⟨fun _ => rfl, fun _ _ hh => ⟨hh.1, rfl⟩⟩ fun _ => rfl)
      (.updateMove s m.slot fun _ => ⟨rfl, id, id⟩) ?_ (fun _ => .refl _) rfl fun _ hq => hq
    exact s.updateMove_map m.slot (u := fun m => { m with retries := m.retries - 1, backoff := .stopped }) Move.face fun _ => rfl
  have hfound : (s.updateMove m.slot fun m => { m with retries := m.retries - 1, backoff := .stopped }).move? m.slot
      = some { m with retries := m.retries - 1, backoff := .stopped } := State.updateMove_move hm fun _ => rfl
  unfold State.retryMove
  dsimp only
  split
  · rename_i l hentered
    have hin := State.enteredLane_some hentered
    have hrec := Lane.record_of_crosses (Lane.crosses_of_entered hin)
    rw [hin] at hrec
    have hcross := h.laid.crosses hrec hm
    exact ((hfirst.recross hfound hrec (hsound.marks_of_state (by rw [hstate]; decide))).resumeCrossing l).trigger
  · rename_i hentered
    have hl : m.lane = none := by
      cases hl : m.lane with
      | none => rfl
      | some l =>
        rcases hsound.named l hl with hw | hc
        · rw [hstate] at hw
          cases hw
        · have hrec := Lane.record_of_crosses hc
          rw [State.enteredLane_none hentered l] at hrec
          obtain ⟨hs, -⟩ := (h.laid.crosses hrec hm).granted rfl
          rw [hstate] at hs
          cases hs
    exact (hfirst.settleByIndices hfound hl).trigger

end run

end Sys2Proof.Machine
end


section
/-!
PROOFS. Changes of the rail's records beside the places of the live benches (R11 to R19), and the marks of an advance and of
a tail release (R51, R101).
-/

open Sys2Proof Sys2Proof.Machine

namespace Sys2Proof.Machine

section rail
variable {s t v : State} {k i : SlotIx} {l : LaneIx} {b c : Nat} {x : Option SlotIx} {m m' : Move} {u : Move → Move}
  {w : Segment → Segment} {g a : Nat} {ids : List Nat}

theorem State.updateSegs_occupant (hw : ∀ r, (w r).id = r.id) : (s.updateSegs ids w).occupant g
    = (s.seg? g).bind fun r => if g ∈ ids then (w r).occupant else r.occupant := by
  rw [State.occupant, State.seg?_updateSegs _ _ _ _ hw]
  cases s.seg? g with
  | none => rfl
  | some r =>
    simp only [Option.map_some, Option.bind_some]
    split <;> rfl

/-- A change of records that leaves the live benches where they are. -/
theorem State.Sound.updateSegs (h : s.Sound x) (edits : Edits x s (s.updateSegs ids w)) (hw : ∀ r, (w r).config = r.config)
    (hplace : ∀ m ∈ s.moves, ∀ g ∈ ids, ∀ r, s.seg? g = some r →
      ((w r).occupant = some (.bench m.bench) ↔ r.occupant = some (.bench m.bench))) : (s.updateSegs ids w).Sound x := by
  refine h.of edits (.beside rfl rfl rfl) (h.laid.of_alike h.run rfl (fun _ => .refl _)
    (map_config_of_map fun r => by split <;> [exact hw r; rfl]) (fun _ hq => hq) fun i m hm g => ?_)
  rw [State.updateSegs_occupant fun r => congrArg Prod.fst (hw r), State.occupant]
  cases hseg : s.seg? g with
  | none => rfl
  | some r =>
    simp only [Option.bind_some]
    split
    · rename_i hg
      exact hplace m (State.move?_some hm).2 g hg r hseg
    · rfl

theorem State.Sound.setFence (h : s.Sound x) (ids : List Nat) (c : FenceCause) : (s.setFence ids c).Sound x :=
  h.updateSegs (.setFence s ids c) (fun _ => rfl) fun _ _ _ _ _ _ => Iff.rfl

theorem State.Sound.survey (h : s.Sound x) (g : Nat) : (s.survey g).Sound x :=
  h.updateSegs (.survey s g) (fun _ => rfl) fun _ _ _ _ _ _ => Iff.rfl

theorem State.occupant_of_seg {r : Segment} (hseg : s.seg? g = some r) : s.occupant g = r.occupant := by
  rw [State.occupant, hseg]
  rfl

/-- A clear of a segment that no live bench stands on. -/
theorem State.Sound.clear (h : s.Sound x) (hg : ∀ m ∈ s.moves, s.occupant g ≠ some (.bench m.bench)) : (s.clear g).Sound x := by
  refine h.updateSegs (.clear s g) (fun _ => rfl) fun m hm g' hg' r hseg => ?_
  obtain rfl := List.mem_singleton.1 hg'
  rw [← State.occupant_of_seg hseg]
  exact ⟨fun hno => (by cases hno), fun hyes => absurd hyes (hg m hm)⟩

/-- A vacate request for a bench with no live move. -/
theorem State.Sound.vacate (h : s.Sound x) (g : Nat) (hb : ∀ m ∈ s.moves, m.bench ≠ b) : (s.vacate g b).Sound x := by
  refine h.updateSegs (.vacate s g b) (fun r => by split <;> rfl) fun m hm g' _ r _ => ?_
  split
  · rename_i ho
    rw [ho]
    refine ⟨fun hno => (by cases hno), fun hyes => ?_⟩
    simp only [Option.some.injEq, Occupant.bench.injEq] at hyes
    exact absurd hyes.symm (hb m hm)
  · exact Iff.rfl

/-- A mark that names no live bench, of a segment that none stands on. -/
theorem State.Sound.mark (h : s.Sound x) (hg : ∀ m ∈ s.moves, s.occupant g ≠ some (.bench m.bench))
    (hb : ∀ m ∈ s.moves, m.bench ≠ b) : (s.mark g b).Sound x := by
  refine h.updateSegs (.mark s g b) (fun _ => rfl) fun m hm g' hg' r hseg => ?_
  obtain rfl := List.mem_singleton.1 hg'
  rw [← State.occupant_of_seg hseg]
  refine ⟨fun hyes => ?_, fun hyes => absurd hyes (hg m hm)⟩
  obtain ⟨hbench, -⟩ := State.markOf_bench (Option.some.inj hyes)
  exact absurd hbench.symm (hb m hm)

/-- Bench 0 is no move's. -/
theorem State.Sound.bench_ne_zero (h : s.Sound none) (m : Move) (hm : m ∈ s.moves) : m.bench ≠ 0 :=
  (h.laid.moves m hm (Option.some_ne_none _).symm).bench

/-- A bench with no live move is no move's bench. -/
theorem State.not_bench_of_none (hb : s.moveOfBench b = none) (h0 : b ≠ 0) (m : Move) (hm : m ∈ s.moves) : m.bench ≠ b := by
  unfold State.moveOfBench at hb
  rw [if_neg h0] at hb
  intro e
  have := List.find?_eq_none.1 hb m hm
  simp [e] at this

/-- A bench stands on what its move holds. -/
theorem State.Sound.held_of_occupant (h : s.Sound none) (hm : m ∈ s.moves) (hg : s.occupant g = some (.bench m.bench)) :
    s.holder g = some m.slot ∧ g ∈ m.span m.t m.h := by
  have hslot := State.move?_of_mem h.run.slots.moves hm
  obtain ⟨-, ⟨htf, hfh, -⟩, -⟩ := h.run.runs m hm
  have hin : g ∈ m.span m.t m.h := Move.span_mono hfh (((h.move hslot).place g).1 hg)
  refine ⟨?_, hin⟩
  unfold State.occupant at hg
  cases hseg : s.seg? g with
  | none =>
    rw [hseg] at hg
    cases hg
  | some r =>
    obtain ⟨hid, hr⟩ := State.seg?_some hseg
    have hheld := (h.run.holds r hr m.slot).2 ⟨(Option.some_ne_none _).symm, m, hm, rfl, hid ▸ hin⟩
    rw [State.holder, hseg]
    exact hheld

/-- Two live benches are two. -/
theorem State.Laid.bench_inj (h : s.Laid x) (hm : m ∈ s.moves) (hm' : m' ∈ s.moves) (he : m.bench = m'.bench) : m = m' :=
  List.inj_on_of_nodup_map h.benches hm hm' he

end rail

/-! ### The mark of an advance and the vacate of a tail (R11, R12) -/

section front
variable {s t : State} {m : Move} {g a : Nat}

/-- An advance marks the next segment with the bench (R11, R101). -/
theorem State.Sound.markOf_front (h : s.Sound none) (hm : m ∈ s.moves) (htf : m.t = m.f) (hlt : m.f + 1 < m.route.length)
    (hg : g = m.seg (m.f + 1)) : s.markOf g m.bench = .bench m.bench := by
  have hslot := State.move?_of_mem h.run.slots.moves hm
  obtain ⟨hroute, -, -⟩ := h.run.runs m hm
  have hplace := (h.move hslot).place
  have hmem : ∀ a, a ∈ s.benchAt m.bench ↔ a = m.seg m.f := by
    intro a
    have hspan : a ∈ m.span m.t m.f ↔ a = m.seg m.f := by
      rw [htf, Move.span_one (by omega)]
      exact List.mem_singleton
    rw [← hspan, ← hplace]
    constructor
    · intro hin
      obtain ⟨r, hr, ho, rfl⟩ := State.mem_benchAt.1 hin
      rw [State.occupant, State.seg?_of_mem h.run.segs hr]
      exact ho
    · intro ho
      unfold State.occupant at ho
      cases hseg : s.seg? a with
      | none =>
        rw [hseg] at ho
        cases ho
      | some r =>
        rw [hseg] at ho
        obtain ⟨hid, hr⟩ := State.seg?_some hseg
        exact State.mem_benchAt.2 ⟨r, hr, ho, hid⟩
  have hne : m.seg m.f ≠ g := by
    rw [hg]
    intro e
    have := Move.seg_inj hroute.nodup (by omega) hlt e
    omega
  have hall : s.benchAt m.bench = [m.seg m.f] := by
    have hnodup := s.benchAt_nodup h.run.segs m.bench
    have hperm : (s.benchAt m.bench).Perm [m.seg m.f] :=
      (List.perm_ext_iff_of_nodup hnodup (List.nodup_singleton _)).2 fun a => (hmem a).trans List.mem_singleton.symm
    exact List.perm_singleton.1 hperm
  have hlinked : s.linked (m.seg m.f) g = true := by
    obtain ⟨hlinked, -⟩ := (s.stepOk_iff _ _).1 (hroute.step hlt)
    rw [hg]
    exact hlinked
  unfold State.markOf
  rw [if_neg (h.move hslot).bench, hall]
  simp only [ne_eq, decide_not, List.filter_cons, List.filter_nil, hne, decide_false, Bool.not_false, if_true, hlinked]

theorem State.mark_occupant (s : State) (g b a : Nat) : (s.mark g b).occupant a
    = (s.seg? a).bind fun r => if a = g then some (s.markOf g b) else r.occupant := by
  refine (State.updateSegs_occupant (w := fun r => { r with occupant := some (s.markOf g b) }) fun _ => rfl).trans ?_
  simp only [List.mem_singleton]

theorem State.Sound.front_place (h : s.Sound none) (hm : m ∈ s.moves) (hheld : s.holder g = some m.slot) (htf : m.t = m.f)
    (hlt : m.f + 1 < m.route.length) (hg : g = m.seg (m.f + 1)) :
    (∀ a, (s.mark g m.bench).occupant a = some (.bench m.bench) ↔ a ∈ m.span m.t (m.f + 1))
      ∧ ∀ y ∈ s.moves, y.slot ≠ m.slot → ∀ a, (s.mark g m.bench).occupant a = some (.bench y.bench)
          ↔ s.occupant a = some (.bench y.bench) := by
  have hslot := State.move?_of_mem h.run.slots.moves hm
  have hmark := h.markOf_front hm htf hlt hg
  obtain ⟨r, hr, -⟩ := Option.bind_eq_some_iff.1 hheld
  have hsplit : ∀ a, a ∈ m.span m.t (m.f + 1) ↔ a ∈ m.span m.t m.f ∨ a = g := by
    intro a
    rw [Move.mem_span_split (j := m.f) (by omega) (Nat.le_succ _), Move.span_one hlt, List.mem_singleton, hg]
  constructor
  · intro a
    rw [State.mark_occupant, hmark, hsplit, ← (h.move hslot).place a, State.occupant]
    by_cases ha : a = g
    · rw [ha, hr]
      simp
    · cases hseg : s.seg? a with
      | none => simp [ha]
      | some y => simp [ha]
  · intro y hy hne a
    rw [State.mark_occupant, hmark, State.occupant]
    by_cases ha : a = g
    · subst ha
      have hbench : m.bench ≠ y.bench := fun e => hne (congrArg Move.slot (h.laid.bench_inj hm hy e)).symm
      have hno : s.occupant a ≠ some (.bench y.bench) := fun ho => by
        obtain ⟨hk, -⟩ := h.held_of_occupant hy ho
        exact hne (Option.some.inj (hk.symm.trans hheld))
      rw [State.occupant_of_seg hr] at hno
      rw [hr]
      simp [hbench, hno]
    · cases hseg : s.seg? a with
      | none => rfl
      | some z => simp [ha]

theorem State.vacate_occupant (s : State) (g b a : Nat) : (s.vacate g b).occupant a
    = (s.seg? a).bind fun r => if a = g ∧ r.occupant = some (.bench b) then none else r.occupant := by
  unfold State.vacate
  rw [State.updateSegs_occupant fun r => by split <;> rfl]
  congr 1
  funext r
  simp only [List.mem_singleton]
  by_cases ha : a = g
  · by_cases ho : r.occupant = some (.bench b) <;> simp [ha, ho]
  · simp [ha]

theorem State.Sound.tail_place (h : s.Sound none) (hm : m ∈ s.moves) (hf : m.f = m.t + 1) :
    (∀ a, (s.vacate (m.seg m.t) m.bench).occupant a = some (.bench m.bench) ↔ a ∈ m.span (m.t + 1) m.f)
      ∧ ∀ y ∈ s.moves, y.slot ≠ m.slot → ∀ a, (s.vacate (m.seg m.t) m.bench).occupant a = some (.bench y.bench)
          ↔ s.occupant a = some (.bench y.bench) := by
  have hslot := State.move?_of_mem h.run.slots.moves hm
  obtain ⟨hroute, ⟨htf, hfh, hlen, -⟩, -⟩ := h.run.runs m hm
  have hsplit : ∀ a, a ∈ m.span (m.t + 1) m.f ↔ a ∈ m.span m.t m.f ∧ a ≠ m.seg m.t := by
    intro a
    rw [Move.mem_span_split (m := m) (i := m.t) (j := m.t) (by omega) htf, Move.span_one (by omega), List.mem_singleton]
    constructor
    · intro hin
      exact ⟨.inr hin, fun e => Move.not_mem_span_of_lt hroute.nodup (Nat.lt_succ_self m.t)
        (Move.mem_span.2 ⟨m.t, le_rfl, le_rfl, by omega, e.symm⟩) hin⟩
    · rintro ⟨hin | hin, hne⟩
      · exact absurd hin hne
      · exact hin
  constructor
  · intro a
    rw [State.vacate_occupant, hsplit, ← (h.move hslot).place a, State.occupant]
    cases hseg : s.seg? a with
    | none => simp
    | some r =>
      simp only [Option.bind_some]
      by_cases ha : a = m.seg m.t
      · by_cases ho : r.occupant = some (.bench m.bench) <;> simp [ha, ho]
      · simp [ha]
  · intro y hy hne a
    have hbench : m.bench ≠ y.bench := fun e => hne (congrArg Move.slot (h.laid.bench_inj hm hy e)).symm
    rw [State.vacate_occupant, State.occupant]
    cases hseg : s.seg? a with
    | none => rfl
    | some r =>
      simp only [Option.bind_some]
      split
      · rename_i ho
        rw [ho.2]
        simp [hbench]
      · rfl

end front

end Sys2Proof.Machine
end


section
/-!
PROOFS. The advance of a front and the release of a tail keep the laws (R48, R51, R73, R75, R76, R101).
-/

open Sys2Proof Sys2Proof.Machine

namespace Sys2Proof.Machine

section advance
variable {s t v : State} {m : Move} {l : LaneIx} {g : Nat} {e : Bool}

/-- A move that holds ahead and names a lane is the lane's crossing move. -/
theorem State.Sound.crosses_of_ahead (h : s.Sound none) (hm : s.move? m.slot = some m) (hl : m.lane = some l) (hlt : m.t < m.h) :
    ∃ e, s.lanes[l].crossing = some ⟨m.slot, e⟩ ∧ s.Crosses m l s.lanes[l].berth e ∧ ∀ b : BerthIx, m.slot ∉ s.lanes[l].lists[b] := by
  have hsound := h.move hm
  cases hc : s.lanes[l].crosses m.slot with
  | false =>
    obtain ⟨-, b, hb⟩ := hsound.waiting hl hc
    have hw := h.laid.waits hb hm
    obtain ⟨htf, -⟩ := hw.berth
    have hfront := hw.front
    omega
  | true =>
    have hrec := Lane.record_of_crosses hc
    have hcross := h.laid.crosses hrec hm
    exact ⟨_, hrec, hcross, fun b hb => (h.laid.waits hb hm).not_crosses hcross⟩

/-- What a move that holds ahead is not: it waits for no crossing. -/
theorem State.Sound.state_of_free (h : s.Sound none) (hm : s.move? m.slot = some m) (hl : m.lane = none) :
    m.state ≠ .laneWait ∧ m.state ≠ .crossing := by
  have hsound := h.move hm
  refine ⟨fun hw => ?_, fun hc => hsound.crossing hc hl⟩
  obtain ⟨l, b, hl', -⟩ := hsound.waits hw
  rw [hl] at hl'
  cases hl'

/-- A crossing move whose front goes onto a cell, or off its last one (R64, R73). -/
theorem State.Crosses.fronted {b c : BerthIx} (hcross : s.Crosses m l b e) (hconfig : t.segs.map Segment.config = s.segs.map Segment.config)
    (hg : g = m.seg (m.f + 1)) (htf : m.t = m.f) (hfh : m.f + 1 ≤ m.h) (hcell : s.isCell (m.seg m.f) = true ∨ s.isCell g = true)
    (hstate : m.state = .crossing ∨ m.state = .stalled ∨ m.state = .stopping) : t.Crosses (s.fronted m) l c true := by
  obtain ⟨hend, hall⟩ := hcross.ahead (by omega)
  refine ⟨hcross.lane, fun a ha => ?_, fun hno => (by cases hno), fun _ => ⟨hstate, ?_, ?_⟩, fun hlt => ?_⟩
  · rw [State.cellLane_config hconfig]
    exact hcross.cells a ha
  · rw [State.isCell_config hconfig]
    show s.isCell (m.seg m.t) = true ∨ s.isCell (m.seg (m.f + 1)) = true
    rw [htf, ← hg]
    exact hcell
  · rw [State.isCell_config hconfig]
    intro hno
    show m.h = m.f + 1
    by_contra hne
    have hyes := hall (m.f + 1) (by omega) (Nat.lt_succ_self _)
    have hno' : s.isCell (m.seg (m.f + 1)) = false := hno
    rw [hyes] at hno'
    cases hno'
  · rw [State.isCell_config hconfig]
    exact ⟨hend, fun i hi hf => hall i hi (lt_trans (Nat.lt_succ_self _) hf)⟩

theorem State.Deed.front (h : s.Sound none) (hm : m ∈ s.moves) (hheld : s.holder g = some m.slot) (htf : m.t = m.f)
    (hlt : m.f + 1 < m.route.length) (hg : g = m.seg (m.f + 1)) :
    s.Deed ((s.mark g m.bench).updateMove m.slot s.fronted) m.slot s.fronted none := by
  obtain ⟨-, hothers⟩ := h.front_place hm hheld htf hlt hg
  refine ⟨rfl, fun _ => ⟨rfl, rfl⟩, map_config_of_map fun r => by split <;> rfl, rfl, rfl, rfl, fun _ _ => rfl, fun i y hi hy a => ?_⟩
  obtain ⟨rfl, hmem⟩ := State.move?_some hy
  rw [State.updateMove_occupant_look]
  exact hothers y hmem hi a

/-- From s to v the change of move m alone moves its bench to the positions i to j of its route, and no lane changes. -/
structure State.Shifts (s v : State) (m : Move) (u : Move → Move) (i j : Nat) : Prop where
  deed : s.Deed v m.slot u none
  edits : Edits none s v
  calm : Move.CalmBy u
  place : ∀ a, v.occupant a = some (.bench m.bench) ↔ a ∈ m.span i j
  lanes : v.lanes = s.lanes

/-- The front of a move goes onto the next segment it holds (R101). -/
theorem State.Shifts.front (h : s.Sound none) (hm : m ∈ s.moves) (hheld : s.holder g = some m.slot) (htf : m.t = m.f)
    (hlt : m.f + 1 < m.route.length) (hg : g = m.seg (m.f + 1)) :
    s.Shifts ((s.mark g m.bench).updateMove m.slot s.fronted) m s.fronted m.t (m.f + 1) := by
  obtain ⟨hown, -⟩ := h.front_place hm hheld htf hlt hg
  refine ⟨.front h hm hheld htf hlt hg, ?_, fun _ => ⟨rfl, id, id⟩, fun a => ?_, rfl⟩
  · refine Edits.after (.one (.front m _ hm ?_ htf ⟨fun _ => rfl, fun _ y hy => ⟨?_, hy.2⟩⟩ rfl)) (Edits.mark s g m.bench)
    · rw [State.mark_holder, ← hg]
      exact hheld
    · show (if y.f + 1 < y.h then y.silence.restart s.silenceFull else .stopped).isRunning = false
      split
      · exact Timer.restart_halted _ hy.1
      · rfl
  · rw [State.updateMove_occupant_look]
    exact hown a

/-- The front of a move off the lanes goes on. -/
theorem State.Shifts.front_free (d : s.Shifts v m s.fronted m.t (m.f + 1)) (h : s.Sound none)
    (hslot : s.move? m.slot = some m) (hl : m.lane = none) (hfh : m.f + 1 ≤ m.h) : v.Sound none := by
  have hsound := h.move hslot
  have hfree := h.state_of_free hslot hl
  refine h.of d.edits ((State.Calm.updateMove s m.slot d.calm).then d.deed.moves d.deed.arbiter d.deed.mode)
    (h.laid.free h.run.slots.moves d.deed hslot hl hl hfree
      (fun a ha => h.laid.off_cells hslot hsound hl ha) d.place (fun hy => ?_) fun he => hsound.visited he)
  obtain ⟨-, -, hfront⟩ := hsound.yields hy
  omega

/-- The front of a lane's crossing move goes on among the cells, or off the last of them (R64). -/
theorem State.Shifts.front_within (d : s.Shifts v m s.fronted m.t (m.f + 1)) (h : s.Sound none)
    (hslot : s.move? m.slot = some m) (hrec : s.lanes[l].crossing = some ⟨m.slot, true⟩) (hg : g = m.seg (m.f + 1)) (htf : m.t = m.f)
    (hfh : m.f + 1 ≤ m.h) (hlists : ∀ b : BerthIx, m.slot ∉ s.lanes[l].lists[b])
    (hmarks : m.yield = .clear ∧ m.extending = false) : s.isCell (m.seg m.f) = true ∧ v.Sound none := by
  have hcross := h.laid.crosses hrec hslot
  obtain ⟨hstate, hon, -⟩ := hcross.entered rfl
  have hfcell : s.isCell (m.seg m.f) = true := by
    rw [htf, or_self] at hon
    exact hon
  refine ⟨hfcell, h.crosser (e := true) d.edits d.deed.weaken d.calm hslot hcross.lane (h.laid.beside_self l _ (by rw [d.lanes])) ?_ ?_
    (hcross.fronted d.deed.config hg htf hfh (.inl hfcell) hstate) d.place hmarks⟩
  · rw [d.lanes]
    exact hlists
  · rw [d.lanes]
    exact hrec

/-- The front of a move that was granted a crossing goes onto the first cell, which enters the crossing (R73). -/
theorem State.Shifts.front_enters (d : s.Shifts v m s.fronted m.t (m.f + 1)) (h : s.Sound none)
    (hslot : s.move? m.slot = some m) (hrec : s.lanes[l].crossing = some ⟨m.slot, false⟩) (hg : g = m.seg (m.f + 1))
    (htf : m.t = m.f) (hfh : m.f + 1 ≤ m.h) (hlists : ∀ b : BerthIx, m.slot ∉ s.lanes[l].lists[b])
    (hmarks : m.yield = .clear ∧ m.extending = false) :
    (s.isCell g && !s.isCell (m.seg m.f)) = true ∧ (v.enterCrossing l m.slot).Sound none := by
  have hcross := h.laid.crosses hrec hslot
  obtain ⟨hstate, -, -, hberth, hnext⟩ := hcross.granted rfl
  have hgcell : s.isCell g = true := hg ▸ hnext
  have hfcell : s.isCell (m.seg m.f) = false := State.not_isCell (State.cellLane_of_berth hberth)
  obtain ⟨hst, htimer⟩ := (h.laid.lanes l).record _ hrec
  have hlstate : s.lanes[l].state = .crossing := hst.resolve_right fun hno => (by cases hno.2)
  have hc : v.lanes[l].crosses m.slot = true := Lane.crosses_iff_mem.2 ⟨_, by rw [d.lanes]; exact hrec, rfl⟩
  have hne : v.lanes[l].entered m.slot = false := by
    rw [d.lanes, Lane.entered, hrec]
    exact Bool.and_false _
  refine ⟨by rw [hgcell, hfcell]; rfl, ?_⟩
  rw [State.enterCrossing, if_pos ⟨by rw [d.lanes]; exact hlstate, hc, hne⟩]
  have hlane := State.updateLane_get_same v l fun ln => { ln with
    crossing := some ⟨m.slot, true⟩, offerTimer := .stopped, crossingTimer := v.startTimer (v.crossingFull l), crossed := true }
  have hdl := d.deed.oneLane (State.updateLane_oneLane v l fun ln => { ln with
    crossing := some ⟨m.slot, true⟩, offerTimer := .stopped, crossingTimer := v.startTimer (v.crossingFull l), crossed := true })
  refine h.crosser (e := true) (Edits.after (.updateLane _ l _ fun hmode _ hln =>
    ⟨rfl, State.startTimer_halted hmode _, hln.2.2⟩) d.edits) hdl d.calm hslot hcross.lane ?_ ?_ ?_
    (hcross.fronted hdl.config hg htf hfh (.inr hgcell) (.inl hstate)) d.place hmarks
  · rw [hlane, d.lanes]
    refine ⟨fun _ _ _ => Iff.rfl, h.laid.nodup l, fun c hck => ?_, rfl, fun _ => htimer, fun _ _ => ⟨.inl hlstate, htimer⟩⟩
    rw [hrec]
    exact ⟨fun hin => absurd (congrArg CrossingRecord.slot (Option.some.inj hin)).symm hck,
      fun hin => absurd (congrArg CrossingRecord.slot (Option.some.inj hin)).symm hck⟩
  · rw [hlane, d.lanes]
    exact hlists
  · rw [hlane]

/-- The front of a move goes onto the next segment it holds (R73, R101). -/
theorem State.Sound.advance (h : s.Sound none) (hm : m ∈ s.moves) (hheld : s.holder g = some m.slot) (htf : m.t = m.f)
    (hg : g = m.seg (m.f + 1)) : (s.advance m g).Sound none := by
  have hslot := State.move?_of_mem h.run.slots.moves hm
  have hfh : m.f + 1 ≤ m.h := h.run.front_lt hm (hg ▸ hheld)
  obtain ⟨-, ⟨-, -, hlen, -⟩, -⟩ := h.run.runs m hm
  have hd := State.Shifts.front h hm hheld htf (by omega) hg
  have hsettled : ∀ w : State, w.Sound none → (w.settleProgress m.slot).Sound none := fun w hw => hw.settleProgress m.slot
  unfold State.advance
  refine hsettled _ ?_
  change State.Sound none (match m.lane with
    | some l => if s.isCell g && !s.isCell (m.seg m.f) then
        ((s.mark g m.bench).updateMove m.slot s.fronted).enterCrossing l m.slot
      else (s.mark g m.bench).updateMove m.slot s.fronted
    | none => (s.mark g m.bench).updateMove m.slot s.fronted)
  generalize (s.mark g m.bench).updateMove m.slot s.fronted = v at hd ⊢
  cases hl : m.lane with
  | none => exact hd.front_free h hslot hl hfh
  | some l =>
    obtain ⟨e, hrec, hcross, hlists⟩ := h.crosses_of_ahead hslot hl (by omega)
    have hmarks : m.yield = .clear ∧ m.extending = false :=
      (h.move hslot).marks_of_state (by rcases hcross.state with hs | hs | hs <;> rw [hs] <;> decide)
    dsimp only
    cases e with
    | false =>
      obtain ⟨hcond, hentered⟩ := hd.front_enters h hslot hrec hg htf hfh hlists hmarks
      rw [if_pos hcond]
      exact hentered
    | true =>
      obtain ⟨hfcell, hgone⟩ := hd.front_within h hslot hrec hg htf hfh hlists hmarks
      rw [if_neg (by rw [hfcell]; simp)]
      exact hgone

end advance

/-! ### The release of a tail (R51, R75, R76, R88) -/

section tail
variable {s t v : State} {m : Move} {l : LaneIx} {g : Nat} {e : Bool}

/-- A move after its tail release (R51). -/
def Move.tailed (y : Move) : Move := { y with t := y.t + 1, stack := dropBottom y.stack }

theorem State.Shifts.tail (h : s.Sound none) (hm : m ∈ s.moves) (hf : m.f = m.t + 1) :
    s.Shifts (((s.vacate (m.seg m.t) m.bench).release m.slot [m.seg m.t]).updateMove m.slot Move.tailed) m Move.tailed
      (m.t + 1) m.f := by
  obtain ⟨hown, hothers⟩ := h.tail_place hm hf
  have hunheld := (s.vacate (m.seg m.t) m.bench).release_unheld m.slot [m.seg m.t]
  have hocc : ∀ a, (((s.vacate (m.seg m.t) m.bench).release m.slot [m.seg m.t]).updateMove m.slot Move.tailed).occupant a
      = (s.vacate (m.seg m.t) m.bench).occupant a := fun a => by
    rw [State.updateMove_occupant_look]
    exact State.occupant_congr (State.place_of_unheld hunheld) a
  refine ⟨⟨rfl, fun _ => ⟨rfl, rfl⟩, ?_, rfl, rfl, rfl, fun _ _ => rfl, fun i y hi hy a => ?_⟩,
    Edits.after (.one (.tail m hm hf)) (.vacate s _ _), fun _ => ⟨rfl, id, id⟩, fun a => ?_, rfl⟩
  · exact (Segment.unheld_config hunheld).trans (s.vacate_steady _ _).config
  · obtain ⟨rfl, hmem⟩ := State.move?_some hy
    rw [hocc]
    exact hothers y hmem hi a
  · rw [hocc]
    exact hown a

/-- The end of a crossing, after a change that leaves the lane open to it (R75, R76, R88). -/
theorem State.Sound.endCrossing_of (hset : (v.uncrossed l m.slot).Sound none) (htimer : v.lanes[l].releaseTimer = .stopped) :
    (v.endCrossing l m.slot).Sound none := by
  have hlane : (v.uncrossed l m.slot).lanes[l] = { v.lanes[l] with crossing := none, crossingTimer := .stopped } :=
    v.updateLane_get_same l fun ln => { ln with crossing := none, crossingTimer := .stopped }
  generalize hw : (if (v.move? m.slot).map (·.state) = some .crossing then (v.uncrossed l m.slot).trigger
    else v.uncrossed l m.slot) = w
  have hform : v.endCrossing l m.slot = match v.lanes[l].state with
      | .crossing => w.offerNext l
      | .faulted => w.releaseAfterFault l
      | .quiet => w
      | .offering => w
      | .settling => w := by
    rw [← hw]
    rfl
  have hsound : w.Sound none := by
    rw [← hw]
    split
    · exact hset.trigger
    · exact hset
  have hwlanes : w.lanes = (v.uncrossed l m.slot).lanes := by
    rw [← hw]
    split
    · exact State.trigger_lanes _
    · rfl
  have hwlane : w.lanes[l] = { v.lanes[l] with crossing := none, crossingTimer := .stopped } := by
    rw [hwlanes]
    exact hlane
  have hopen : w.lanes[l].Open := by
    rw [hwlane]
    exact ⟨rfl, htimer⟩
  rw [hform]
  split
  · exact hsound.offerNext hopen
  · rename_i hfaulted
    refine hsound.releaseAfterFault hopen.crossing ?_
    rw [hwlane]
    exact hfaulted
  all_goals exact hsound

theorem Move.span_after_tail (hfh : m.f ≤ m.h) (hf : m.f = m.t + 1) (hg : g ∈ m.span (m.t + 1) m.h) : g ∈ m.span m.t m.h :=
  (Move.mem_span_split (j := m.t) (by omega) (by omega)).2 (.inr hg)

/-- The tail of a move off the lanes is released. -/
theorem State.Shifts.tail_free (d : s.Shifts v m Move.tailed (m.t + 1) m.f) (h : s.Sound none)
    (hslot : s.move? m.slot = some m) (hl : m.lane = none) (hfh : m.f ≤ m.h) (hf : m.f = m.t + 1) : v.Sound none := by
  have hsound := h.move hslot
  have hfree := h.state_of_free hslot hl
  exact h.of d.edits ((State.Calm.updateMove s m.slot d.calm).then d.deed.moves d.deed.arbiter d.deed.mode)
    (h.laid.free h.run.slots.moves d.deed hslot hl hl hfree
      (fun a ha => h.laid.off_cells hslot hsound hl (Move.span_after_tail hfh hf ha)) d.place hsound.yields
      fun he => hsound.visited he)

/-- The tail of a crossing move that still stands on a cell is released (R75). -/
theorem State.Shifts.tail_within (d : s.Shifts v m Move.tailed (m.t + 1) m.f) (h : s.Sound none)
    (hslot : s.move? m.slot = some m) (hrec : s.lanes[l].crossing = some ⟨m.slot, true⟩) (hfcell : s.isCell (m.seg m.f) = true)
    (hfh : m.f ≤ m.h) (hf : m.f = m.t + 1) (hlists : ∀ b : BerthIx, m.slot ∉ s.lanes[l].lists[b])
    (hmarks : m.yield = .clear ∧ m.extending = false) : v.Sound none := by
  have hcross := h.laid.crosses hrec hslot
  obtain ⟨hstate, -, hfront⟩ := hcross.entered rfl
  refine h.crosser (e := true) d.edits d.deed.weaken d.calm hslot hcross.lane (h.laid.beside_self l _ (by rw [d.lanes]))
    (by rw [d.lanes]; exact hlists) (by rw [d.lanes]; exact hrec) ?_ d.place hmarks
  refine ⟨hcross.lane, fun a ha => ?_, fun hno => (by cases hno), fun _ => ⟨hstate, .inr ?_, fun hno => hfront ?_⟩, fun hlt => ?_⟩
  · rw [State.cellLane_config d.deed.config]
    exact hcross.cells a (Move.span_after_tail hfh hf ha)
  · rw [State.isCell_config d.deed.config]
    exact hfcell
  · rw [State.isCell_config d.deed.config] at hno
    exact hno
  · rw [State.isCell_config d.deed.config]
    exact hcross.ahead hlt

/-- The tail of a crossing move leaves the last cell, which ends the crossing (R75). -/
theorem State.Shifts.tail_ends (d : s.Shifts v m Move.tailed (m.t + 1) m.f) (h : s.Sound none)
    (hslot : s.move? m.slot = some m) (hrec : s.lanes[l].crossing = some ⟨m.slot, true⟩) (hfcell : s.isCell (m.seg m.f) = false)
    (hlen : m.h < m.route.length) (hf : m.f = m.t + 1) (hlists : ∀ b : BerthIx, m.slot ∉ s.lanes[l].lists[b])
    (hmarks : m.yield = .clear ∧ m.extending = false) : (v.endCrossing l m.slot).Sound none := by
  have hcross := h.laid.crosses hrec hslot
  obtain ⟨hstate, -, hfront⟩ := hcross.entered rfl
  have hhf := hfront hfcell
  have hc : s.lanes[l].crosses m.slot = true := Lane.crosses_iff_mem.2 ⟨_, hrec, rfl⟩
  obtain ⟨-, htimer⟩ := (h.laid.lanes l).record _ hrec
  have hlane : (v.uncrossed l m.slot).lanes[l] = { s.lanes[l] with crossing := none, crossingTimer := .stopped } := by
    refine (v.updateLane_get_same l fun ln => { ln with crossing := none, crossingTimer := .stopped }).trans ?_
    rw [d.lanes]
  have hdl := (d.deed.oneLane (State.updateLane_oneLane v l fun ln => { ln with crossing := none, crossingTimer := .stopped })).updateMove
    (w := fun y => { y with lane := none, state := if y.state = .crossing then .moving else y.state }) fun _ => ⟨rfl, rfl⟩
  obtain ⟨hbeside, -⟩ := h.laid.beside_withdrawn hc (ln := { s.lanes[l] with crossing := none, crossingTimer := .stopped }) rfl
  change s.Deed (v.uncrossed l m.slot) m.slot _ (some l) at hdl
  refine State.Sound.endCrossing_of (h.of_deed (Edits.after (.updateMove _ _ (.plain (fun _ => rfl) fun _ => rfl) fun _ => rfl)
    (Edits.after (.stopCrossing v l _ fun _ => rfl) d.edits)) hdl (fun y => ⟨rfl, id, fun _ => rfl⟩) hslot (.inr hcross.lane)
      (fun y hy => ?_) fun _ => ?_) (by rw [d.lanes]; exact htimer)
  · obtain rfl := Option.some.inj hy
    rw [hlane]
    refine ⟨hbeside, fun b hb => ?_, fun c => ?_⟩
    · rw [hlane] at hb
      exact absurd hb (hlists b)
    · rw [hlane]
      exact Lane.no_record rfl
  · refine .free rfl ?_ (h.move hslot).bench (fun a ha => ?_) (fun a => d.place a) (fun hy => absurd hmarks.1 hy) fun hext => ?_
    · show (if m.state = .crossing then MoveState.moving else m.state) ≠ .laneWait
        ∧ (if m.state = .crossing then MoveState.moving else m.state) ≠ .crossing
      rcases hstate with hs | hs | hs <;> rw [hs] <;> decide
    · have ha' : a ∈ m.span (m.t + 1) m.h := ha
      rw [hhf, ← hf, Move.span_one (by omega), List.mem_singleton] at ha'
      rw [State.cellLane_config hdl.config, ha']
      exact (State.isCell_eq_false_iff _ _).1 hfcell
    · have hext' : m.extending = true := hext
      rw [hmarks.2] at hext'
      cases hext'

/-- A tail release, with the crossing it may end (R51, R75). -/
theorem State.Sound.leftTail (h : s.Sound none) (hm : m ∈ s.moves) (hf : m.f = m.t + 1) : (s.leftTail m).Sound none := by
  have hslot := State.move?_of_mem h.run.slots.moves hm
  obtain ⟨-, ⟨-, hfh, hlen, -⟩, -⟩ := h.run.runs m hm
  have hd := State.Shifts.tail h hm hf
  have hcases := s.leftTail_cases m (v := ((s.vacate (m.seg m.t) m.bench).release m.slot [m.seg m.t]).updateMove m.slot Move.tailed) rfl
  generalize ((s.vacate (m.seg m.t) m.bench).release m.slot [m.seg m.t]).updateMove m.slot Move.tailed = v at hd hcases
  cases hl : m.lane with
  | none =>
    rcases hcases with ⟨-, hstays⟩ | ⟨l, hno, -⟩
    · rw [hstays]
      exact hd.tail_free h hslot hl hfh hf
    · rw [hl] at hno
      cases hno
  | some l =>
    obtain ⟨e, hrec, hcross, hlists⟩ := h.crosses_of_ahead hslot hl (by omega)
    have hmarks : m.yield = .clear ∧ m.extending = false :=
      (h.move hslot).marks_of_state (by rcases hcross.state with hs | hs | hs <;> rw [hs] <;> decide)
    cases e with
    | false =>
      obtain ⟨-, -, htf, -⟩ := hcross.granted rfl
      omega
    | true =>
      obtain ⟨-, hon, -⟩ := hcross.entered rfl
      rcases hcases with ⟨hno, hstays⟩ | ⟨l', hl', ⟨-, hnext, -⟩, hends⟩
      · rw [hstays]
        refine hd.tail_within h hslot hrec ?_ hfh hf hlists hmarks
        by_contra hnot
        rw [Bool.not_eq_true] at hnot
        rcases hon with htc | hfc
        · exact hno ⟨htc, hf ▸ hnot, l, hl, Lane.crosses_iff_mem.2 ⟨_, hrec, rfl⟩⟩
        · rw [hnot] at hfc
          cases hfc
      · obtain rfl := Option.some.inj (hl.symm.trans hl')
        rw [hends]
        exact hd.tail_ends h hslot hrec (hf ▸ hnext) hlen hf hlists hmarks

end tail

end Sys2Proof.Machine
end


section
/-!
PROOFS. Admissions, the trial of the queue and the end of a move keep the laws (R28, R31, R39, R42, R55).
-/

open Sys2Proof Sys2Proof.Machine

namespace Sys2Proof.Machine

section admission
variable {s t : State} {q : QueuedOrder} {g : Nat} {m : Move}

/-- The bench of an order stands on the start of its route alone (R27). -/
theorem State.occupant_of_admissible (hsegs : s.SegLaw) {start : Nat} (hat : s.benchAt q.bench = [start]) :
    s.occupant g = some (.bench q.bench) ↔ g = start := by
  have hmem : g = start ↔ g ∈ s.benchAt q.bench := by rw [hat, List.mem_singleton]
  rw [hmem, State.mem_benchAt]
  constructor
  · intro ho
    unfold State.occupant at ho
    cases hseg : s.seg? g with
    | none =>
      rw [hseg] at ho
      cases ho
    | some r =>
      rw [hseg] at ho
      obtain ⟨hid, hr⟩ := State.seg?_some hseg
      exact ⟨r, hr, ho, hid⟩
  · rintro ⟨r, hr, ho, rfl⟩
    rw [State.occupant, State.seg?_of_mem hsegs hr]
    exact ho

theorem State.admitOrder_occupant (s : State) (q : QueuedOrder) (g : Nat) : (s.admitOrder q).occupant g = s.occupant g := by
  refine State.occupant_congr ?_ g
  rw [State.admitOrder_segs, List.map_map]
  refine List.map_congr_left fun r _ => ?_
  show (if r.id ∈ q.route.take 1 then { r with holder := some q.slot } else r).place = r.place
  split <;> rfl

theorem State.newMove_face (s : State) (q : QueuedOrder) : ∃ st : MoveState, (st = .moving ∨ st = .blocked)
    ∧ (s.newMove q).face = (q.slot, q.bench, q.route, (0, 0, 0), st, none, false, .clear, false) :=
  ⟨if s.mode = .halted then .blocked else .moving, by split <;> simp, rfl⟩

/-- An admitted move stands on the start of its route, off the lanes (R28). -/
theorem State.MoveSound.admitted (hsegs : s.SegLaw) (hq : s.admissionFault q.bench (q.route.headD 0) true = none)
    (hroute : s.RouteLaw q.route) (hbench : q.bench ≠ 0) : (s.admitOrder q).MoveSound (s.readyCounter.newMove q) := by
  obtain ⟨hat, -⟩ := State.start_of_admissible hq
  obtain ⟨hmin, -, -, -, -, hstart, -⟩ := (s.routeOk_iff _ _).1 hroute
  have hspan : (s.readyCounter.newMove q).span 0 0 = [q.route.headD 0] := by
    rw [Move.span_one (m := s.readyCounter.newMove q) (i := 0) (by show 0 < q.route.length; omega)]
    show [q.route.getD 0 0] = _
    cases q.route <;> rfl
  refine .free rfl ?_ hbench (fun a ha => ?_) (fun a => ?_) (fun hy => absurd rfl hy) fun hno => (by cases hno)
  · show (if s.readyCounter.mode = .halted then MoveState.blocked else .moving) ≠ .laneWait
      ∧ (if s.readyCounter.mode = .halted then MoveState.blocked else .moving) ≠ .crossing
    split <;> decide
  · have ha' : a ∈ (s.readyCounter.newMove q).span 0 0 := ha
    rw [hspan, List.mem_singleton] at ha'
    rw [State.cellLane_config (s.admitOrder_config q), ha']
    exact (State.isCell_eq_false_iff _ _).1 hstart
  · rw [State.admitOrder_occupant]
    show s.occupant a = some (.bench q.bench) ↔ a ∈ (s.readyCounter.newMove q).span 0 0
    rw [hspan, List.mem_singleton]
    exact State.occupant_of_admissible hsegs hat

theorem State.admitOrder_faces (s : State) (q : QueuedOrder) :
    (s.admitOrder q).moves.map Move.face = s.moves.map Move.face ++ [(s.readyCounter.newMove q).face] :=
  s.admitOrder_map q Move.face fun _ _ => rfl

/-- A live move keeps its face when another is admitted. -/
theorem State.admitOrder_move_face (hslots : ((s.admitOrder q).moves.map (·.slot)).Nodup) {k : SlotIx} (hm : s.move? k = some m) :
    ∃ m', (s.admitOrder q).move? k = some m' ∧ m'.face = m.face := by
  obtain ⟨rfl, hmem⟩ := State.move?_some hm
  have hin : m.face ∈ (s.admitOrder q).moves.map Move.face := by
    rw [State.admitOrder_faces]
    exact List.mem_append_left _ (List.mem_map_of_mem hmem)
  obtain ⟨m', hm', he⟩ := List.mem_map.1 hin
  obtain ⟨hslot, -⟩ := Move.face_fields he
  exact ⟨m', hslot ▸ State.move?_of_mem hslots hm', he⟩

theorem State.Laid.admitOrder (h : s.Laid none) (hsegs : s.SegLaw) (hslots : ((s.admitOrder q).moves.map (·.slot)).Nodup)
    (hq : s.admissionFault q.bench (q.route.headD 0) true = none) (hroute : s.RouteLaw q.route) (hbench : q.bench ≠ 0) :
    (s.admitOrder q).Laid none := by
  have hconfig := s.admitOrder_config q
  obtain ⟨-, hlanes, -⟩ := s.admitOrder_beside q
  obtain ⟨hbusy, -⟩ := State.not_busy_of_admissible hq
  refine ⟨fun m' hm' _ => ?_, fun l => ?_, fun y hy => h.queue y (State.admitOrder_queue s q ▸ hy), ?_⟩
  · have hface : m'.face ∈ s.moves.map Move.face ++ [(s.readyCounter.newMove q).face] := by
      rw [← State.admitOrder_faces]
      exact List.mem_map_of_mem hm'
    rcases List.mem_append.1 hface with hold | hnew
    · obtain ⟨m, hm, he⟩ := List.mem_map.1 hold
      exact (h.moves m hm (Option.some_ne_none _).symm).congr hconfig he.symm (fun l b hb => ⟨b, by rw [hlanes]; exact hb⟩)
        (fun l hc => by rw [hlanes]; exact hc) fun g => by rw [State.admitOrder_occupant]
    · exact (State.MoveSound.admitted hsegs hq hroute hbench).congr rfl (List.mem_singleton.1 hnew) (fun l b hb => ⟨b, hb⟩)
        (fun l hc => hc) fun g => Iff.rfl
  · refine (h.lanes l).congr hconfig (.of_eq (by rw [hlanes])) fun k m hm _ => State.admitOrder_move_face hslots hm
  · rw [s.admitOrder_map q (·.bench) fun _ _ => rfl]
    refine List.nodup_append.2 ⟨h.benches, List.nodup_singleton _, fun b hb c hc e => ?_⟩
    obtain ⟨m, hm, rfl⟩ := List.mem_map.1 hb
    exact hbusy m hm (e.trans (List.mem_singleton.1 hc))

/-- More moves, with the faces of the old ones kept and no visit of the new one. -/
theorem State.Calm.grown {new : Move} (hmoves : t.moves.map Move.face = s.moves.map Move.face ++ [new.face])
    (hnew : new.extending = false) (harb : t.arbiter = s.arbiter) (hmode : t.mode = s.mode) : s.Calm t := by
  refine ⟨hmode, by rw [harb], by rw [harb], fun h => .inl (harb ▸ h), fun h => .inl (harb ▸ h), fun m hm => ?_, fun m hm he => ?_⟩
  · have hin : m.face ∈ t.moves.map Move.face := by
      rw [hmoves]
      exact List.mem_append_left _ (List.mem_map_of_mem hm)
    obtain ⟨y, hy, hf⟩ := List.mem_map.1 hin
    obtain ⟨hslot, -, -, -, -, -, -, hlane, -⟩ := Move.face_fields hf
    exact ⟨y, hy, hslot, fun hn => hlane.trans hn⟩
  · have hin : m.face ∈ s.moves.map Move.face ++ [new.face] := hmoves ▸ List.mem_map_of_mem hm
    rcases List.mem_append.1 hin with hold | hone
    · obtain ⟨y, hy, hf⟩ := List.mem_map.1 hold
      obtain ⟨hslot, -, -, -, -, -, -, -, -, -, hext⟩ := Move.face_fields hf
      exact ⟨y, hy, hslot, hext.trans he⟩
    · obtain ⟨-, -, -, -, -, -, -, -, -, -, hext⟩ := Move.face_fields (List.mem_singleton.1 hone)
      rw [hext, hnew] at he
      cases he

theorem State.Calm.admitOrder (s : State) (q : QueuedOrder) : s.Calm (s.admitOrder q) := by
  have harb : s.readyCounter.arbiter = s.arbiter := by
    unfold State.readyCounter
    split <;> rfl
  have hmode : s.readyCounter.mode = s.mode := by
    unfold State.readyCounter
    split <;> rfl
  have hfaces := s.admitOrder_faces q
  unfold State.admitOrder at hfaces ⊢
  rw [State.trigger_moves] at hfaces
  exact (State.Calm.trigger _).after (.grown hfaces rfl harb hmode)

theorem State.Sound.admitOrder (h : s.Sound none) (hq : s.admissionFault q.bench (q.route.headD 0) true = none)
    (hlive : s.live q.slot = false) (hroute : s.RouteLaw q.route) (hbench : q.bench ≠ 0) : (s.admitOrder q).Sound none := by
  have hrun : (s.admitOrder q).RunBut none := h.run.admitted (by simp) hq hlive hroute
  exact ⟨hrun, h.laid.admitOrder h.run.segs hrun.slots.moves hq hroute hbench, (State.Calm.admitOrder s q).ordered h.order⟩

end admission

/-! ### The end of a move (R39) -/

section ends
variable {s t : State} {k : SlotIx} {m : Move} {q : QueuedOrder} {rest : List QueuedOrder}

theorem State.Sound.unqueue (h : s.Sound none) {q : List QueuedOrder} (hq : q.Sublist s.queue) :
    ({ s with queue := q } : State).Sound none :=
  h.alike (.unqueue s q hq) (.beside rfl rfl rfl) rfl (fun _ => .refl _) rfl fun _ hy => hq.subset hy

theorem State.Sound.tryQueue (h : s.Sound none) : s.tryQueue.Sound none := by
  refine State.tryQueue_induct (P := fun v => v.Sound none) h (fun r hq hs => ?_) (fun {v q rest} hq hs hnone => ?_) fun _ hs => hs
  · exact (hs.unqueue (hq ▸ List.sublist_cons_self _ _)).refuse _ r
  · have hin : q ∈ v.queue := hq ▸ List.mem_cons_self
    exact (hs.unqueue (q := rest) (hq ▸ List.sublist_cons_self _ _)).admitOrder hnone (hs.run.slots.head_not_live hq)
      (State.RouteLaw.of_config (s := v) (hs.run.queue q hin) rfl) (hs.laid.queue q hin)

theorem State.removeMove_move {i : SlotIx} (hi : i ≠ k) : (s.removeMove k).move? i = s.move? i := by
  show (s.moves.filter fun m => m.slot ≠ k).find? _ = _
  rw [List.find?_filter]
  refine congrArg (fun p => s.moves.find? p) (funext fun m => ?_)
  by_cases hm : m.slot = i
  · simp [hm, hi]
  · simp [hm]

theorem State.Laid.removeMove (h : s.Laid (some k)) : (s.removeMove k).Laid none := by
  have hsub : (s.removeMove k).moves.Sublist s.moves := List.filter_sublist
  refine ⟨fun m hm _ => ?_, fun l => ?_, h.queue, h.benches.sublist (hsub.map _)⟩
  · have hne : m.slot ≠ k := by simpa using (List.mem_filter.1 hm).2
    exact (h.moves m (hsub.subset hm) fun e => hne (Option.some.inj e).symm).congr rfl rfl (fun l b hb => ⟨b, hb⟩) (fun _ hc => hc)
      fun _ => Iff.rfl
  · refine ⟨(h.lanes l).timer, (h.lanes l).record, (h.lanes l).nodup, fun b i hi => ?_, fun c hc => ?_⟩
    · obtain ⟨hx, m, hm, hw⟩ := (h.lanes l).listed b i hi
      refine ⟨(Option.some_ne_none _).symm, m, ?_, hw.congr rfl rfl⟩
      rw [State.removeMove_move fun e => hx (congrArg some e.symm)]
      exact hm
    · obtain ⟨hx, m, hm, hw⟩ := (h.lanes l).crosser c hc
      refine ⟨(Option.some_ne_none _).symm, m, ?_, hw.congr rfl rfl⟩
      rw [State.removeMove_move fun e => hx (congrArg some e.symm)]
      exact hm

/-- What is left of a wait-chain check: a part of its chain, without the move (R55). -/
theorem WaitCheck.forget_spec {c c' : WaitCheck} (hnodup : c.chain.Nodup) (hone : 1 ≤ c.chain.length) (h : c.forget k = some c') :
    c'.chain.Sublist c.chain ∧ 1 ≤ c'.chain.length ∧ k ∉ c'.chain := by
  unfold WaitCheck.forget at h
  split at h
  · rename_i hin
    obtain ⟨after, hdrop⟩ := dropWhile_of_mem hin
    split at h
    · cases h
    · rename_i x rest htail
      obtain rfl := Option.some.inj h
      have hsub : (x :: rest).Sublist c.chain := htail ▸ (List.tail_sublist _).trans (List.dropWhile_sublist _)
      rw [hdrop, List.tail_cons] at htail
      have hnd : (k :: after).Nodup := hdrop ▸ hnodup.sublist (List.dropWhile_sublist _)
      exact ⟨hsub, Nat.succ_le_succ (Nat.zero_le _), htail ▸ (List.nodup_cons.1 hnd).1⟩
  · rename_i hin
    obtain rfl := Option.some.inj h
    exact ⟨List.Sublist.refl _, hone, hin⟩

theorem State.Ordered.removeMove (h : s.Ordered) (k : SlotIx) : (s.removeMove k).Ordered := by
  have hlive : ∀ {i : SlotIx}, i ≠ k → (∃ m ∈ s.moves, m.slot = i) → ∃ m ∈ (s.removeMove k).moves, m.slot = i := by
    rintro i hi ⟨m, hm, rfl⟩
    exact ⟨m, List.mem_filter.2 ⟨hm, by simpa using hi⟩, rfl⟩
  obtain ⟨hturns, hfurther, hdue⟩ := h.pass
  have hpass : (s.removeMove k).arbiter.pass = s.arbiter.pass.map fun p => p.filter (· ≠ k) := rfl
  have hcheck : (s.removeMove k).arbiter.check = s.arbiter.check.bind (·.forget k) := rfl
  refine ⟨fun m hm he => ?_, fun c hc => ?_, fun p hp => ?_, fun hf => ?_, fun hd => ?_⟩
  · obtain ⟨hm, hne⟩ := List.mem_filter.1 hm
    obtain ⟨hnone, hhead⟩ := h.visit m hm he
    rw [hpass, hcheck, hnone]
    refine ⟨rfl, ?_⟩
    obtain ⟨p, hp, hph⟩ := Option.bind_eq_some_iff.1 hhead
    rw [hp]
    cases p with
    | nil => cases hph
    | cons i rest =>
      obtain rfl := Option.some.inj hph
      show ((m.slot :: rest).filter (· ≠ k)).head? = some m.slot
      rw [List.filter_cons, if_pos hne]
      rfl
  · rw [hcheck] at hc
    obtain ⟨c', hc', hforget⟩ := Option.bind_eq_some_iff.1 hc
    obtain ⟨hp, h1, h24, hnodup, hmem⟩ := h.check c' hc'
    obtain ⟨hsub, hone, hout⟩ := WaitCheck.forget_spec hnodup h1 hforget
    refine ⟨?_, hone, hsub.length_le.trans h24, hnodup.sublist hsub, fun i hi => ?_⟩
    · rw [hpass]
      simpa using hp
    · obtain ⟨m, hm, hslot, hlane⟩ := hmem i (hsub.subset hi)
      have hne : m.slot ≠ k := fun e => hout (by rw [← e, hslot]; exact hi)
      exact ⟨m, List.mem_filter.2 ⟨hm, by simpa using hne⟩, hslot, hlane⟩
  · rw [hpass] at hp
    obtain ⟨p', hp', rfl⟩ := Option.map_eq_some_iff.1 hp
    obtain ⟨hnodup, hmem⟩ := hturns p' hp'
    refine ⟨hnodup.filter _, fun i hi => ?_⟩
    obtain ⟨hin, hne⟩ := List.mem_filter.1 hi
    exact hlive (by simpa using hne) (hmem i hin)
  · obtain ⟨hp, hmode⟩ := hfurther hf
    rw [hpass]
    exact ⟨by simpa using hp, hmode⟩
  · obtain ⟨hp, hmode⟩ := hdue hd
    rw [hpass, hp]
    exact ⟨rfl, hmode⟩

/-- The end of a move, step by step (R39). -/
theorem State.Sound.endMove (h : s.Sound none) (k : SlotIx) (final : Nat → Verdict) (n : Notice) : (s.endMove k final n).Sound none := by
  unfold State.endMove
  cases hm : s.move? k with
  | none => exact h
  | some m =>
    obtain ⟨rfl, -⟩ := State.move?_some hm
    have hunheld := s.release_unheld m.slot (m.span m.t m.h)
    have hlaid : (s.release m.slot (m.span m.t m.h)).Laid none :=
      h.laid.of_alike h.run rfl (fun _ => .refl _) (Segment.unheld_config hunheld) (fun _ hq => hq) fun _ _ _ g => by
        rw [State.occupant_congr (State.place_of_unheld hunheld)]
    have hord : (s.release m.slot (m.span m.t m.h)).Ordered :=
      (State.Calm.beside (s := s) (t := s.release m.slot (m.span m.t m.h)) rfl rfl rfl).ordered h.order
    have hended : (((s.release m.slot (m.span m.t m.h)).endLane m.slot).strandAll m.bench).Sound (some m.slot) :=
      (State.Sound.endLane (h.run.giveUp hm) hlaid hord hm).strandAll m.bench
    have hremoved : ((((s.release m.slot (m.span m.t m.h)).endLane m.slot).strandAll m.bench).removeMove m.slot).Sound none :=
      ⟨hended.run.removeMove, hended.laid.removeMove, hended.order.removeMove m.slot⟩
    exact (((hremoved.setVerdict m.slot (final m.f)).notify n).tryQueue).trigger

theorem State.Sound.afterTail (h : s.Sound none) (k : SlotIx) : (s.afterTail k).Sound none := by
  unfold State.afterTail
  split
  · split
    · exact h.endMove k _ _
    · exact h.settleProgress k
  · exact h

theorem State.Sound.tailRelease (h : s.Sound none) (hm : m ∈ s.moves) (hf : m.f = m.t + 1) : (s.tailRelease m).Sound none :=
  (h.leftTail hm hf).afterTail m.slot

theorem State.Sound.silenceExpiry (h : s.Sound none) (k : SlotIx) : (s.silenceExpiry k).Sound none := by
  unfold State.silenceExpiry
  split
  · exact h
  · split
    · split
      · exact h.endMove k _ _
      · exact h.enterStopping k _
    · exact h

theorem State.Sound.backoffExpiry (h : s.Sound none) (k : SlotIx) : (s.backoffExpiry k).Sound none := by
  unfold State.backoffExpiry
  split
  · exact h
  · rename_i m hm
    split
    · rename_i hcond
      split
      · exact h.enterStopping k _
      · rw [Bool.and_eq_true, decide_eq_true_eq] at hcond
        exact h.retryMove hm hcond.1
    · exact h

end ends

end Sys2Proof.Machine
end


section
/-!
PROOFS. The reports keep the laws (chapter 5).
-/

open Sys2Proof Sys2Proof.Machine

namespace Sys2Proof.Machine

section reports
variable {s t : State} {k : SlotIx} {l : LaneIx} {m : Move} {g b : Nat} {x : Option SlotIx} {u : Move → Move}

/-- A change of a move that the laws do not see. -/
theorem State.Sound.updateMove_face (h : s.Sound x) (k : SlotIx) (e : Edits x s (s.updateMove k u)) (hu : ∀ y, (u y).face = y.face) :
    (s.updateMove k u).Sound x := by
  refine h.alike e (.updateMove s k fun y => ?_) (s.updateMove_map k Move.face hu) (fun _ => .refl _) rfl fun _ hq => hq
  obtain ⟨hslot, -, -, -, -, -, -, hlane, -, -, hext⟩ := Move.face_fields (hu y)
  exact ⟨hslot, fun he => hext.symm.trans he, fun hn => hlane.trans hn⟩

theorem State.setFence_occupant (s : State) (ids : List Nat) (c : FenceCause) (g : Nat) :
    (s.setFence ids c).occupant g = s.occupant g := by
  refine (State.updateSegs_occupant (w := fun r => { r with fence := some c }) fun _ => rfl).trans ?_
  simp only [ite_self]
  rfl

theorem State.survey_occupant (s : State) (a g : Nat) : (s.survey a).occupant g = s.occupant g := by
  refine (State.updateSegs_occupant (w := fun r => { r with surveyed := true }) fun _ => rfl).trans ?_
  simp only [ite_self]
  rfl

theorem State.Sound.heard (h : s.Sound none) (b : Nat) : (s.heard b).Sound none := by
  have hedits : Edits none s (s.heard b) := .heard s b
  unfold State.heard at hedits ⊢
  split
  · rename_i m hm
    rw [hm] at hedits
    exact h.updateMove_face m.slot hedits fun _ => rfl
  · exact h

/-! ### Intrusions (R103 to R105, R113) -/

theorem Steady.benches (h : Steady s t) {y : Move} (hy : y ∈ t.moves) : ∃ m ∈ s.moves, m.bench = y.bench := by
  have hin : y.fixed ∈ s.moves.map Move.fixed := h.moves ▸ List.mem_map_of_mem hy
  obtain ⟨m, hm, he⟩ := List.mem_map.1 hin
  simp only [Move.fixed, Prod.mk.injEq] at he
  exact ⟨m, hm, he.2.2.1⟩

/-- A mark after a change that admits no move and moves no bench. -/
theorem State.Sound.mark_after (h : t.Sound none) (hsteady : Steady s t) (hocc : t.occupant g = s.occupant g)
    (hg : ∀ m ∈ s.moves, s.occupant g ≠ some (.bench m.bench)) (hb : ∀ m ∈ s.moves, m.bench ≠ b) : (t.mark g b).Sound none := by
  refine h.mark (fun y hy => ?_) fun y hy => ?_
  · obtain ⟨m, hm, he⟩ := hsteady.benches hy
    rw [hocc, ← he]
    exact hg m hm
  · obtain ⟨m, hm, he⟩ := hsteady.benches hy
    rw [← he]
    exact hb m hm

/-- The mark of an intrusion names no live bench (R103). -/
theorem State.Sound.intruderMark_ne (h : s.Sound none) {mv : Option Move} (hmv : s.moveOfBench b = mv) (m : Move) (hm : m ∈ s.moves) :
    m.bench ≠ intruderMark mv b := by
  cases mv with
  | some y => exact h.bench_ne_zero m hm
  | none =>
    by_cases h0 : b = 0
    · subst h0
      exact h.bench_ne_zero m hm
    · exact State.not_bench_of_none hmv h0 m hm

theorem State.Sound.recordLaw (h : s.Sound x) : s.RecordLaw := fun l => ⟨(h.laid.lanes l).timer, (h.laid.lanes l).record⟩

theorem State.Sound.intrudeLane_occupant (h : s.Sound none) (l : LaneIx) (g : Nat) : (s.intrudeLane l).occupant g = s.occupant g :=
  State.occupant_congr (State.place_of_unheld (State.intrudeLane_unheld h.recordLaw l)) g

/-- A live bench on a cell is the lane's crossing bench. -/
theorem State.Sound.carriesCrosser (h : s.Sound none) (hcell : s.cellLane g = some l) (hm : m ∈ s.moves)
    (ho : s.occupant g = some (.bench m.bench)) : s.carriesCrosser l g = true := by
  have hslot := State.move?_of_mem h.run.slots.moves hm
  obtain ⟨-, hin⟩ := h.held_of_occupant hm ho
  have hrec := Lane.record_of_crosses ((h.move hslot).cells g hin l hcell)
  unfold State.carriesCrosser
  rw [hrec]
  dsimp only
  rw [hslot]
  exact decide_eq_true ho

theorem State.Sound.stopIntruder (h : s.Sound none) (mv : Option Move) : (s.stopIntruder mv).Sound none := by
  unfold State.stopIntruder
  split
  · exact h.enterStopping _ _
  · exact h

theorem State.Sound.intrudeCell (h : s.Sound none) {mv : Option Move} (hmv : s.moveOfBench b = mv) (hcell : s.cellLane g = some l) :
    (s.intrudeCell mv b g l).Sound none := by
  unfold State.intrudeCell
  dsimp only
  refine State.Sound.stopIntruder (State.Sound.notify ?_ _) mv
  split
  · exact h.intrudeLane l
  · rename_i hno
    exact (h.intrudeLane l).mark_after (s.intrudeLane_steady l) (h.intrudeLane_occupant l g)
      (fun m hm ho => hno (h.carriesCrosser hcell hm ho)) (h.intruderMark_ne hmv)

theorem State.Sound.intrudeHeld (h : s.Sound none) {mv : Option Move} (hmv : s.moveOfBench b = mv) (hheld : s.holder g = some k) :
    (s.intrudeHeld mv b g k).Sound none := by
  have hstop := (h.enterStopping k .intrusion).setFence [g] .intrusion
  have hsteady : Steady s ((s.enterStopping k .intrusion).setFence [g] .intrusion) :=
    (State.setFence_steady _ _ _).after (s.enterStopping_steady k _)
  have hocc : ((s.enterStopping k .intrusion).setFence [g] .intrusion).occupant g = s.occupant g :=
    (State.setFence_occupant _ _ _ _).trans
      (State.occupant_congr (State.place_of_unheld (s.enterStopping_unheld k .intrusion)) g)
  unfold State.intrudeHeld
  dsimp only
  generalize (s.enterStopping k .intrusion).setFence [g] .intrusion = v at hstop hsteady hocc ⊢
  have hmarked : ∀ keeps : Bool, (∀ m ∈ s.moves, s.occupant g = some (.bench m.bench) → keeps = true) →
      (if keeps then v else v.mark g (intruderMark mv b)).Sound none := by
    intro keeps hkeeps
    split
    · exact hstop
    · rename_i hno
      exact hstop.mark_after hsteady hocc (fun m hm ho => hno (hkeeps m hm ho)) (h.intruderMark_ne hmv)
  refine State.Sound.stopIntruder (State.Sound.notify (hmarked _ fun m hm ho => ?_) _) mv
  obtain ⟨hk, -⟩ := h.held_of_occupant hm ho
  have hslot := State.move?_of_mem h.run.slots.moves hm
  obtain rfl := Option.some.inj (hheld.symm.trans hk)
  rw [hslot]
  exact decide_eq_true (hocc.trans ho)

theorem State.Sound.intrudeUnheld (h : s.Sound none) {mv : Option Move} (hmv : s.moveOfBench b = mv) (hfree : s.holder g = none) :
    (s.intrudeUnheld mv b g).Sound none := by
  refine State.Sound.stopIntruder (State.Sound.notify ((h.setFence [g] .intrusion).mark_after (s.setFence_steady _ _)
    (s.setFence_occupant _ _ _)
    (fun m hm ho => ?_) (h.intruderMark_ne hmv)) _) mv
  obtain ⟨hk, -⟩ := h.held_of_occupant hm ho
  rw [hfree] at hk
  cases hk

theorem State.Sound.intrude (h : s.Sound none) {mv : Option Move} (hmv : s.moveOfBench b = mv) (g : Nat) :
    (s.intrude mv b g).Sound none := by
  unfold State.intrude
  split
  · rename_i l hcell
    exact h.intrudeCell hmv hcell
  · split
    · rename_i k hheld
      exact h.intrudeHeld hmv hheld
    · rename_i hfree
      exact h.intrudeUnheld hmv hfree

/-! ### The six kinds -/

theorem State.Sound.arrivedReport (h : s.Sound none) (b g : Nat) : (arrivedReport b g s).1.Sound none := by
  unfold Machine.arrivedReport
  split
  · rename_i m hm
    obtain ⟨-, hmem, -⟩ := State.moveOfBench_some hm
    split
    · rename_i hheld
      split
      · rename_i htf
        split
        · rename_i hg
          exact h.advance hmem hheld htf hg
        · exact h.enterStopping _ _
      · exact h.enterStopping _ _
    · exact h.intrude hm g
  · rename_i hm
    split
    · exact h
    · exact h.intrude hm g

theorem State.Sound.leftReport (h : s.Sound none) (b g : Nat) : (leftReport b g s).1.Sound none := by
  unfold Machine.leftReport
  split
  · rename_i m hm
    obtain ⟨-, hmem, -⟩ := State.moveOfBench_some hm
    split
    · split
      · rename_i hf
        exact h.tailRelease hmem hf
      · exact h
    · exact h.enterStopping _ _
  · rename_i hm
    exact h.vacate g (h.intruderMark_ne hm)

theorem State.Sound.stallAgain (h : s.Sound x) (k : SlotIx) : (s.stallAgain k).Sound x := by
  have hedits : Edits x s (s.updateMove k fun y => { y with backoff := s.startTimer s.backoffFull }) :=
    .updateMove s k ⟨fun _ => rfl, fun hmode _ hh => ⟨hh.1, State.startTimer_halted hmode _⟩⟩ fun _ => rfl
  exact (h.updateMove_face k hedits fun _ => rfl).notify _

theorem State.Sound.stalledReport (h : s.Sound none) (b g : Nat) : (stalledReport b g s).1.Sound none := by
  unfold Machine.stalledReport
  split
  · rename_i m hm
    have hslot := State.move?_of_moveOfBench h.run.slots hm
    split
    · unfold State.takeStall
      split
      · exact h.stallMove hslot
      · exact h.stallMove hslot
      · exact h.stallMove hslot
      · exact h.stallMove hslot
      · exact h.stallAgain m.slot
      · exact h
    · exact h.enterStopping _ _
  · exact h

theorem State.Sound.haltedReport (h : s.Sound none) (b g : Nat) : (haltedReport b g s).1.Sound none := by
  unfold Machine.haltedReport
  split
  · split
    · show State.Sound none (s.takeHalt _)
      unfold State.takeHalt
      split
      · exact h.endMove _ _ _
      · exact h.endMove _ _ _
    · exact h.enterStopping _ _
  · exact h

theorem State.Sound.seenIntrusion (h : s.Sound none) (hfree : s.occupant g = none) : (s.seenIntrusion g).Sound none := by
  have hno : ∀ m ∈ s.moves, s.occupant g ≠ some (.bench m.bench) := fun m _ ho => by
    rw [hfree] at ho
    cases ho
  unfold State.seenIntrusion
  split
  · rename_i l _
    exact ((h.intrudeLane l).mark_after (s.intrudeLane_steady l) (h.intrudeLane_occupant l g) hno h.bench_ne_zero).notify _
  · exact ((h.setFence [g] .intrusion).mark_after (s.setFence_steady _ _) (s.setFence_occupant _ _ _) hno
      h.bench_ne_zero).notify _

theorem State.Sound.seenReport (h : s.Sound none) (b g : Nat) : (seenReport b g s).1.Sound none := by
  unfold Machine.seenReport
  split
  · exact h
  · rename_i r hr
    have hocc := State.occupant_of_seg hr
    split
    · refine h.updateSegs (.records s [g] Segment.seen fun r => ⟨rfl, rfl, rfl, rfl, fun b hb => ?_⟩) (fun _ => rfl)
        fun m _ g _ r _ => ?_
      · cases ho : r.occupant <;> simp_all [Segment.seen]
      · cases ho : r.occupant <;> simp [Segment.seen, ho]
    · split
      · exact h.heard _
      · exact h
      · rename_i hnone
        split
        · exact h
        · exact h.seenIntrusion (hocc.trans hnone)

/-- A segment whose record names no managed bench. -/
theorem State.Sound.unmanaged (h : s.Sound none) (hno : s.moveOfOccupant (s.occupant g) = none) (m : Move) (hm : m ∈ s.moves) :
    s.occupant g ≠ some (.bench m.bench) := by
  intro ho
  rw [ho] at hno
  exact State.not_bench_of_none (b := m.bench) hno (h.bench_ne_zero m hm) m hm rfl

theorem State.Sound.emptyReport (h : s.Sound none) (b g : Nat) : (emptyReport b g s).1.Sound none := by
  unfold Machine.emptyReport
  split
  · exact h
  · rename_i r hr
    have hocc := State.occupant_of_seg hr
    split
    · exact (((h.survey g).setFence [g] .vanished).notify _).enterStopping _ _
    · rename_i hno
      have hun := h.unmanaged (g := g) (hocc ▸ hno)
      split
      · refine (h.survey g).clear fun m hm => ?_
        rw [State.survey_occupant]
        exact hun m hm
      · split
        · exact h.clear hun
        · exact ((h.clear hun).setFence [g] .vanished).notify _
        · exact h

theorem State.Sound.checkedReport {j : Nat → Nat → State → Judgement} (h : s.Sound none)
    (hj : ∀ b g, (j b g s).1.Sound none) (nb : Bool) (r : ReportRecord) : (checkedReport j nb r s).1.Sound none := by
  unfold Machine.checkedReport
  split
  · exact h
  · split
    · exact hj _ _
    · exact h

theorem State.Sound.hearing {j : Nat → Nat → State → Judgement} (hj : ∀ b g, (j b g s).1.Sound none) (b g : Nat) :
    (hearing j b g s).1.Sound none := by
  unfold Machine.hearing
  dsimp only
  split
  · exact (hj b g).heard b
  · exact hj b g

/-- Every judgement of a report keeps the laws. -/
theorem State.Sound.carryReport (h : s.Sound none) (kind : Option ReportKind) (r : ReportRecord) :
    (carryReport kind r s).1.Sound none := by
  unfold Machine.carryReport
  split
  · exact h.checkedReport (State.Sound.hearing h.arrivedReport) _ r
  · exact h.checkedReport (State.Sound.hearing h.leftReport) _ r
  · exact h.checkedReport (State.Sound.hearing h.stalledReport) _ r
  · exact h.checkedReport (State.Sound.hearing h.haltedReport) _ r
  · exact h.checkedReport h.seenReport _ r
  · exact h.checkedReport h.emptyReport _ r
  · exact h

theorem State.Sound.updateReport (h : s.Sound x) (j : ReportIx) (w : ReportSlot → ReportSlot) : (s.updateReport j w).Sound x :=
  h.beside rfl rfl

theorem State.Sound.updateOrder (h : s.Sound x) (k : SlotIx) (w : OrderSlot → OrderSlot) : (s.updateOrder k w).Sound x :=
  h.beside rfl rfl

theorem State.Sound.noteRejection (h : s.Sound x) (a : Acceptance) : (s.noteRejection a).Sound x := by
  unfold State.noteRejection
  split
  · exact h.notify _
  all_goals exact h

theorem State.Sound.takeReport (h : s.Sound none) (kind : Option ReportKind) (j : ReportIx) (w : Word) :
    (s.takeReport (Machine.carryReport kind) j w).Sound none := by
  have hjudge : ∀ {v : State}, v.Sound none → (v.judge (Machine.carryReport kind) j).1.Sound none := by
    intro v hv
    unfold State.judge
    split
    · exact hv
    · exact hv.carryReport kind _
  unfold State.takeReport
  dsimp only
  exact (((hjudge ((h.updateReport j _).updateReport j _)).updateReport j _).noteRejection _).announce s

end reports

end Sys2Proof.Machine
end


section
/-!
PROOFS. The orders keep the laws (chapter 7).
-/

open Sys2Proof Sys2Proof.Machine

namespace Sys2Proof.Machine

section orders
variable {s t : State} {k : SlotIx} {l : LaneIx} {m : Move} {g b : Nat} {x : Option SlotIx} {o : Occupant} {q : QueuedOrder}

/-! ### MOVE and CANCEL -/

theorem State.Sound.enqueue (h : s.Sound none) (e : Edits none s { s with queue := s.queue ++ [q] }) (hbench : q.bench ≠ 0) :
    ({ s with queue := s.queue ++ [q] } : State).Sound none := by
  refine h.of e (.beside rfl rfl rfl) ⟨fun m hm hx => ?_, fun l => ?_, fun y hy => ?_, h.laid.benches⟩
  · exact (h.laid.moves m hm hx).congr rfl rfl (fun _ b hb => ⟨b, hb⟩) (fun _ hc => hc) fun _ => Iff.rfl
  · exact (h.laid.lanes l).congr rfl (.refl _) fun _ m hm _ => ⟨m, hm, rfl⟩
  · rcases List.mem_append.1 hy with hold | hnew
    · exact h.laid.queue y hold
    · exact (List.mem_singleton.1 hnew) ▸ hbench

theorem State.Sound.placeMove (h : s.Sound none) (hlive : s.live q.slot = false) (hroute : s.RouteLaw q.route)
    (hbench : q.bench ≠ 0) (k : SlotIx) : (s.placeMove k q).Sound none := by
  cases hfault : s.admissionFault q.bench (q.route.headD 0) (decide (s.moves.length < Config.moveTableSize)) with
  | some r =>
    rw [State.placeMove_refused hfault]
    exact h.refuse k r
  | none =>
    by_cases hroom : s.moves.length < Config.moveTableSize
    · rw [decide_eq_true hroom] at hfault
      rw [State.placeMove_admitted hroom hfault]
      exact h.admitOrder hfault hlive hroute hbench
    · rw [decide_eq_false hroom] at hfault
      rw [State.placeMove_held hroom hfault]
      split
      · rename_i hq
        exact h.enqueue (.one (.enqueue q hfault hlive (Nat.not_lt.1 hroom) hq hroute)) hbench
      · exact h.refuse k _

theorem State.Sound.moveOrder (h : s.Sound none) (o : OrderRecord) (hlive : s.live k = false) : (moveOrder k o s).Sound none := by
  unfold Machine.moveOrder
  split
  · exact h.refuse k _
  · split
    · exact h.refuse k _
    · rename_i hbench
      split
      · rename_i hroute
        obtain ⟨hmin, hmax, hlen, hrest⟩ := (s.routeOk_iff _ _).1 hroute
        exact h.placeMove hlive ((s.routeOk_iff _ _).2 ⟨hlen ▸ hmin, hlen ▸ hmax, rfl, hrest⟩) hbench k
      · exact h.refuse k _

theorem State.Sound.cancelOrder (h : s.Sound none) (k : SlotIx) (o : OrderRecord) : (cancelOrder k o s).Sound none := by
  unfold Machine.cancelOrder
  split
  · dsimp only
    split
    · exact ((h.unqueue List.filter_sublist).setVerdict _ _).applied k
    · exact (h.enterStopping _ _).applied k
    · exact h.refuse k _
  · exact h.refuse k _

/-! ### FENCE, UNFENCE, VOUCH and TOKEN -/

theorem State.Sound.fenceOrder (h : s.Sound none) (k : SlotIx) (o : OrderRecord) : (fenceOrder k o s).Sound none := by
  unfold Machine.fenceOrder
  split
  · exact (h.setFence _ _).applied k
  · exact h.refuse k _

theorem State.Sound.removeFence (h : s.Sound none) (ids : List Nat) : (s.removeFence ids).Sound none :=
  h.updateSegs (.records s ids _ fun _ => ⟨rfl, rfl, rfl, rfl, fun _ => id⟩) (fun _ => rfl) fun _ _ _ _ _ _ => Iff.rfl

theorem State.Sound.unfenceOrder (h : s.Sound none) (k : SlotIx) (o : OrderRecord) : (unfenceOrder k o s).Sound none := by
  unfold Machine.unfenceOrder
  split
  · exact (h.removeFence _).applied k
  · exact h.refuse k _

theorem Segment.vouched_config (r : Segment) : r.vouched.config = r.config := by
  unfold Segment.vouched
  split <;> rfl

/-- Segments that no move holds can be vouched for (R18). -/
theorem State.Sound.vouch (h : s.Sound none) {ids : List Nat} (hfree : ∀ g ∈ ids, s.holder g = none) :
    (s.updateSegs ids Segment.vouched).Sound none := by
  refine h.updateSegs (.records s ids _ Segment.vouched_recorded) Segment.vouched_config fun m hm g hg r hr => ?_
  have hno : r.occupant ≠ some (.bench m.bench) := fun ho => by
    obtain ⟨hheld, -⟩ := h.held_of_occupant hm ((State.occupant_of_seg hr).trans ho)
    rw [hfree g hg] at hheld
    cases hheld
  obtain ⟨-, -, -, -, hkept⟩ := Segment.vouched_recorded r
  exact ⟨hkept m.bench, fun ho => absurd ho hno⟩

theorem State.Sound.vouchOrder (h : s.Sound none) (k : SlotIx) (o : OrderRecord) : (vouchOrder k o s).Sound none := by
  unfold Machine.vouchOrder
  split
  · split
    · exact h.refuse k _
    · rename_i hany
      refine (h.vouch fun g hg => ?_).applied k
      rw [List.any_eq_true] at hany
      cases hheld : s.holder g with
      | none => rfl
      | some i => exact absurd ⟨g, hg, by rw [hheld]; rfl⟩ hany
  · exact h.refuse k _

theorem State.Sound.tokenOrder (h : s.Sound none) (k : SlotIx) (o : OrderRecord) : (tokenOrder k o s).Sound none := by
  unfold Machine.tokenOrder
  split
  · exact h.refuse k _
  · rename_i hb0
    split
    · exact h.refuse k _
    · rename_i hheld
      rw [Bool.not_eq_true] at hheld
      split
      · rename_i m hm
        obtain ⟨hb, -, -⟩ := State.moveOfBench_some hm
        exact ((h.updateMove_face m.slot (.one (.giveToken m (hb ▸ hheld) (by rw [hb]; exact hm))) fun _ => rfl).applied k).trigger
      · rename_i hm
        split
        · rename_i hroom
          refine State.Sound.applied (h.alike (.one (.token _ hb0 hheld hm hroom)) (.beside rfl rfl rfl) rfl (fun _ => .refl _) rfl
            fun _ hq => hq) k
        · exact h.refuse k _

/-! ### LANE_CLEAR (R89) -/

/-- What is recorded on a cell of a lane is among the occupants of its cells. -/
theorem State.occupant_mem_cells (hcell : s.cellLane g = some l) (ho : s.occupant g = some o) : o ∈ s.cellOccupants l := by
  unfold State.cellLane at hcell
  unfold State.occupant at ho
  unfold State.cellOccupants
  cases hseg : s.seg? g with
  | none =>
    rw [hseg] at ho
    cases ho
  | some r =>
    rw [hseg] at hcell ho
    refine List.mem_filterMap.2 ⟨r, List.mem_filter.2 ⟨(State.seg?_some hseg).2, ?_⟩, ho⟩
    unfold Segment.isCellOf
    dsimp only at hcell
    cases hkind : r.kind with
    | laneCell y j =>
      rw [hkind] at hcell
      exact decide_eq_true (Option.some.inj hcell)
    | berth y j =>
      rw [hkind] at hcell
      cases hcell
    | plain =>
      rw [hkind] at hcell
      cases hcell

/-- An entered crossing has its bench on a cell of its lane (R71, R77). -/
theorem State.Sound.entered_on_cells (h : s.Sound none) (hc : s.lanes[l].crossing = some ⟨k, true⟩) (hm : s.move? k = some m) :
    Occupant.bench m.bench ∈ s.cellOccupants l := by
  obtain ⟨hroute, ⟨htf, hfh, hlen, -⟩, -⟩ := h.run.runs m (State.move?_some hm).2
  have hcross := h.laid.crosses hc hm
  have hplace := (h.move hm).place
  have hof : ∀ p, m.t ≤ p → p ≤ m.f → s.isCell (m.seg p) = true → Occupant.bench m.bench ∈ s.cellOccupants l := by
    intro p htp hpf hcell
    obtain ⟨y, hy⟩ := State.cellLane_of_isCell hcell
    have hstood : m.seg p ∈ m.span m.t m.f := Move.mem_span.2 ⟨p, htp, hpf, by omega, rfl⟩
    obtain rfl := hcross.cells _ (Move.span_mono hfh hstood) y hy
    exact State.occupant_mem_cells hy ((hplace _).2 hstood)
  obtain ⟨-, hcell, -⟩ := hcross.entered rfl
  rcases hcell with hcell | hcell
  · exact hof m.t le_rfl htf hcell
  · exact hof m.f htf le_rfl hcell

/-- A faulted lane with empty cells has no record. -/
theorem State.Sound.no_record_of_empty (h : s.Sound none) (hstate : s.lanes[l].state = .faulted) (hempty : s.cellOccupants l = []) :
    s.lanes[l].crossing = none := by
  cases hrec : s.lanes[l].crossing with
  | none => rfl
  | some c =>
    obtain ⟨slot, entered⟩ := c
    obtain ⟨hstate', -⟩ := (h.laid.lanes l).record _ hrec
    obtain ⟨-, m, hm, -⟩ := (h.laid.lanes l).crosser _ hrec
    rcases hstate' with hs | ⟨-, he⟩
    · rw [hstate] at hs
      cases hs
    · have hentered : entered = true := he
      subst hentered
      have hin := h.entered_on_cells hrec hm
      rw [hempty] at hin
      cases hin

/-- A clearable occupant shows that the lane has a record. -/
theorem State.Sound.timer_of_clearable (h : s.Sound none) (hone : s.clearableOccupant l o = true) :
    s.lanes[l].releaseTimer = .stopped := by
  unfold State.clearableOccupant at hone
  split at hone
  · cases hone
  · split at hone
    · rw [Bool.and_eq_true] at hone
      exact ((h.laid.lanes l).record _ (Lane.record_of_crosses hone.1)).2
    · cases hone

theorem State.Sound.clearFaulted (h : s.Sound none) (hstate : s.lanes[l].state = .faulted) (k : SlotIx) :
    (s.clearFaulted k l).Sound none := by
  unfold State.clearFaulted
  dsimp only
  split
  · exact h.refuse k _
  · split
    · rename_i hempty
      exact (h.leaveFault (h.no_record_of_empty hstate (List.isEmpty_iff.1 hempty))).applied k
    · rename_i hsome
      split
      · rename_i hall
        rw [List.isEmpty_iff] at hsome
        obtain ⟨o, ho⟩ := List.exists_mem_of_ne_nil _ hsome
        exact (h.laneToCrossing (h.timer_of_clearable (List.all_eq_true.1 hall o ho))).applied k
      · exact h.refuse k _

theorem State.Sound.laneClearOrder (h : s.Sound none) (k : SlotIx) (o : OrderRecord) : (laneClearOrder k o s).Sound none := by
  unfold Machine.laneClearOrder
  split
  · dsimp only
    split
    · exact h.refuse k _
    · split
      · exact h.refuse k _
      · exact h.refuse k _
      · exact h.refuse k _
      · rename_i hstate
        exact (h.leaveSettling (h.laid.quiet_open (by rw [hstate]; decide) (by rw [hstate]; decide))).applied k
      · rename_i hstate
        exact h.clearFaulted hstate k
  · exact h.refuse k _

/-! ### STOP_ALL and RESUME (R90, R91, R130, R133) -/

/-- The arbiter's marks after a change of mode, if a pass is asked for as the new mode has it. -/
theorem State.Ordered.of_faces (h : s.Ordered) (hmoves : t.moves.map Move.face = s.moves.map Move.face)
    (hpass : t.arbiter.pass = s.arbiter.pass) (hcheck : t.arbiter.check = s.arbiter.check)
    (hasked : t.arbiter.further = false ∧ t.arbiter.due = false) : t.Ordered := by
  have hforth : ∀ m ∈ s.moves, ∃ y ∈ t.moves, y.face = m.face := fun m hm => by
    have hin : m.face ∈ t.moves.map Move.face := hmoves ▸ List.mem_map_of_mem hm
    obtain ⟨y, hy, he⟩ := List.mem_map.1 hin
    exact ⟨y, hy, he⟩
  obtain ⟨hturns, -, -⟩ := h.pass
  refine ⟨fun m hm he => ?_, fun c hc => ?_, fun p hp => ?_, fun hf => ?_, fun hd => ?_⟩
  · have hin : m.face ∈ s.moves.map Move.face := hmoves ▸ List.mem_map_of_mem hm
    obtain ⟨y, hy, hface⟩ := List.mem_map.1 hin
    obtain ⟨hslot, -, -, -, -, -, -, -, -, -, hext⟩ := Move.face_fields hface
    rw [hcheck, hpass, ← hslot]
    exact h.visit y hy (hext.trans he)
  · obtain ⟨hp, h1, h24, hnodup, hmem⟩ := h.check c (hcheck ▸ hc)
    refine ⟨hpass ▸ hp, h1, h24, hnodup, fun i hi => ?_⟩
    obtain ⟨m, hm, hslot, hlane⟩ := hmem i hi
    obtain ⟨y, hy, hface⟩ := hforth m hm
    obtain ⟨hslot', -, -, -, -, -, -, hlane', -⟩ := Move.face_fields hface
    exact ⟨y, hy, hslot'.trans hslot, hlane'.trans hlane⟩
  · obtain ⟨hnodup, hmem⟩ := hturns p (hpass ▸ hp)
    refine ⟨hnodup, fun i hi => ?_⟩
    obtain ⟨m, hm, hslot⟩ := hmem i hi
    obtain ⟨y, hy, hface⟩ := hforth m hm
    obtain ⟨hslot', -⟩ := Move.face_fields hface
    exact ⟨y, hy, hslot'.trans hslot⟩
  · rw [hasked.1] at hf
    cases hf
  · rw [hasked.2] at hd
    cases hd

theorem Move.map_face_of {u : Move → Move} (hu : ∀ y, (u y).face = y.face) (ms : List Move) :
    (ms.map u).map Move.face = ms.map Move.face := by
  rw [List.map_map]
  exact List.map_congr_left fun y _ => hu y

theorem State.Sound.haltPart (h : s.Sound none) : s.haltPart.Sound none := by
  have hfaces : s.haltPart.moves.map Move.face = s.moves.map Move.face := Move.map_face_of (u := Move.freeze) (fun _ => rfl) s.moves
  refine ⟨h.run.of_edits (.one .halt), h.laid.of_alike h.run hfaces (fun y => ?_) rfl (fun _ hq => hq) fun _ _ _ _ => Iff.rfl,
    h.order.of_faces hfaces rfl rfl ⟨rfl, rfl⟩⟩
  have hln : s.haltPart.lanes[y] = s.lanes[y].freeze := Vector.getElem_map ..
  rw [hln]
  exact ⟨rfl, fun ht => by rw [Lane.freeze, ht]; rfl⟩

theorem State.Sound.stopAllOrder (h : s.Sound none) (k : SlotIx) (o : OrderRecord) : (stopAllOrder k o s).Sound none := by
  unfold Machine.stopAllOrder
  split
  · exact h.haltPart.applied k
  all_goals exact h.applied k

theorem State.Sound.thawLane (h : s.Sound none) (hmode : s.mode = .running) (l : LaneIx) : (s.thawLane l).Sound none := by
  refine h.alike (.updateLane s l _ fun hm => absurd (hmode.symm.trans hm) (by decide)) (.oneLane (s.updateLane_oneLane l _)) rfl
    (fun y => ?_) rfl fun _ hq => hq
  have hln := s.thawLane_get l y
  rw [hln]
  split
  · rename_i hy
    subst hy
    exact ⟨rfl, fun ht => by rw [State.thawedLane, ht]; rfl⟩
  · exact .refl _

theorem State.Sound.wake (h : s.Sound none) (hmode : s.mode = .halted) :
    ({ s with mode := .running, moves := s.moves.map s.thawMove } : State).Sound none := by
  have hfaces : (s.moves.map s.thawMove).map Move.face = s.moves.map Move.face := Move.map_face_of (u := s.thawMove) (fun _ => rfl) s.moves
  obtain ⟨-, hfurther, hdue⟩ := h.order.pass
  have hno : ¬ s.mode = .running := by rw [hmode]; decide
  refine ⟨h.run.of_edits (.one (.wake _ (fun _ => rfl) fun _ => rfl)),
    h.laid.of_alike h.run hfaces (fun y => .refl _) rfl (fun _ hq => hq) fun _ _ _ _ => Iff.rfl,
    h.order.of_faces hfaces rfl rfl ⟨?_, ?_⟩⟩
  · exact Bool.eq_false_iff.2 fun hf => hno (hfurther hf).2
  · exact Bool.eq_false_iff.2 fun hd => hno (hdue hd).2

theorem State.Sound.resumePart (h : s.Sound none) (hmode : s.mode = .halted) : s.resumePart.Sound none :=
  ((((((((((h.wake hmode).thawLane rfl 0).thawLane rfl 1).thawLane rfl 2).thawLane rfl 3).askRest 0).askRest 1).askRest 2).askRest
    3).trigger)

theorem State.Sound.resumeOrder (h : s.Sound none) (k : SlotIx) (o : OrderRecord) : (resumeOrder k o s).Sound none := by
  unfold Machine.resumeOrder
  split
  · rename_i hmode
    exact (h.resumePart hmode).applied k
  all_goals exact h.applied k

/-! ### The take (R137, R139 to R141) -/

/-- Every order in a slot that is not live keeps the laws. -/
theorem State.Sound.carryOrder (h : s.Sound none) (kind : Option OrderKind) (o : OrderRecord) (hlive : s.live k = false) :
    (carryOrder kind k o s).Sound none := by
  unfold Machine.carryOrder
  split
  · exact h.moveOrder o hlive
  · exact h.cancelOrder k o
  · exact h.fenceOrder k o
  · exact h.unfenceOrder k o
  · exact h.vouchOrder k o
  · exact h.tokenOrder k o
  · exact h.laneClearOrder k o
  · exact h.stopAllOrder k o
  · exact h.resumeOrder k o
  · exact h.beside rfl rfl
  · exact h.refuse k _

theorem State.Sound.takeOrder (h : s.Sound none) (kind : Option OrderKind) (k : SlotIx) (w : Word) :
    (s.takeOrder (Machine.carryOrder kind) k w).Sound none := by
  unfold State.takeOrder
  dsimp only
  have htag : ((s.mergeTag k w).updateOrder k fun o => { o with lastTag := tagOf w }).Sound none :=
    State.Sound.updateOrder (State.Sound.updateOrder h k _) k _
  generalize (s.mergeTag k w).updateOrder k (fun o => { o with lastTag := tagOf w }) = v at htag ⊢
  split
  · exact ((htag.updateOrder k _).notify _).notify _
  · rename_i hlive
    rw [Bool.not_eq_true] at hlive
    have hcleared : (v.clearVerdict k).Sound none := htag.updateOrder k _
    split
    · exact hcleared.refuse k _
    · exact (hcleared.carryOrder kind _ hlive).announce s

end orders

end Sys2Proof.Machine
end


section
/-!
PROOFS. The Extension Arbiter keeps the laws (R41, R42, R44 to R47, R54 to R60).
-/

open Sys2Proof Sys2Proof.Machine

namespace Sys2Proof.Machine

/-! ### The marks of the arbiter -/

/-- No move has been granted a position in a visit under way. -/
def State.Unvisited (s : State) : Prop := ∀ m ∈ s.moves, m.extending = false

section marks
variable {s t : State} {k : SlotIx} {m : Move} {u : Move → Move} {x : Option SlotIx} {p : List SlotIx}

theorem State.Unvisited.of_fresh (h : s.Ordered) (hno : s.arbiter.check ≠ none ∨ s.arbiter.pass.bind List.head? = none) :
    s.Unvisited := by
  intro m hm
  rw [← Bool.not_eq_true]
  intro he
  obtain ⟨hcheck, hhead⟩ := h.visit m hm he
  rcases hno with hno | hno
  · exact hno hcheck
  · rw [hno] at hhead
    cases hhead

theorem State.Ordered.unvisited (h : t.Unvisited) (hcheck : t.CheckLaw) (hpass : t.PassLaw) : t.Ordered :=
  ⟨fun m hm he => absurd (h m hm) (by rw [he]; decide), hcheck, hpass⟩

/-- Turns of a pass that are dropped, and a further pass or a due one asked for as before. -/
theorem State.PassLaw.kept (h : s.PassLaw) (hslots : t.moves.map (·.slot) = s.moves.map (·.slot)) (hmode : t.mode = s.mode)
    (hpass : ∀ p ∈ t.arbiter.pass, ∃ p' ∈ s.arbiter.pass, p.Sublist p')
    (hnone : t.arbiter.pass = none ↔ s.arbiter.pass = none)
    (hasked : t.arbiter.further = s.arbiter.further ∧ t.arbiter.due = s.arbiter.due) : t.PassLaw := by
  obtain ⟨hturns, hfurther, hdue⟩ := h
  refine ⟨fun p hp => ?_, fun hf => ?_, fun hd => ?_⟩
  · obtain ⟨p', hp', hsub⟩ := hpass p hp
    obtain ⟨hnodup, hmem⟩ := hturns p' hp'
    refine ⟨hnodup.sublist hsub, fun i hi => ?_⟩
    obtain ⟨m, hm, rfl⟩ := hmem i (hsub.subset hi)
    have hin : m.slot ∈ t.moves.map (·.slot) := hslots ▸ List.mem_map_of_mem hm
    exact List.mem_map.1 hin
  · obtain ⟨hp, hm⟩ := hfurther (hasked.1 ▸ hf)
    exact ⟨fun hn => hp (hnone.1 hn), hmode.trans hm⟩
  · obtain ⟨hp, hm⟩ := hdue (hasked.2 ▸ hd)
    exact ⟨hnone.2 hp, hmode.trans hm⟩

theorem State.CheckLaw.of_none (h : t.arbiter.check = none) : t.CheckLaw := fun c hc => by
  rw [h] at hc
  cases hc

/-! ### Moves marked or settled together -/

/-- A change of a move that keeps all but its marks and, if it is MOVING or BLOCKED, which of the two it is. -/
structure Move.Remarks (u : Move → Move) (m : Move) : Prop where
  kept : ((u m).slot, (u m).bench, (u m).route, ((u m).t, (u m).f, (u m).h), (u m).lane)
    = (m.slot, m.bench, m.route, (m.t, m.f, m.h), m.lane)
  rest : (u m).face = m.face ∨ (m.eligible = true ∧ (u m).eligible = true ∧ (u m).YieldLaw
    ∧ ((u m).extending = true → (u m).yield = .clear))

theorem Move.not_waiting_of_eligible (h : m.eligible = true) : m.state ≠ .laneWait ∧ m.state ≠ .crossing := by
  have hstate : m.state = .moving ∨ m.state = .blocked := by simpa [Move.eligible] using h
  rcases hstate with hs | hs <;> rw [hs] <;> decide

theorem State.Laid.remark (h : s.Laid none) (hslots : (s.moves.map (·.slot)).Nodup) (hmoves : t.moves = s.moves.map u)
    (hkept : ∀ y, (u y).slot = y.slot) (hu : ∀ m ∈ s.moves, Move.Remarks u m)
    (hsame : (t.segs, t.lanes, t.queue) = (s.segs, s.lanes, s.queue)) : t.Laid none := by
  simp only [Prod.mk.injEq] at hsame
  obtain ⟨hsegs, hlanes, hqueue⟩ := hsame
  have hconfig : t.segs.map Segment.config = s.segs.map Segment.config := by rw [hsegs]
  have hocc : ∀ g, t.occupant g = s.occupant g := fun g => by rw [State.occupant, State.occupant, State.seg?, State.seg?, hsegs]
  have hsound : ∀ m ∈ s.moves, s.MoveSound m := fun m hm => h.moves m hm (Option.some_ne_none _).symm
  have hfree : ∀ m ∈ s.moves, m.eligible = true → m.lane = none := fun m hm he =>
    (hsound m hm).lane_of_eligible h (State.move?_of_mem hslots hm) he
  refine ⟨fun y hy _ => ?_, fun l => ?_, fun q hq => h.queue q (hqueue ▸ hq), ?_⟩
  · rw [hmoves] at hy
    obtain ⟨m, hm, rfl⟩ := List.mem_map.1 hy
    obtain ⟨hkeep, hrest⟩ := hu m hm
    rcases hrest with hface | ⟨helig, helig', hyield, hext⟩
    · exact (hsound m hm).congr hconfig hface (fun l b hb => ⟨b, by rw [hlanes]; exact hb⟩)
        (fun l hc => by rw [hlanes]; exact hc) fun g => by rw [hocc]
    · simp only [Prod.mk.injEq] at hkeep
      obtain ⟨-, hbench, hroute, ⟨ht, hf, hh⟩, hlane⟩ := hkeep
      have hl := hfree m hm helig
      refine .free (hlane.trans hl) (Move.not_waiting_of_eligible helig') (by rw [hbench]; exact (hsound m hm).bench)
        (fun g hg => ?_) ((hsound m hm).place_of hbench hroute ht hf hocc) hyield fun he => ⟨helig', hext he⟩
      rw [Move.span_congr hroute, ht, hh] at hg
      rw [State.cellLane_config hconfig]
      exact h.off_cells (State.move?_of_mem hslots hm) (hsound m hm) hl hg
  · refine (h.lanes l).congr hconfig (.of_eq (by rw [hlanes])) fun i m hm hl => ⟨u m, ?_, ?_⟩
    · rw [State.move?_of_map hmoves hkept, hm]
      rfl
    · have hmem := (State.move?_some hm).2
      rcases (hu m hmem).rest with hface | ⟨helig, -⟩
      · exact hface
      · rw [hfree m hmem helig] at hl
        cases hl
  · rw [hmoves, List.map_map]
    have hbench : s.moves.map ((·.bench) ∘ u) = s.moves.map (·.bench) := List.map_congr_left fun m hm => by
      have hkeep := (hu m hm).kept
      simp only [Prod.mk.injEq] at hkeep
      exact hkeep.2.1
    rw [hbench]
    exact h.benches

/-! ### Passes (R41, R42, R58) -/

theorem Move.remarks_yield {w : Yield → Yield} (hw : w .clear = .clear) (hm : s.MoveSound m) :
    Move.Remarks (fun y => { y with yield := w y.yield }) m := by
  refine ⟨rfl, ?_⟩
  by_cases hy : m.yield = .clear
  · refine .inl ?_
    show Move.face { m with yield := w m.yield } = m.face
    rw [hy, hw, ← hy]
  · obtain ⟨hshed, helig, hfront⟩ := hm.yields hy
    refine .inr ⟨helig, helig, fun _ => ⟨hshed, helig, hfront⟩, fun he => ?_⟩
    obtain ⟨-, hclear⟩ := hm.visited he
    exact absurd hclear hy

theorem State.Sound.endPass (h : s.Sound none) (hno : s.Unvisited) : s.endPass.Sound none := by
  have hsound : ({ s with
      moves := s.moves.map fun m => { m with yield := m.yield.onPassEnd }
      arbiter := { s.arbiter with pass := none, check := none, further := false } } : State).Sound none := by
    refine ⟨h.run.of_edits (Edits.after (.arbiter _ _) (.allMoves s (w := fun m => { m with yield := m.yield.onPassEnd })
        (fun _ => rfl) (fun _ => rfl) fun _ => rfl)),
      h.laid.remark h.run.slots.moves rfl (fun _ => rfl)
        (fun m hm => Move.remarks_yield rfl (h.laid.moves m hm (Option.some_ne_none _).symm)) rfl,
      .unvisited (fun y hy => ?_) (.of_none rfl) ⟨fun p hp => (by cases hp), fun hf => (by cases hf), fun hd => ?_⟩⟩
    · obtain ⟨m, hm, rfl⟩ := List.mem_map.1 hy
      exact hno m hm
    · obtain ⟨-, -, hdue⟩ := h.order.pass
      exact ⟨rfl, (hdue hd).2⟩
  unfold State.endPass
  dsimp only
  split
  · exact hsound.trigger
  · exact hsound

theorem State.Sound.beginPass (h : s.Sound none) (hno : s.Unvisited) : s.beginPass.Sound none := by
  refine ⟨h.run.of_edits (.beginPass s), h.laid.remark h.run.slots.moves (u := fun m => { m with yield := m.yield.onPassStart })
      rfl (fun _ => rfl) (fun m hm => Move.remarks_yield rfl (h.laid.moves m hm (Option.some_ne_none _).symm)) rfl,
    .unvisited (fun y hy => ?_) (.of_none rfl) ⟨fun p hp => ?_, fun hf => (by cases hf), fun hd => (by cases hd)⟩⟩
  · obtain ⟨m, hm, rfl⟩ := List.mem_map.1 hy
    exact hno m hm
  · obtain rfl := Option.some.inj hp
    have hperm := (byPriority_perm (s.moves.filter (·.eligible))).map (·.slot)
    refine ⟨hperm.nodup_iff.2 (h.run.slots.moves.sublist (List.filter_sublist.map _)), fun i hi => ?_⟩
    obtain ⟨m, hm, rfl⟩ := List.mem_map.1 (hperm.mem_iff.1 hi)
    exact ⟨_, List.mem_map_of_mem (List.mem_filter.1 hm).1, rfl⟩

theorem State.Sound.startPass (h : s.Sound none) : s.startPass.Sound none := by
  unfold State.startPass
  split
  · rename_i hmode
    split
    · rename_i p hp
      exact h.alike (.arbiter s _) ⟨rfl, rfl, rfl, fun _ => .inr ⟨by rw [hp]; exact Option.some_ne_none p, hmode⟩, fun hd => .inl hd,
        fun m hm => ⟨m, hm, rfl, id⟩, fun m hm he => ⟨m, hm, rfl, he⟩⟩ rfl (fun _ => .refl _) rfl fun _ hq => hq
    · rename_i hp
      have hno : s.Unvisited := .of_fresh h.order (.inr (by rw [hp]; rfl))
      split
      · exact h.beginPass hno
      · refine (h.beginPass hno).endPass fun y hy => ?_
        obtain ⟨m, hm, rfl⟩ := List.mem_map.1 hy
        exact hno m hm
  all_goals exact h

theorem State.Sound.closePass (h : s.Sound none) : s.closePass.Sound none := by
  unfold State.closePass
  split
  · rename_i hcond
    exact h.endPass (.of_fresh h.order (.inr (by rw [hcond.1]; rfl)))
  · exact h

/-- What the end of a pass in HALTED mode makes of a move: a visit under way leaves it in the state of R48. -/
def State.cutVisit (s : State) (m : Move) : Move :=
  if m.extending then { m with state := s.indexState m, extending := false } else m

theorem State.cutVisit_kept (s : State) (m : Move) : ((s.cutVisit m).slot, (s.cutVisit m).lane, (s.cutVisit m).extending)
    = (m.slot, m.lane, false) := by
  unfold State.cutVisit
  split
  · rfl
  · rename_i he
    rw [Bool.not_eq_true] at he
    rw [he]

theorem State.cutVisit_remarks (hm : s.MoveSound m) : Move.Remarks s.cutVisit m := by
  unfold State.cutVisit
  by_cases he : m.extending = true
  · obtain ⟨helig, hclear⟩ := hm.visited he
    refine ⟨by rw [if_pos he], .inr ⟨helig, ?_, ?_, ?_⟩⟩ <;> rw [if_pos he]
    · rcases s.indexState_cases m with hs | hs <;> simp [Move.eligible, hs]
    · exact fun hy => absurd hclear hy
    · exact fun _ => hclear
  · exact ⟨by rw [if_neg he], .inl (by rw [if_neg he])⟩

theorem State.Sound.cutPass (h : s.Sound none) : s.cutPass.Sound none := by
  have hkept : ∀ y, (s.cutVisit y).slot = y.slot ∧ (s.cutVisit y).lane = y.lane ∧ (s.cutVisit y).extending = false := fun y => by
    have hy := s.cutVisit_kept y
    simp only [Prod.mk.injEq] at hy
    exact hy
  have hno : ({ s with moves := s.moves.map s.cutVisit } : State).Unvisited := fun y hy => by
    obtain ⟨m, -, rfl⟩ := List.mem_map.1 hy
    exact (hkept m).2.2
  have hcut : ({ s with moves := s.moves.map s.cutVisit } : State).Sound none :=
    h.of (.allMoves s (w := s.cutVisit) (fun m => by unfold State.cutVisit; split <;> rfl)
        (fun m => by unfold State.cutVisit; split <;> rfl) fun m => by unfold State.cutVisit; split <;> rfl)
      (.map rfl (fun y => ⟨(hkept y).1, fun he => absurd he (by rw [(hkept y).2.2]; decide), fun hn => (hkept y).2.1.trans hn⟩) rfl rfl)
      (h.laid.remark h.run.slots.moves rfl (fun y => (hkept y).1)
        (fun m hm => State.cutVisit_remarks (h.laid.moves m hm (Option.some_ne_none _).symm)) rfl)
  exact hcut.endPass hno

end marks

/-! ### Grants of a visit (R44, R45) -/

section visits
variable {s t v : State} {k : SlotIx} {l : LaneIx} {b : BerthIx} {m : Move} {rest : List SlotIx} {g : Nat} {c : WaitCheck}

theorem State.Sound.grantNext (h : s.Sound none) (hm : s.move? k = some m) (helig : m.eligible = true) (hclear : m.yield = .clear)
    (hmay : s.mayExtend m (m.h + 1) = true) (hcheck : s.arbiter.check = none) (hhead : s.arbiter.pass.bind List.head? = some k) :
    (s.grantNext m).Sound none := by
  obtain ⟨rfl, hmem⟩ := State.move?_some hm
  obtain ⟨hlt, hcell, -, -⟩ := (s.mayExtend_iff _ _).1 hmay
  have hsound := h.move hm
  have hl := hsound.lane_of_eligible h.laid hm helig
  have hd : s.Deed (s.grantNext m) m.slot (fun x =>
      { x.extended with silence := if m.h = m.f then s.startTimer s.silenceFull else x.silence }) none :=
    .hold s m.slot [m.seg (m.h + 1)] fun _ => ⟨rfl, rfl⟩
  obtain ⟨hturns, hfurther, hdue⟩ := h.order.pass
  have hslots : (s.grantNext m).moves.map (·.slot) = s.moves.map (·.slot) := by
    rw [hd.moves]
    exact s.updateMove_map m.slot (·.slot) fun _ => rfl
  refine ⟨h.run.of_edits (.grantNext s hmem hmay), h.laid.free h.run.slots.moves hd hm hl hl (Move.not_waiting_of_eligible helig)
    (fun g hg => ?_) (fun g => ?_) (fun hy => absurd hclear hy) fun _ => ⟨helig, hclear⟩, ?_, .of_none hcheck,
    h.order.pass.kept hslots rfl (fun p hp => ⟨p, hp, .refl p⟩) Iff.rfl ⟨rfl, rfl⟩⟩
  · obtain ⟨p, htp, hph, hp, rfl⟩ := Move.mem_span.1 hg
    have hph' : p ≤ m.h + 1 := hph
    rcases Nat.lt_or_eq_of_le hph' with hlow | rfl
    · exact h.laid.off_cells hm hsound hl (Move.mem_span.2 ⟨p, htp, Nat.le_of_lt_succ hlow, hp, rfl⟩)
    · exact (State.isCell_eq_false_iff _ _).1 hcell
  · have hocc : (s.grantNext m).occupant g = s.occupant g := s.hold_occupant m.slot [m.seg (m.h + 1)] g
    rw [hocc]
    exact hsound.place g
  · intro y hy he
    rw [hd.moves] at hy
    obtain ⟨z, hz, rfl⟩ := List.mem_map.1 hy
    by_cases hk : z.slot = m.slot
    · rw [if_pos hk]
      exact ⟨hcheck, hhead.trans (congrArg some hk.symm)⟩
    · rw [if_neg hk] at he ⊢
      exact h.order.visit z hz he

/-! ### The end of a visit (R46, R47, R55) -/

theorem State.Laid.dropTurn (h : s.Laid none) (hrun : s.RunBut none) : s.dropTurn.Laid none :=
  h.of_alike hrun rfl (fun _ => .refl _) rfl (fun _ hq => hq) fun _ _ _ _ => Iff.rfl

/-- The turn of a move that no visit grants to is over. -/
theorem State.Sound.dropTurn (h : s.Sound none) (hno : s.Unvisited) (hcheck : s.arbiter.check = none) : s.dropTurn.Sound none := by
  refine ⟨h.run.of_edits (.arbiter s _), h.laid.dropTurn h.run, .unvisited hno (.of_none hcheck)
    (h.order.pass.kept rfl rfl (fun p hp => ?_) ?_ ⟨rfl, rfl⟩)⟩
  · obtain ⟨p', hp', rfl⟩ := Option.map_eq_some_iff.1 hp
    exact ⟨p', hp', List.tail_sublist p'⟩
  · show s.arbiter.pass.map List.tail = none ↔ _
    simp

/-- The state of a visited move is settled off the lanes (R46). -/
theorem State.Laid.settled (h : s.Laid none) (hslots : (s.moves.map (·.slot)).Nodup) (hm : s.move? k = some m)
    (hclear : m.yield = .clear) (hl : m.lane = none) {st : MoveState} (hst : st = .moving ∨ st = .blocked) :
    (s.updateMove k fun x => { x with state := st, extending := false }).Laid none := by
  obtain ⟨rfl, hmem⟩ := State.move?_some hm
  have hsound := h.moves m hmem (Option.some_ne_none _).symm
  refine h.free hslots (.of_updateMove s m.slot fun _ => ⟨rfl, rfl⟩) hm hl hl ?_ (fun g hg => h.off_cells hm hsound hl hg)
    hsound.place (fun hy => absurd hclear hy) fun he => (by cases he)
  show st ≠ .laneWait ∧ st ≠ .crossing
  rcases hst with rfl | rfl <;> decide

/-- A list that a move has joined, beside the others (R47). -/
theorem State.Laid.beside_joined (h : s.Laid none) (hout : ∀ b : BerthIx, k ∉ s.lanes[l].lists[b]) (b : BerthIx) :
    ({ s.lanes[l] with lists := s.lanes[l].lists.set b (s.lanes[l].lists[b] ++ [k]) } : Lane).Beside k s.lanes[l] := by
  refine ⟨fun a i hi => ?_, fun a => ?_, fun _ _ => Iff.rfl, rfl, (h.lanes l).timer, (h.lanes l).record⟩
  · show i ∈ (s.lanes[l].lists.set b (s.lanes[l].lists[b] ++ [k]))[a] ↔ _
    rw [getElem_set_berth]
    split
    · rename_i ha
      rw [ha]
      simp [hi]
    · exact Iff.rfl
  · show ((s.lanes[l].lists.set b (s.lanes[l].lists[b] ++ [k]))[a]).Nodup
    rw [getElem_set_berth]
    split
    · exact List.nodup_append.2 ⟨h.nodup l b, List.nodup_singleton k, fun i hi j hj e =>
        hout b (List.mem_singleton.1 hj ▸ e ▸ hi)⟩
    · exact h.nodup l a

/-- A move as it joins lane l (R47). -/
def Move.joined (l : LaneIx) (x : Move) : Move := { x with state := .laneWait, extending := false, lane := some l }

/-- The move in slot k joins the list of berth b of lane l. -/
def State.joinAt (s : State) (l : LaneIx) (b : BerthIx) (k : SlotIx) : State :=
  (s.updateMove k (Move.joined l)).updateLane l fun ln => { ln with lists := ln.lists.set b (ln.lists[b] ++ [k]) }

/-- A move that stands at berth b of lane l with a cell before it joins the list of the berth (R47). -/
theorem State.Laid.joined (h : s.Laid none) (hrun : s.RunBut none) (hm : s.move? k = some m) (hclear : m.yield = .clear)
    (hl : m.lane = none) (hfront : m.h = m.f) (hat : s.AtBerth m l b) :
    (s.joinAt l b k).Laid none := by
  obtain ⟨rfl, hmem⟩ := State.move?_some hm
  have hsound := h.moves m hmem (Option.some_ne_none _).symm
  obtain ⟨hout, hnocross⟩ := h.not_named hm (l := l) (by rw [hl]; exact (Option.some_ne_none _).symm)
  have hd : s.Deed (s.updateMove m.slot (Move.joined l)) m.slot (Move.joined l) none := .of_updateMove s m.slot fun _ => ⟨rfl, rfl⟩
  have hd' : s.Deed (s.joinAt l b m.slot) m.slot (Move.joined l) (some l) := hd.oneLane (State.updateLane_oneLane _ l _)
  have hlane : (s.joinAt l b m.slot).lanes[l]
      = { s.lanes[l] with lists := s.lanes[l].lists.set b (s.lanes[l].lists[b] ++ [m.slot]) } :=
    State.updateLane_get_same _ l _
  have hocc : ∀ g, (s.joinAt l b m.slot).occupant g = s.occupant g := fun _ => rfl
  generalize s.joinAt l b m.slot = t at hd' hlane hocc
  have hin : ∀ a : BerthIx, m.slot ∈ t.lanes[l].lists[a] ↔ a = b := fun a => by
    rw [hlane]
    show m.slot ∈ (s.lanes[l].lists.set b (s.lanes[l].lists[b] ++ [m.slot]))[a] ↔ _
    rw [getElem_set_berth]
    split
    · rename_i ha
      simp [ha]
    · rename_i ha
      exact ⟨fun hin => absurd hin (hout a), fun hin => absurd hin ha⟩
  refine h.of_deed hrun.slots.moves hd' hm (.inl hl) (.inl rfl) (fun y hy => ?_) fun _ => ?_
  · obtain rfl := Option.some.inj hy
    refine ⟨by rw [hlane]; exact h.beside_joined hout b, fun a ha => ⟨(Option.some_ne_none _).symm, ?_⟩, fun c hc hk => ?_⟩
    · rw [(hin a).1 ha]
      exact ⟨rfl, rfl, hfront, hat.congr hd'.config rfl rfl rfl⟩
    · rw [hlane] at hc
      exact absurd hk (hnocross c hc)
  · refine ⟨fun _ => ⟨l, b, rfl, (hin b).2 rfl⟩, fun hno => (by cases hno), fun _ _ => .inl rfl, fun g hg y hy => ?_, hsound.bench,
      fun g => hocc g ▸ hsound.place g, fun hy => absurd hclear hy, fun hno => (by cases hno)⟩
    have hg' : g ∈ m.span m.t m.h := hg
    rw [State.cellLane_config hd'.config, h.off_cells hm hsound hl hg'] at hy
    cases hy

/-- What Table 3.2 takes to send a move to LANE_WAIT. -/
theorem State.tableState_laneWait (h : s.tableState m = .laneWait) : m.h + 1 < m.route.length
    ∧ s.isCell (m.seg (m.h + 1)) = true ∧ m.t = m.f ∧ m.f = m.h := by
  unfold State.tableState at h
  split at h
  · cases h
  · rename_i hlen
    split at h
    · rename_i hcell
      split at h
      · rename_i hat
        exact ⟨Nat.not_le.1 hlen, hcell, hat.1, hat.2⟩
      · cases h
    · split at h <;> cases h

/-- A route enters a lane's cells from a berth of the lane (R26). -/
theorem State.RouteLaw.berth_before {p : Nat} (h : s.RouteLaw m.route) (hp : p + 1 < m.route.length)
    (hno : s.cellLane (m.seg p) = none) (hcell : s.isCell (m.seg (p + 1)) = true) :
    ∃ (l : LaneIx) (b : BerthIx), s.berthOf (m.seg p) = some (l, b) := by
  obtain ⟨-, hinto, -⟩ := (s.stepOk_iff _ _).1 (h.step hp)
  obtain ⟨y, hy⟩ := State.cellLane_of_isCell hcell
  rcases hinto y hy with hsame | ⟨-, b, hb⟩
  · rw [hno] at hsame
    cases hsame
  · exact ⟨y, b, hb⟩

theorem State.Unvisited.updateMove {u : Move → Move} (h : ∀ y ∈ s.moves, y.slot ≠ k → y.extending = false)
    (hu : ∀ y, (u y).extending = false) : (s.updateMove k u).Unvisited := fun y hy => by
  obtain ⟨m, hm, rfl⟩ := List.mem_map.1 hy
  by_cases hk : m.slot = k
  · rw [if_pos hk]
    exact hu m
  · rw [if_neg hk]
    exact h m hm hk

/-- The marks of the arbiter are in order but for the visit to the move in slot k. -/
structure State.Visiting (s : State) (k : SlotIx) : Prop where
  run : s.RunBut none
  laid : s.Laid none
  others : ∀ y ∈ s.moves, y.slot ≠ k → y.extending = false
  check : s.arbiter.check = none
  pass : s.PassLaw
  during : s.arbiter.pass ≠ none

theorem State.Visiting.ordered {u : Move → Move} (h : s.Visiting k) (hmoves : t.moves = (s.updateMove k u).moves)
    (hu : ∀ y, (u y).slot = y.slot ∧ (u y).extending = false) (harb : t.arbiter = s.arbiter) (hmode : t.mode = s.mode) :
    t.Ordered := by
  refine .unvisited ?_ (.of_none (harb ▸ h.check)) (h.pass.kept ?_ hmode (fun p hp => ⟨p, harb ▸ hp, .refl p⟩) (by rw [harb])
    ⟨by rw [harb], by rw [harb]⟩)
  · unfold State.Unvisited
    rw [hmoves]
    exact State.Unvisited.updateMove h.others fun y => (hu y).2
  · rw [hmoves]
    exact s.updateMove_map k (·.slot) fun y => (hu y).1

/-- The visited move settles MOVING or BLOCKED. -/
theorem State.Visiting.settled (h : s.Visiting k) (hm : s.move? k = some m) (hclear : m.yield = .clear) (hl : m.lane = none)
    {st : MoveState} (hst : st = .moving ∨ st = .blocked) :
    (s.updateMove k fun x => { x with state := st, extending := false }).Sound none :=
  ⟨h.run.of_edits (.updateMove s k (.plain (fun _ => rfl) fun _ => rfl) fun _ => rfl),
    h.laid.settled h.run.slots.moves hm hclear hl hst, h.ordered rfl (fun _ => ⟨rfl, rfl⟩) rfl rfl⟩

/-- The visited move settles LANE_WAIT (R47). -/
theorem State.Visiting.joins (h : s.Visiting k) (hm : s.move? k = some m) (hclear : m.yield = .clear) (hl : m.lane = none)
    (hfront : m.h = m.f) (hat : s.AtBerth m l b) : ((s.updateMove k (Move.joined l)).joinList l b k).Sound none := by
  have hedits : Edits none s (s.joinAt l b k) :=
    Edits.after (.updateLane _ l _ fun _ _ hln => hln)
      (Edits.updateMove s k (w := Move.joined l) (.plain (fun _ => rfl) fun _ => rfl) fun _ => rfl)
  have hjoined : (s.joinAt l b k).Sound none :=
    ⟨h.run.of_edits hedits, h.laid.joined h.run hm hclear hl hfront hat,
      h.ordered (u := Move.joined l) rfl (fun _ => ⟨rfl, rfl⟩) rfl rfl⟩
  unfold State.joinList
  dsimp only
  split
  · rename_i hquiet
    refine hjoined.startRound ?_
    have hquiet' : s.lanes[l].state = .quiet := hquiet
    obtain ⟨hrec, htimer⟩ := h.laid.quiet_open (l := l) (by rw [hquiet']; decide) (by rw [hquiet']; decide)
    have hlane : (s.joinAt l b k).lanes[l]
        = { s.lanes[l] with lists := s.lanes[l].lists.set b (s.lanes[l].lists[b] ++ [k]) } := State.updateLane_get_same _ l _
    rw [hlane]
    exact ⟨hrec, htimer⟩
  · exact hjoined

/-- The wait-chain check begins with a move that waits off the lanes (R55). -/
theorem State.Sound.beginCheck (h : s.Sound none) (hno : s.Unvisited) (hpass : s.arbiter.pass ≠ none)
    (hm : ∃ y ∈ s.moves, y.slot = m.slot ∧ y.lane = none) : (s.beginCheck m).Sound none := by
  refine ⟨h.run.of_edits (.arbiter s _),
    h.laid.of_alike h.run rfl (fun _ => .refl _) rfl (fun _ hq => hq) fun _ _ _ _ => Iff.rfl, .unvisited hno (fun c hc => ?_)
    (h.order.pass.kept rfl rfl (fun p hp => ⟨p, hp, .refl p⟩) Iff.rfl ⟨rfl, rfl⟩)⟩
  obtain rfl := Option.some.inj hc
  exact ⟨hpass, le_rfl, by show 1 ≤ 24; decide, List.nodup_singleton _, fun i hi => (List.mem_singleton.1 hi) ▸ hm⟩

theorem State.Visiting.settleVisit (h : s.Visiting m.slot) (hm : s.move? m.slot = some m) (helig : m.eligible = true)
    (hclear : m.yield = .clear) : (s.settleVisit m).Sound none := by
  have hmem := (State.move?_some hm).2
  have hsound := h.laid.moves m hmem (Option.some_ne_none _).symm
  have hl := hsound.lane_of_eligible h.laid hm helig
  rcases s.tableState_cases m with htab | ⟨htab, -⟩ | ⟨htab, -⟩
  · rw [State.settleVisit_moving htab]
    exact h.settled hm hclear hl (.inl rfl)
  · obtain ⟨hlen, hcell, htf, hfh⟩ := State.tableState_laneWait htab
    obtain ⟨hroute, -⟩ := h.run.runs m hmem
    have hstood : s.cellLane (m.seg m.h) = none :=
      h.laid.off_cells hm hsound hl (Move.mem_span.2 ⟨m.h, (htf.trans hfh).le, le_rfl, by omega, rfl⟩)
    obtain ⟨l, b, hb⟩ := hroute.berth_before hlen hstood hcell
    rw [State.settleVisit_joins htab hb]
    exact h.joins hm hclear hl hfh.symm ⟨htf, hfh ▸ hb, by rw [hfh]; exact hcell⟩
  · rw [State.settleVisit_blocked htab]
    refine (h.settled hm hclear hl (.inr rfl)).beginCheck (.updateMove h.others fun _ => rfl) h.during ?_
    refine ⟨{ m with state := .blocked, extending := false }, List.mem_map.2 ⟨m, hmem, ?_⟩, rfl, hl⟩
    rw [if_pos rfl]

/-! ### A turn and a link of the wait-chain check (R42, R54 to R60) -/

theorem State.Sound.turn (h : s.Sound none) (hpass : s.arbiter.pass = some (k :: rest)) (hcheck : s.arbiter.check = none) :
    (s.turn k).Sound none := by
  have hhead : s.arbiter.pass.bind List.head? = some k := by
    rw [hpass]
    rfl
  have hothers : ∀ y ∈ s.moves, y.slot ≠ k → y.extending = false := fun y hy hne => by
    rw [← Bool.not_eq_true]
    intro he
    exact hne (Option.some.inj ((h.order.visit y hy he).2.symm.trans hhead))
  unfold State.turn
  split
  · rename_i hm
    refine h.dropTurn (fun y hy => hothers y hy fun he => ?_) hcheck
    have hsome := State.move?_of_mem h.run.slots.moves hy
    rw [he, hm] at hsome
    cases hsome
  · rename_i m hm
    obtain ⟨rfl, hmem⟩ := State.move?_some hm
    split
    · rename_i hcond
      rw [Bool.and_eq_true, decide_eq_true_eq] at hcond
      obtain ⟨helig, hclear⟩ := hcond
      split
      · rename_i hmay
        exact h.grantNext hm helig hclear hmay hcheck hhead
      · refine State.Visiting.settleVisit ⟨h.run.of_edits (.arbiter s _), h.laid.dropTurn h.run, hothers, hcheck,
          h.order.pass.kept rfl rfl (fun p hp => ?_) ?_ ⟨rfl, rfl⟩, ?_⟩ hm helig hclear
        · obtain ⟨p', hp', rfl⟩ := Option.map_eq_some_iff.1 hp
          exact ⟨p', hp', List.tail_sublist p'⟩
        · show s.arbiter.pass.map List.tail = none ↔ _
          simp
        · show s.arbiter.pass.map List.tail ≠ none
          rw [hpass]
          exact Option.some_ne_none _
    · rename_i hcond
      refine h.dropTurn (fun y hy => ?_) hcheck
      by_cases hk : y.slot = m.slot
      · obtain rfl := Option.some.inj ((State.move?_of_mem h.run.slots.moves hy).symm.trans (hk ▸ hm))
        rw [← Bool.not_eq_true]
        intro he
        obtain ⟨helig, hclear⟩ := (h.move hm).visited he
        exact hcond (by rw [helig, hclear]; rfl)
      · exact hothers y hy hk

/-- The check goes on, or ends (R55). -/
theorem State.Sound.setCheck (h : s.Sound none) (hno : s.Unvisited) (co : Option WaitCheck)
    (hco : ∀ c ∈ co, s.arbiter.pass ≠ none ∧ 1 ≤ c.chain.length ∧ c.chain.length ≤ 24 ∧ c.chain.Nodup
      ∧ ∀ k ∈ c.chain, ∃ m ∈ s.moves, m.slot = k ∧ m.lane = none) :
    ({ s with arbiter := { s.arbiter with check := co } } : State).Sound none :=
  ⟨h.run.of_edits (.arbiter s _), h.laid.of_alike h.run rfl (fun _ => .refl _) rfl (fun _ hq => hq) fun _ _ _ _ => Iff.rfl,
    .unvisited hno hco (h.order.pass.kept rfl rfl (fun p hp => ⟨p, hp, .refl p⟩) Iff.rfl ⟨rfl, rfl⟩)⟩

theorem State.Sound.endCheck (h : s.Sound none) (hno : s.Unvisited) : s.endCheck.Sound none :=
  h.setCheck hno none fun c hc => (by cases hc)

/-- A move as it sheds what it holds ahead (R57). -/
def Move.shedding (m : Move) : Move := { m with shed := true, yield := .beforePass, state := .blocked, silence := .stopped }

theorem State.Sound.shedMove (h : s.Sound none) (hno : s.Unvisited) (hm : s.move? k = some m) (helig : m.eligible = true)
    (n : Nat) : (s.shedMove k n).Sound none := by
  obtain ⟨rfl, hmem⟩ := State.move?_some hm
  have hsound := h.move hm
  have hl := hsound.lane_of_eligible h.laid hm helig
  obtain ⟨hrs, hrb, hrr, hrt, hrf, hrh, hrl, -, -, -, hre⟩ := m.restored_face
  obtain ⟨-, hfh, -, -⟩ := h.run.index hm
  have hd : s.Deed ((s.restore m.slot).updateMove m.slot Move.shedding) m.slot (fun y => y.restored.shedding) none :=
    (State.Deed.restore s m.slot hm).updateMove fun _ => ⟨rfl, rfl⟩
  have hedits : Edits none s ((s.restore m.slot).updateMove m.slot Move.shedding) :=
    Edits.after (.updateMove _ m.slot ⟨fun _ => rfl, fun _ _ hh => ⟨rfl, hh.2⟩⟩ fun _ => rfl) (.restore s m.slot)
  have hocc : ∀ g, ((s.restore m.slot).updateMove m.slot Move.shedding).occupant g = s.occupant g := fun g =>
    State.occupant_congr (State.place_of_unheld (s.restore_unheld m.slot)) g
  have hcalm : Move.CalmBy fun y => y.restored.shedding := fun y => by
    obtain ⟨h1, -, -, -, -, -, h7, -, -, -, h11⟩ := y.restored_face
    exact ⟨h1, fun he => h11.symm.trans he, fun hn => h7.trans hn⟩
  refine ((h.of (t := (s.restore m.slot).updateMove m.slot Move.shedding) hedits
    ((State.Calm.updateMove s m.slot hcalm).then hd.moves hd.arbiter hd.mode)
    (h.laid.free h.run.slots.moves hd hm hl (hrl.trans hl) ⟨fun hs => (by cases hs), fun hs => (by cases hs)⟩ (fun g hg => ?_)
      (fun g => ?_) (fun _ => ⟨rfl, rfl, hrh.trans hrf.symm⟩) fun he => ?_)).beside rfl rfl)
  · have hg' : g ∈ m.restored.span m.restored.t m.restored.h := hg
    rw [Move.span_congr hrr, hrt, hrh] at hg'
    exact h.laid.off_cells hm hsound hl (Move.span_mono hfh hg')
  · rw [hocc]
    show _ ↔ g ∈ m.restored.span m.restored.t m.restored.f
    rw [Move.span_congr hrr, hrt, hrf]
    exact hsound.place g
  · have he' : m.extending = true := hre.symm.trans he
    rw [hno m hmem] at he'
    cases he'

theorem State.Sound.reportRing (h : s.Sound none) (ring : List SlotIx) (members : List Move) :
    (s.reportRing ring members).Sound none := by
  have hfaces : (s.moves.map fun m => if m.slot ∈ ring then { m with gridlocked := true } else m).map Move.face
      = s.moves.map Move.face := Move.map_face_of (fun y => by split <;> rfl) s.moves
  have hset : ({ s with moves := s.moves.map fun m => if m.slot ∈ ring then { m with gridlocked := true } else m } : State).Sound none :=
    h.alike (.allMoves s (fun m => by split <;> rfl) (fun m => by split <;> rfl) fun m => by split <;> rfl)
      (.map (u := fun m => if m.slot ∈ ring then { m with gridlocked := true } else m) rfl
        (fun y => by dsimp only; split <;> exact ⟨rfl, id, id⟩) rfl rfl) hfaces (fun _ => .refl _) rfl fun _ hq => hq
  unfold State.reportRing
  dsimp only
  split
  · exact hset
  · split
    · exact hset
    · exact hset.beside rfl rfl

theorem State.Sound.breakRing (h : s.Sound none) (hno : s.Unvisited) {ring : List SlotIx} (hring : s.ringStands ring = true) :
    (s.breakRing ring).Sound none := by
  unfold State.breakRing
  dsimp only
  split
  · rename_i m hfind
    obtain ⟨hmem, hin⟩ := State.mem_ringMembers.1 (List.mem_of_find?_eq_some hfind)
    have hm := State.move?_of_mem h.run.slots.moves hmem
    have helig := List.all_eq_true.1 hring m.slot hin
    rw [hm] at helig
    exact h.shedMove hno hm helig _
  · exact h.reportRing ring _

theorem State.eligible_of_heldUpOn (h : s.heldUpOn m = some g) : m.eligible = true := by
  unfold State.heldUpOn at h
  split at h
  · rename_i hcond
    simp only [Bool.and_eq_true] at hcond
    exact hcond.1.1.1.1
  · cases h

theorem State.Sound.followChain (h : s.Sound none) (hc : s.arbiter.check = some c) : (s.followChain c).Sound none := by
  have hno : s.Unvisited := .of_fresh h.order (.inl (by rw [hc]; exact Option.some_ne_none c))
  have hend := h.endCheck hno
  obtain ⟨hpass, hone, h24, hnodup, hmem⟩ := h.order.check c hc
  unfold State.followChain
  split
  · exact hend
  · rename_i k _
    split
    · dsimp only
      split
      · rename_i hring
        exact hend.breakRing hno hring
      · exact hend
    · rename_i hout
      split
      · exact hend
      · rename_i g hg
        split
        · rename_i hroom
          obtain ⟨m, hm, hheld⟩ := Option.bind_eq_some_iff.1 hg
          obtain ⟨rfl, hlive⟩ := State.move?_some hm
          refine h.setCheck hno _ fun c' hc' => ?_
          obtain rfl := Option.some.inj hc'
          refine ⟨hpass, by simp, ?_, ?_, fun i hi => ?_⟩
          · rw [List.length_append]
            exact hroom
          · exact List.nodup_append.2 ⟨hnodup, List.nodup_singleton _, fun i hi j hj e =>
              hout (List.mem_singleton.1 hj ▸ e ▸ hi)⟩
          · rcases List.mem_append.1 hi with hi | hi
            · exact hmem i hi
            · exact ⟨m, hlive, (List.mem_singleton.1 hi).symm,
                (h.move hm).lane_of_eligible h.laid hm (State.eligible_of_heldUpOn hheld)⟩
        · exact hend

/-- Every request of the arbiter keeps the laws. -/
theorem State.Sound.request (h : s.Sound none) : s.request.Sound none := by
  unfold State.request
  split
  · exact h
  · rename_i p hpass
    split
    · split
      · rename_i hc
        exact (h.followChain hc).closePass
      · exact h.endPass (.of_fresh h.order (.inr (by rw [hpass]; rfl)))
      · rename_i hc
        exact (h.turn hpass hc).closePass
    all_goals exact h.cutPass

theorem State.Sound.finishVisit (fuel : Nat) (h : s.Sound none) : (State.finishVisit fuel s).Sound none := by
  induction fuel generalizing s with
  | zero => exact h
  | succ n ih =>
    unfold State.finishVisit
    split
    · exact ih h.request
    · exact h

theorem State.Sound.visit (h : s.Sound none) : s.visit.Sound none := h.request.finishVisit _

end visits

end Sys2Proof.Machine
end


section
/-!
PROOFS. Every step keeps the laws of the lanes and of the arbiter.
-/

open Sys2Proof Sys2Proof.Machine

namespace Sys2Proof.Machine

section steps
variable {s t : State} {l : LaneIx}

/-! ### Transfers and commands -/

theorem State.Sound.busWrite (h : s.Sound none) (w : WriteWord) : (s.busWrite w).Sound none := by
  have hstored : (s.storeWord w).Sound none := h.beside rfl rfl
  unfold State.busWrite
  split
  · exact h.beside rfl rfl
  · exact h
  · rw [State.deny_eq]
    exact h.beside rfl rfl
  · exact h.beside rfl rfl
  · exact h.beside rfl rfl
  · exact h.beside rfl rfl
  · unfold State.orderTagWrite
    split
    · exact hstored.takeOrder _ _ _
    · exact hstored.updateOrder _ _
  · unfold State.reportTagWrite
    split
    · exact hstored.takeReport _ _ _
    · exact hstored.updateReport _ _

theorem State.Sound.readWord (h : s.Sound none) (r : ReadWord) : (s.readWord r).Sound none := by
  rw [(s.readWord_readOnly r).only]
  exact h.beside rfl rfl

/-- Every command but a start keeps the laws. -/
theorem State.Sound.of_exec {c : Instr} (h : s.Sound none) (hs : Instr.isStart c = false) (hnext : exec c s = .next t) :
    t.Sound none := by
  cases hw : Instr.write? c with
  | some w =>
    rw [exec_of_write hw] at hnext
    injection hnext with hnext
    exact hnext ▸ h.busWrite w
  | none =>
    cases hr : Instr.read? c with
    | some r =>
      rw [exec_of_read hr] at hnext
      injection hnext with hnext
      exact hnext ▸ h.readWord r
    | none =>
      cases c <;> simp only [Instr.write?, Instr.read?, Instr.isStart, reduceCtorEq] at hw hr hs <;> injection hnext with hnext <;>
        subst hnext
      case silenceExpiry k => exact (h.silenceExpiry k).announce s
      case backoffExpiry k => exact (h.backoffExpiry k).announce s
      case offerLapse l => exact (h.offerLapse l).announce s
      case entryDeadlineLapse l => exact (h.entryDeadlineLapse l).announce s
      case crossingLimitExpiry l => exact (h.crossingLimitExpiry l).announce s
      case settleExpiry l => exact (h.settleExpiry l).announce s
      case releaseExpiry l => exact (h.releaseExpiry l).announce s
      case extensionPass => exact h.startPass
      case extensionVisit => exact h.visit.announce s
      case offerCheck l => exact h.offerCheck l

theorem Lane.tick_like (ln : Lane) : ln.tick.Like ln := ⟨rfl, fun ht => by rw [Lane.tick, ht]; rfl⟩

theorem State.Sound.clockCycle (h : s.Sound none) : s.clockCycle.Sound none := by
  rw [State.clockCycle_eq]
  split
  · exact h.beside rfl rfl
  · have hticked : ({ s with moves := s.moves.map Move.tick, lanes := s.lanes.map Lane.tick } : State).Sound none := by
      refine h.alike (.tick s) (.map (u := Move.tick) rfl (fun _ => ⟨rfl, id, id⟩) rfl rfl)
        (Move.map_face_of (u := Move.tick) (fun _ => rfl) s.moves) (fun y => ?_) rfl fun _ hq => hq
      have hln : (s.lanes.map Lane.tick)[y] = s.lanes[y].tick := Vector.getElem_map ..
      exact hln ▸ Lane.tick_like _
    exact hticked.beside rfl rfl

/-! ### Starts (R173, R181 to R183) -/

theorem State.Restart.lane (h : s.Restart t) (l : LaneIx) : ∃ d, t.lanes[l] = Lane.fresh d := by
  cases h with
  | load => exact ⟨none, Vector.getElem_replicate ..⟩
  | loaded _ code => exact loadOutcome_lane code l
  | warm => exact ⟨s.lanes[l].layout, Vector.getElem_map ..⟩

theorem State.LaneSound.fresh (s : State) (x : Option SlotIx) (l : LaneIx) (d : Option LaneLayout) :
    s.LaneSound x l (Lane.fresh d) := by
  have hlists : ∀ b : BerthIx, (Lane.fresh d).lists[b] = [] := fun b => Vector.getElem_replicate ..
  refine ⟨fun _ => rfl, fun c => Lane.no_record rfl, fun b => ?_, fun b k hk => ?_, fun c => Lane.no_record rfl⟩
  · rw [hlists b]
    exact List.nodup_nil
  · rw [hlists b] at hk
    exact absurd hk List.not_mem_nil

theorem State.Restart.laid (h : s.Restart t) : t.Laid none := by
  obtain ⟨hmoves, hqueue, -⟩ := h.empty
  refine ⟨fun m hm => ?_, fun l => ?_, fun q hq => ?_, by rw [hmoves]; exact List.nodup_nil⟩
  · rw [hmoves] at hm
    exact absurd hm List.not_mem_nil
  · obtain ⟨d, hd⟩ := h.lane l
    exact hd ▸ State.LaneSound.fresh t none l d
  · rw [hqueue] at hq
    exact absurd hq List.not_mem_nil

theorem State.Restart.ordered (h : s.Restart t) : t.Ordered := by
  have hidle : t.arbiter = .idle := by cases h <;> rfl
  obtain ⟨hmoves, -⟩ := h.empty
  refine .unvisited (fun m hm => ?_) (.of_none (by rw [hidle]; rfl)) ⟨fun p hp => ?_, fun hf => ?_, fun hd => ?_⟩
  · rw [hmoves] at hm
    exact absurd hm List.not_mem_nil
  · rw [hidle] at hp
    cases hp
  · rw [hidle] at hf
    cases hf
  · rw [hidle] at hd
    cases hd

/-! ### The step -/

/-- Every step keeps the laws, or starts the part. -/
theorem State.Sound.of_step (h : s.Sound none) (hstep : step s = .next t) : t.Laid none ∧ t.Ordered := by
  have hpicked : ∀ p n, ({ s with pending := p, picks := n } : State).Sound none := fun p n => h.beside rfl rfl
  have hof : ∀ {v : State}, v.Sound none → v.Laid none ∧ v.Ordered := fun hv => ⟨hv.laid, hv.order⟩
  have hexec : ∀ c p n, exec c { s with pending := p, picks := n } = .next t → t.Laid none ∧ t.Ordered := by
    intro c p n hc
    cases hs : Instr.isStart c with
    | true =>
      rcases exec_start hs hc with hrestart | rfl
      · exact ⟨hrestart.laid, hrestart.ordered⟩
      · exact hof (hpicked p n)
    | false => exact hof ((hpicked p n).of_exec hs hc)
  unfold Machine.step at hstep
  split at hstep
  · by_cases hdue : s.dueSteps = []
    · rw [State.ownStep_of_nothing_due hdue] at hstep
      injection hstep with hstep
      exact hof (hstep ▸ h.clockCycle)
    · obtain ⟨d, -, n, hd⟩ := State.ownStep_of_due hdue
      rw [hd] at hstep
      cases d with
      | command c => exact hexec c s.pending n hstep
      | request =>
        injection hstep with hstep
        exact hof (hstep ▸ State.Sound.announce (State.Sound.request (hpicked s.pending n)) _)
      | rest l =>
        injection hstep with hstep
        exact hof (hstep ▸ State.Sound.makeAsk (hpicked s.pending n) l)
  · rename_i c rest _
    exact hexec c rest s.picks hstep

theorem State.sound_of_laws (htable : s.TableLaw) (hrun : s.RunLaw) (hlane : s.LaneLaw) (harb : s.ArbiterLaw) : s.Sound none := by
  have hlaid := State.laid_of_laws htable hrun hlane harb
  obtain ⟨-, hvisit, hcheck, hpass⟩ := harb
  refine ⟨State.runBut_none.2 hrun, hlaid, fun m hm he => ?_, hcheck, hpass⟩
  obtain ⟨-, -, hnone, hhead⟩ := hvisit m hm he
  exact ⟨hnone, hhead⟩

theorem State.Laid.arbiterLaw (h : s.Laid none) (hord : s.Ordered) : s.ArbiterLaw := by
  have hsound : ∀ m ∈ s.moves, s.MoveSound m := fun m hm => h.moves m hm (Option.some_ne_none _).symm
  refine ⟨fun m hm => (hsound m hm).yields, fun m hm he => ?_, hord.check, hord.pass⟩
  obtain ⟨helig, hclear⟩ := (hsound m hm).visited he
  obtain ⟨hnone, hhead⟩ := hord.visit m hm he
  exact ⟨helig, hclear, hnone, hhead⟩

/-- Settles O58: the laws are read move by move and lane by lane; every change keeps them of the move and the lane that it
changes, and a move that ends leaves its lane before its entry goes. -/
theorem stepKeepsTheLaneAndArbiterLaws : Obligations.StepKeepsTheLaneAndArbiterLaws := by
  intro s t htable hrun hlane harb hstep
  obtain ⟨hlaid, hord⟩ := (State.sound_of_laws htable hrun hlane harb).of_step hstep
  exact ⟨hlaid.laneLaw (stepKeepsTheRunLaw s t hrun hstep), hlaid.arbiterLaw hord⟩

end steps

end Sys2Proof.Machine
end
